-- ==== Sys2Proof/Word.lean ====
section
/-! DEFINITION. The byte type; the machine's wider quantities are natural numbers cut to their field's width where the
spec gives a width. -/

namespace Sys2Proof

/-- One byte of memory, of a record or of a message. -/
abbrev Byte := BitVec 8

end Sys2Proof
end

