-- ==== Sys2Proof/Machine/OperandTypes.lean ====
section
/-! DEFINITION. The plain data that commands carry besides numbers: what a host read returned, and small closed choices of
the world outside the block. -/

namespace Sys2Proof

/-- What the host-memory read of a command has come to (R458, R459): the bytes, returned within the step; a request with
a tag, still outstanding; or the bytes that HOST_READ_COMPLETION stored earlier. -/
inductive HostData where
  | got (bytes : List Byte)
  | pend (tag : Nat)
  | returned
deriving DecidableEq, Repr

/-- How a PCIe completion to a read ended (R459). -/
inductive CplStatus where
  | ok | ur | ca | poison
deriving DecidableEq, Repr

/-- What the host's configuration writes leave in a function when Bus Master Enable is set (R434, R458, R465): MSI-X
Enable and, in the PF, the Max Read Request Size, the Completion Timeout Value and VF Enable. -/
structure PcieCfg where
  msixEn : Bool
  mrrs : Nat
  cto : Nat
  vfEn : Bool
deriving DecidableEq, Repr

end Sys2Proof
end

