-- ==== Sys2Proof/Syntax.lean ====
section
/-! DEFINITION. The commands and events of the block: one constructor per row of the opcode table, with the operands that the
world outside supplies. -/

namespace Sys2Proof

/-- A command or event (spec/opcode_table.json). -/
inductive Instr where
  /-- SPLIT_REFRESH, R36: At each TK_NS multiple of 8,000 the Timekeeper samples every split-timer counter and updates SPLIT_PERIOD_d and SPLIT_STAT_d together. -/
  | splitRefresh (samples : List (Nat × Bool × Int)) (powerMw : Nat)
  /-- KICK, R46: The Pacer issues a Kick at the later of the decision and 20 µs before the first segment that needs it. -/
  | kick
  /-- KICK_SETTLED, R48: VCORE settles within ±10 mV of the Kick target and prediction switches to the new measured rate. -/
  | kickSettled
  /-- PACER_SETPOINT_LOWER, R49: After three refreshes with no Heat needing the setpoint, the Pacer lowers it at 10 mV/µs. -/
  | pacerSetpointLower
  /-- BRAKE_TRIGGER, R53: A current, power-cap, droop or phase-derate cause throttles Lane issue within 50 ns. -/
  | brakeTrigger (cause : Fin 3)
  /-- BRAKE_LEVEL_RISE, R54: A Brake cause persisting a further 1 µs raises the Brake one duty level. -/
  | brakeLevelRise
  /-- BRAKE_LEVEL_FALL, R54: A Brake cause absent for 2 µs lowers the Brake one level. -/
  | brakeLevelFall (absent : BitVec 3)
  /-- BRAKE_SETPOINT_STEP, R55: Each 100 µs of a current or power Brake lowers the setpoint by 25 mV, down to the Pace base. -/
  | brakeSetpointStep
  /-- LANE_UNGATE, R82: Work placed on a GATED Lane ungates it and restores its Field tables, bringing it to IDLE. -/
  | laneUngate (n : Fin 8)
  /-- LANE_IDLE_GATE, R82: A Lane idle for 1 ms with IDLE_GATE set is power-gated and its split timer becomes not VALID. -/
  | laneIdleGate (n : Fin 8)
  /-- LANE_FAULT, R83: A parity or residue fault halts step issue within 50 ns, discards affected tiles and writes EV_LANE_FAULT. -/
  | laneFault (n : Fin 8) (kind : Fin 4)
  /-- LANE_AUTO_RESET, R82: A FAULTED Lane with fewer than 3 faults in 1 s starts an automatic lane reset. -/
  | laneAutoReset (n : Fin 8)
  /-- LANE_RST, R84: Writing 1 to a LANE_RST bit requests a lane reset of that Lane and releases a held Lane. -/
  | laneRst (lanes : BitVec 8)
  /-- LANE_RESET_DONE, R84: A lane reset completes, clearing tiles, staging and the split timer, and the Lane returns to IDLE. -/
  | laneResetDone (n : Fin 8)
  /-- LANE_DRAIN_DONE, R68: A drain of accumulator tiles ends, freeing tiles for a waiting cube array. -/
  | laneDrainDone (n : Fin 8)
  /-- LANE_MMA, R181: An MMA entry runs cube products over its output blocks in row-major order under its pass plan and drains them. -/
  | laneMma (n : Fin 8) (upsets : List Nat)
  /-- LANE_FIELD, R706: A FIELD entry performs the element-wise operation selected by FN. -/
  | laneField (n : Fin 8) (upsets : List Nat)
  /-- LANE_REDUCE, R72: A REDUCE entry performs a row or column reduction in the defined order. -/
  | laneReduce (n : Fin 8) (upsets : List Nat)
  /-- LANE_LOOKUP, R71: A LOOKUP entry evaluates a lookup table, with a Newton step for reciprocal functions. -/
  | laneLookup (n : Fin 8) (upsets : List Nat)
  /-- LANE_CONVERT, R105: A CONVERT entry converts or requantises elements with rounding and saturation. -/
  | laneConvert (n : Fin 8) (upsets : List Nat)
  /-- LANE_STREAM, R119: A STREAM entry resolves a descriptor template and issues it on the Lane's stride engine. -/
  | laneStream (n : Fin 8)
  /-- LANE_WAIT, R180: A WAIT entry holds the Lane until its token is final or its next chunk record arrives. -/
  | laneWait (n : Fin 8)
  /-- LANE_TAP_IN, R180: A TAP_IN entry holds the Lane until the tap's input tensor is ready. -/
  | laneTapIn (n : Fin 8)
  /-- LANE_TAP_OUT, R184: A TAP_OUT entry presents the output tensor as the learned result at its tap. -/
  | laneTapOut (n : Fin 8)
  /-- LANE_END, R180: An END entry ends the virtual Lane's work for the Heat. -/
  | laneEnd (n : Fin 8)
  /-- SYNC_FENCE, R539: A FENCE completes once every covered write meets the condition of its scope. -/
  | syncFence (n : Fin 8)
  /-- SYNC_SIGNAL_SET, R543: An optional fence then an 8-byte SET of a signal. -/
  | syncSignalSet (n : Fin 8)
  /-- SYNC_SIGNAL_ADD, R543: An optional fence then an atomic ADD to a signal. -/
  | syncSignalAdd (n : Fin 8)
  /-- SYNC_WAIT, R544: A WAIT holds the Lane until a local signal reaches its target. -/
  | syncWait (n : Fin 8)
  /-- SIGNAL_WAIT_SATISFIED, R544: A write to a waited signal's granule makes it reach its target and the WAIT completes. -/
  | signalWaitSatisfied (n : Fin 8)
  /-- SIGNAL_WAIT_TIMEOUT, R544: A WAIT lasting 64 × WD_US fails, counts WAIT_TMO and ends the Heat or its learned stage. -/
  | signalWaitTimeout (n : Fin 8)
  /-- SYNC_ARRIVE, R545: An optional fence then an arrival at a barrier without waiting. -/
  | syncArrive (n : Fin 8)
  /-- SYNC_BARRIER, R545: An arrival at a barrier followed by an await of its release. -/
  | syncBarrier (n : Fin 8)
  /-- SYNC_AWAIT, R545: The Lane waits for the release of the generation it last arrived at. -/
  | syncAwait (n : Fin 8)
  /-- TRANSFER_ENTRY_FREED, R125: A freed in-flight entry admits the next QUEUED transfer in reserved-class then issue order. -/
  | transferEntryFreed
  /-- TRANSFER_START, R120: A stride engine becomes free and starts source reads of the next admitted transfer. -/
  | transferStart (id : Nat) (upsets : List Nat)
  /-- TRANSFER_CHUNK_DONE, R126: A paired chunk is written, its token record written, and the transfer waits if the other half is not released. -/
  | transferChunkDone (id : Nat) (src : Option (List Byte))
  /-- TRANSFER_DONE, R121: The last write of a transfer takes effect and the final token record is written. -/
  | transferDone (id : Nat) (src : Option (List Byte))
  /-- BATON_CHAIN_START, R130: An admitted Baton chain starts once every member is IDLE or BUSY and a chain slot is free. -/
  | batonChainStart (id : Nat)
  /-- BATON_CHAIN_DONE, R131: A Baton chain ends and writes its final token with DONE_MASK on the HEAD Lane. -/
  | batonChainDone (id : Nat) (src : Option (List Byte))
  /-- POOL_ALLOC, R159: A requester allocates a buffer of a class, subject to quota and free buffers. -/
  | poolAlloc (req : Fin 47) (c : Fin 32)
  /-- POOL_FREE, R159: A named owner frees a buffer, advancing its generation or retiring it. -/
  | poolFree (req : Fin 47) (handle : BitVec 32)
  /-- POOL_GIVE, R159: A named owner gives a buffer to a new owner and receives the new handle. -/
  | poolGive (req : Fin 47) (handle : BitVec 32) (dst : Fin 64)
  /-- POOL_REF, R159: A holder adds a reference to a refcount buffer. -/
  | poolRef (req : Fin 47) (handle : BitVec 32)
  /-- POOL_UNREF, R159: A holder drops a reference, freeing or retiring the buffer at zero. -/
  | poolUnref (req : Fin 47) (handle : BitVec 32)
  /-- POOL_QUERY, R485: A requester reads a buffer's state, owner, count, group and address. -/
  | poolQuery (req : Fin 47) (handle : BitVec 32)
  /-- POOL_RETIRE_SCRUB, R165: Firmware zeroes and reads back a retired buffer, returning it to the free list when all words are correctable. -/
  | poolRetireScrub (index : Fin 262144) (still : List Nat)
  /-- PATROL_SCRUB, R147: The patrol scrubber reads and corrects Infield and LPDDR5X words in the background. -/
  | patrolScrub (word : Nat) (found : Fin 3)
  /-- LPDDR_TRAINING_DONE, R151: LPDDR5X training ends and MEM_STAT.TRAINED reports the result. -/
  | lpddrTrainingDone (ok : Bool)
  /-- HEAT_RUN, R194: An admitted Heat's first entry becomes ready and it issues on its placed Lanes. -/
  | heatRun (slot : Fin 32)
  /-- SPLIT_TIME_REACHED, R265: A tap's split time passes with no learned result and the tap is decided classical. -/
  | splitTimeReached (slot : Fin 32) (t : Fin 3)
  /-- FINISH_LINE_REACHED, R271: A radio Heat's finish line passes with results missing and it commits SLOT_MISSED. -/
  | finishLineReached (slot : Fin 32)
  /-- HEAT_COMMIT, R194: All work done, the Heat writes its report, then its completion, and enters DRAINING. -/
  | heatCommit (slot : Fin 32)
  /-- HEAT_RELEASE, R194: Once every Lane has stopped and every token is final, the Heat releases activations and its slot. -/
  | heatRelease (slot : Fin 32)
  /-- HEAT_WATCHDOG, R195: No entry completing for WD_US fires the Heat watchdog. -/
  | heatWatchdog (slot : Fin 32)
  /-- TK_COMPARISON, R216: A source comparison measures the phase error and slews, steps or defers a step. -/
  | tkComparison (t : Nat) (epoch : Option Nat)
  /-- PPS_IN_EDGE, R209: A rising PPS_IN edge labelled by TOD_RX provides a 1PPS comparison. -/
  | ppsInEdge
  /-- TOD_RX_MESSAGE, R210: A 9-byte TOD_RX message arrives and, if valid and timely, labels the next PPS edge. -/
  | todRxMessage (msg : List Byte) (after : Nat)
  /-- TK_SOURCE_QUALIFIED, R211: A source valid for QUAL_S seconds qualifies and may be selected. -/
  | tkSourceQualified (src : Fin 5)
  /-- TK_SOURCE_LOST, R213: The selected source is lost and the Timekeeper selects another or enters holdover. -/
  | tkSourceLost (src : Fin 5)
  /-- TK_HOLDOVER_EXPIRED, R214: The holdover budget elapses and the Timekeeper enters HOLD_EXPIRED. -/
  | tkHoldoverExpired
  /-- TK_STEP_APPLY, R216: A pending step is applied once the conditions for a step hold. -/
  | tkStepApply
  /-- REF10M_LOSS, R215: REF10M_OK falls and TKCLK moves to the board reference within 1 µs. -/
  | ref10mLoss
  /-- TK_NS_LO_READ, R206: A read of TK_NS_LO latches TK_NS_HI, TK_FRAC and TK_NR. -/
  | tkNsLoRead
  /-- SYSREF_ARM, R222: Writing 1 to ARM starts a gapped or one-shot SYSREF sequence. -/
  | sysrefArm (n : Fin 4)
  /-- SYSREF_PULSE, R221: A SYSREF pulse is emitted on its aligned period edge. -/
  | sysrefPulse (n : Fin 4)
  /-- PPS_OUT_PULSE, R223: PPS_OUT rises PPS_ADV before each whole TAI second. -/
  | ppsOutPulse
  /-- CARRIER_ACTIVATION_EFFECT, R239: A carrier activation takes effect at the next 10 ms frame boundary and its links leave HELD. -/
  | carrierActivationEffect (c : Fin 4)
  /-- CARRIER_DEACTIVATION_EFFECT, R239: A carrier deactivation takes effect at the next slot boundary and its links power down. -/
  | carrierDeactivationEffect (c : Fin 4)
  /-- JESD_LANE_LOCK, R236: Lock on every lane moves a receive link from SYNC to ALIGN. -/
  | jesdLaneLock (c : Fin 4)
  /-- JESD_SYNC_TIMEOUT, R236: 5 ms without lock restarts the search or faults the link on the third failure. -/
  | jesdSyncTimeout (c : Fin 4)
  /-- JESD_ALIGN_DONE, R236: Multiblock lock or ILAS completes and the link enters UP or FAULTED. -/
  | jesdAlignDone (c : Fin 4) (ilasOk : Bool) (margin : Int)
  /-- JESD_LINK_LOSS, R236: Header, disparity or elastic-buffer errors take an UP link back to SYNC. -/
  | jesdLinkLoss (c : Fin 4)
  /-- JESD_CRC_ERROR, R236: A CRC-12 error on an UP link is counted with no state change. -/
  | jesdCrcError (c : Fin 4) (n : Nat)
  /-- JESD_SYNCIN_CHANGE, R237: SYNCIN_N_c deasserts or stays asserted, starting ILAS or resynchronising a JESD204B transmit link. -/
  | jesdSyncinChange (c : Fin 4) (asserted : Bool)
  /-- SLOT_TABLE_EFFECT, R242: A shadow slot-table update is copied into force at a qualifying slot boundary. -/
  | slotTableEffect (c : Fin 4)
  /-- AGC_WINDOW_END, R246: At a measurement window end the AGC loop decides an attack or release and drives the change if it fits. -/
  | agcWindowEnd (p : Fin 8) (peak mean : Int) (left : Nat)
  /-- AGC_ENERGY_DETECT, R249: In code-3 symbols a sliding mean above ED_DBFS freezes gain and reports the detection symbol. -/
  | agcEnergyDetect (p : Fin 8) (sym : Fin 14)
  /-- AGC_FREEZE_START, R248: Gain freezes at the cyclic prefix of the first code-2 symbol of a run. -/
  | agcFreezeStart (p : Fin 8)
  /-- AGC_FREEZE_END, R248: Gain unfreezes at the end of the last symbol of the run. -/
  | agcFreezeEnd (p : Fin 8)
  /-- SLOT_FIRST_SAMPLE, R259: A slot's first sample arrives and the receive track starts on the admitted Heat or discards the slot. -/
  | slotFirstSample (c : Fin 4) (sfn : Fin 1024) (subframe : Fin 10) (slot : Fin 8)
  /-- RX_SYMBOL, R258: An uplink symbol is received and runs through the classical receive stages. -/
  | rxSymbol (c : Fin 4) (sfn : Fin 1024) (subframe : Fin 10) (slot : Fin 8) (sym : Fin 14) (samples : List Nat) (clips : BitVec 8) (lost : List Nat)
  /-- TX_SYMBOL, R273: A downlink symbol is encoded, modulated, precoded, transformed and sent at its boundary. -/
  | txSymbol (c : Fin 4) (sfn : Fin 1024) (subframe : Fin 10) (slot : Fin 8) (sym : Fin 14)
  /-- DECODER_START, R304: A FREE decoder takes a waiting PON or radio codeword, possibly as a lent decoder. -/
  | decoderStart (d : Fin 16)
  /-- CODEWORD_DECODE_DONE, R290: A decoder finishes a codeword, delivers its output and returns to FREE. -/
  | codewordDecodeDone (d : Fin 16) (pon : Option Nat)
  /-- DECODER_PARITY_FAULT, R304: A decoder memory parity fault requeues the codeword, resets or holds the decoder. -/
  | decoderParityFault (d : Fin 16)
  /-- ENCODE_CODEWORD_DONE, R305: An LDPC encoder finishes a downlink codeword. -/
  | encodeCodewordDone
  /-- POLAR_DONE, R309: A polar encode or decode request finishes and its POLAR command completes. -/
  | polarDone
  /-- PON_DOWNSTREAM_FRAME, R317: A downstream frame arrives, its PSBd is latched and its FS header decoded. -/
  | ponDownstreamFrame (p : Fin 2) (superframe cws corr unc micFail : Nat)
  /-- PON_SYNC_ACQUIRED, R333: Downstream synchronisation with a learned burst profile moves activation from O1 to O2-3. -/
  | ponSyncAcquired (p : Fin 2)
  /-- PON_SYNC_LOSS, R333: Loss of downstream sync in O5 starts TO2 and holds the laser off. -/
  | ponSyncLoss (p : Fin 2)
  /-- PON_SYNC_REGAINED, R333: Sync regained before TO2 expires returns activation to O5. -/
  | ponSyncRegained (p : Fin 2)
  /-- XGEM_FRAME, R318: An XGEM frame is delineated, decrypted and reassembled into Pool buffers with notices. -/
  | xgemFrame (p : Fin 2) (hdrOk idle : Bool) (portId : Fin 65536) (key : Fin 4) (lf : Bool) (icb : List Nat) (payload : List Byte)
  /-- PON_BLOCK_TIMEOUT, R324: An open block incomplete 2 ms after its first segment is dropped. -/
  | ponBlockTimeout (p : Fin 2) (e : Fin 256)
  /-- BURST_FIX, R329: The port fixes the contents of a burst, including the DBRu, 12 µs before its start. -/
  | burstFix (p : Fin 2) (start : Nat) (profile : Fin 4) (allocs : List (Nat × Nat × Bool × Bool))
  /-- BURST_START, R331: An upstream burst starts at the instant fixed by StartTime, EqD and the response time. -/
  | burstStart (p : Fin 2)
  /-- BURST_END, R326: A burst ends and the port frees buffers whose last byte it carried. -/
  | burstEnd (p : Fin 2) (ns : Nat)
  /-- SN_GRANT, R333: A serial-number grant schedules Serial_Number_ONU after a random delay. -/
  | snGrant (p : Fin 2)
  /-- SN_SEND, R333: After the random delay the device sends Serial_Number_ONU. -/
  | snSend (p : Fin 2)
  /-- RANGING_GRANT, R333: A ranging grant in O4 sends Registration. -/
  | rangingGrant (p : Fin 2)
  /-- PON_TO1_EXPIRY, R336: TO1 expires in O2-3 or O4, clearing the ONU-ID and returning to O1. -/
  | ponTo1Expiry (p : Fin 2)
  /-- PON_TO2_EXPIRY, R336: TO2 expires in O6, clearing activation data and returning to O1. -/
  | ponTo2Expiry (p : Fin 2)
  /-- PLOAM_BURST_PROFILE, R337: A Burst_Profile message is stored by index. -/
  | ploamBurstProfile (p : Fin 2) (index : Fin 4) (profile msg : List Byte)
  /-- PLOAM_ASSIGN_ONU_ID, R333: Assign_ONU-ID records the ONU-ID, starts TO1 and moves to O4. -/
  | ploamAssignOnuId (p : Fin 2) (onu : Fin 1024) (serial msg : List Byte)
  /-- PLOAM_RANGING_TIME, R332: Ranging_Time records EqD, applied from the next BWmap, and moves to O5. -/
  | ploamRangingTime (p : Fin 2) (eqd : BitVec 32) (msg : List Byte)
  /-- PLOAM_DEACTIVATE_ONU_ID, R333: Deactivate_ONU-ID acts as TO2 expiry and returns to O1. -/
  | ploamDeactivateOnuId (p : Fin 2) (onu : Fin 1024) (msg : List Byte)
  /-- PLOAM_DISABLE_SERIAL_NUMBER, R333: Disable_Serial_Number enters or leaves O7 and records the flag in boot flash. -/
  | ploamDisableSerialNumber (p : Fin 2) (disable : Bool) (serial : Option (List Byte)) (msg : List Byte)
  /-- PLOAM_REQUEST_REGISTRATION, R337: Request_Registration is answered with Registration. -/
  | ploamRequestRegistration (p : Fin 2) (msg : List Byte)
  /-- PLOAM_ASSIGN_ALLOC_ID, R337: Assign_Alloc-ID adds or removes an Alloc-ID and is acknowledged. -/
  | ploamAssignAllocId (p : Fin 2) (alloc : Fin 65535) (add : Bool) (msg : List Byte)
  /-- PLOAM_KEY_CONTROL, R339: Key_Control draws a unicast key and answers with Key_Report. -/
  | ploamKeyControl (p : Fin 2) (index : Fin 3) (confirm : Bool) (at_ : Option Nat) (msg : List Byte)
  /-- PLOAM_SLEEP_ALLOW, R342: Sleep_Allow drives the power-saving states. -/
  | ploamSleepAllow (p : Fin 2) (on : Bool) (msg : List Byte)
  /-- PLOAM_CHANGE_POWER_LEVEL, R398: Change_Power_Level drives the optic level at the end of a burst and is acknowledged. -/
  | ploamChangePowerLevel (p : Fin 2) (level : Fin 4) (msg : List Byte)
  /-- PLOAM_POWER_CONSUMPTION_INQUIRE, R337: Power_Consumption_Inquire is answered with a report from telemetry. -/
  | ploamPowerConsumptionInquire (p : Fin 2) (msg : List Byte)
  /-- PLOAM_UNSUPPORTED, R337: An unsupported PLOAM is copied to the host and counted. -/
  | ploamUnsupported (p : Fin 2) (msg : List Byte)
  /-- PON_KEY_SWITCH, R339: The unicast key switches at the superframe the head end names. -/
  | ponKeySwitch (p : Fin 2)
  /-- PON_SLEEP_REQUEST, R342: Entry conditions hold in ACTIVE_FREE and a Sleep_Request is queued. -/
  | ponSleepRequest (p : Fin 2)
  /-- PON_TLOWPOWER_EXPIRY, R342: Tlowpower expires and the port moves from LOW to AWARE. -/
  | ponTlowpowerExpiry (p : Fin 2)
  /-- PON_TAWARE_EXPIRY, R342: Taware expires and the port returns from AWARE to LOW. -/
  | ponTawareExpiry (p : Fin 2)
  /-- PON_WAKE_STIMULUS, R343: A local wake stimulus cancels a sleep entry or leaves low power and queues Sleep_Request (Awake). -/
  | ponWakeStimulus (p : Fin 2)
  /-- DEFECT_CONDITION, R351: A defect's detection condition appears or disappears, starting or abandoning a count. -/
  | defectCondition (p : Fin 2) (d : Fin 8) (present : Bool)
  /-- DEFECT_ENTRY_MET, R351: Entry persistence is met and the defect is declared. -/
  | defectEntryMet (p : Fin 2) (d : Fin 8)
  /-- DEFECT_EXIT_MET, R351: The exit criterion is met and the defect clears. -/
  | defectExitMet (p : Fin 2) (d : Fin 8)
  /-- PM_SECOND_MARK, R362: At each PM second the engine latches deltas, updates bins, evaluates alerts and closes bins at marks. -/
  | pmSecondMark
  /-- BOND_GAP_TIMEOUT, R373: A missing SEQ not arrived within |S| + GAP_WAIT is skipped and counted. -/
  | bondGapTimeout (portId : Fin 65536)
  /-- BOND_MEMBER_REJOIN, R378: A lost member meeting the rejoin criteria is readmitted at the next frame. -/
  | bondMemberRejoin (p : Fin 2)
  /-- FRT_FRAME_GENERATE, R381: An upstream FRT generates one frame at each downstream frame boundary under pointer or slip rules. -/
  | frtFrameGenerate (t : Fin 16)
  /-- FRT_FRAME_RECEIVE, R385: A received FRT frame is checked and its payload written to the endpoint buffer. -/
  | frtFrameReceive (p : Fin 2) (e : Fin 256) (sdu : List Byte)
  /-- OPTIC_INSERT, R392: OPT_ABS_p low for 100 ms enters SETTLING. -/
  | opticInsert (p : Fin 2)
  /-- OPTIC_SETTLED, R392: 300 ms after insertion firmware reads the identity pages. -/
  | opticSettled (p : Fin 2)
  /-- OPTIC_IDENTIFY_DONE, R393: Identity reads complete and the optic is accepted or rejected. -/
  | opticIdentifyDone (p : Fin 2) (reads : Option (List Byte × List Byte × List Byte × List Byte)) (ok : Bool)
  /-- OPTIC_TX_FAULT, R392: OPT_TXF_p high for 10 µs holds burst enable off or moves the optic to FAULT. -/
  | opticTxFault (p : Fin 2) (sent : Nat)
  /-- OPTIC_TX_REPERMIT, R392: After the 10 ms hold the laser is permitted again. -/
  | opticTxRepermit (p : Fin 2)
  /-- OPTIC_REMOVE, R392: OPT_ABS_p high drives OPT_BEN_p high, flushes the ledger and enters EMPTY. -/
  | opticRemove (p : Fin 2) (sent : Nat)
  /-- OPTIC_MONITOR_POLL, R390: Each PM second firmware reads the optic's diagnostics and evaluates end of life. -/
  | opticMonitorPoll (p : Fin 2) (diag : Option (List Nat)) (ok : Bool)
  /-- OPTIC_LEDGER_WRITE, R403: Every LEDGER_S seconds the ledger is written to the optic and the mirror. -/
  | opticLedgerWrite (p : Fin 2) (ok : Bool)
  /-- CIPH_LOCK_REQ, R425: Writing REQ = 1 requests the shared cipher lock. -/
  | ciphLockReq (u : Fin 8)
  /-- CIPH_LOCK_REL, R425: Writing REL = 1 releases the lock and zeroes the context. -/
  | ciphLockRel (u : Fin 8)
  /-- KEY_COMMIT, R415: KEY_CTL with COMMIT copies staged key material to a slot and sets VALID and KCV. -/
  | keyCommit (u : Fin 8) (slot : Fin 16) (len : Fin 2) (usage : Fin 32)
  /-- KEY_ERASE, R417: KEY_CTL with ERASE zeroes a slot and clears VALID. -/
  | keyErase (u : Fin 8) (slot : Fin 16)
  /-- CIPH_LEASE_EXPIRY, R425: The holder's lease expires with no part running and the lock is freed. -/
  | ciphLeaseExpiry
  /-- CIPHER_PART_DONE, R425: A cipher command or session part finishes processing on a command pipeline. -/
  | cipherPartDone (ring : Fin 64) (cid : Fin 65536) (host : Option (List Byte × List Byte))
  /-- ENTROPY_HEALTH_FAIL, R422: An entropy health test fails and firmware draws no key. -/
  | entropyHealthFail
  /-- SQ_TAIL_WRITE, R449: A doorbell write of SQ_TAIL hands new submission entries to the device. -/
  | sqTailWrite (fn : Fin 8) (n : Fin 64) (v : Fin 1024)
  /-- CQ_HEAD_WRITE, R450: A doorbell write of CQ_HEAD releases completion slots for held entries. -/
  | cqHeadWrite (fn : Fin 8) (n : Fin 64) (v : Fin 1024)
  /-- COMMAND_FETCH, R452: The device fetches a submission entry under the in-flight limits and ring arbitration. -/
  | commandFetch (d : HostData)
  /-- HOST_READ_COMPLETION, R459: A PCIe completion to a device read arrives and is matched or fails the read. -/
  | hostReadCompletion (tag : Fin 1024) (status : CplStatus) (bytes : List Byte)
  /-- HOST_READ_TIMEOUT, R459: A read request times out, failing its command and quarantining its tag. -/
  | hostReadTimeout (tag : Fin 1024)
  /-- TAG_QUARANTINE_END, R460: A quarantined tag becomes usable again after twice the timeout. -/
  | tagQuarantineEnd (tag : Fin 1024)
  /-- MSIX_COALESCE_TIMEOUT, R457: COAL_US elapses since the oldest unsignalled entry and the ring vector is sent. -/
  | msixCoalesceTimeout (n : Fin 64)
  /-- PCIE_DL_DOWN, R462: The PCIe link goes down; configuration resets and rings move to HELD. -/
  | pcieDlDown (unacked : List (Fin 8 × Nat))
  /-- BUS_MASTER_ENABLE_SET, R463: Bus Master Enable set again re-sends unacknowledged writes and resumes rings. -/
  | busMasterEnableSet (fn : Fin 8) (cfg : PcieCfg)
  /-- LINK_HOLD_EXPIRY, R464: LINK_HOLD elapses without Bus Master Enable, acting as FLR or hot reset. -/
  | linkHoldExpiry (fn : Fin 8)
  /-- FLR, R465: A function-level reset clears the user's rings, commands, buffers and cipher page. -/
  | flr (u : Fin 8)
  /-- HQ_EN_SET, R466: Writing HQ_CTL.EN = 1 brings up ring 0 or is refused or held. -/
  | hqEnSet
  /-- HQ_EN_CLEAR, R466: Writing HQ_CTL.EN = 0 drains ring 0. -/
  | hqEnClear
  /-- BAR4_ACCESS, R439: A BAR4 access reads or writes Infield through the debug window. -/
  | bar4Access (off len : Nat) (wr : Option (List Byte)) (upsets : List Nat)
  /-- PME_TURN_OFF, R629: PME_Turn_Off in Bench is acknowledged and the link enters L2/L3 Ready. -/
  | pmeTurnOff
  /-- IDENTIFY, R473: Writes the 256-byte identification record. -/
  | identify (ring : Fin 64) (cid : Fin 65536)
  /-- FEATURE_GET, R474: Returns a feature value. -/
  | featureGet (ring : Fin 64) (cid : Fin 65536)
  /-- FEATURE_SET, R474: Writes a feature field. -/
  | featureSet (ring : Fin 64) (cid : Fin 65536)
  /-- RING_CREATE, R475: Creates a ring or updates its live fields. -/
  | ringCreate (ring : Fin 64) (cid : Fin 65536)
  /-- RING_DELETE, R477: Drains and deletes a ring. -/
  | ringDelete (ring : Fin 64) (cid : Fin 65536)
  /-- MEM_MAP, R479: Maps host pages into the user's window. -/
  | memMap (ring : Fin 64) (cid : Fin 65536)
  /-- MEM_UNMAP, R480: Removes a host-window mapping. -/
  | memUnmap (ring : Fin 64) (cid : Fin 65536)
  /-- POOL_CLASS_SET, R482: Configures a Pool class or updates LOW_WATER. -/
  | poolClassSet (ring : Fin 64) (cid : Fin 65536)
  /-- POOL_QUOTA_SET, R483: Sets per-group quotas of a class. -/
  | poolQuotaSet (ring : Fin 64) (cid : Fin 65536)
  /-- POOL_CLASS_DELETE, R484: Deletes an unused Pool class. -/
  | poolClassDelete (ring : Fin 64) (cid : Fin 65536)
  /-- POOL_OP, R485: Performs one Pool operation as the issuing user. -/
  | poolOp (ring : Fin 64) (cid : Fin 65536)
  /-- PROG_LOAD, R486: Loads and places a Lemrel container. -/
  | progLoad (ring : Fin 64) (cid : Fin 65536) (d : HostData)
  /-- PROG_VERIFY, R488: Verifies a loaded program's TAG, making it READY. -/
  | progVerify (ring : Fin 64) (cid : Fin 65536)
  /-- PROG_UNLOAD, R488: Unloads a program with no Heat in flight. -/
  | progUnload (ring : Fin 64) (cid : Fin 65536)
  /-- HEAT_SUBMIT, R489: Reads a Heat descriptor and admits the Heat, refusing it on failed checks. -/
  | heatSubmit (ring : Fin 64) (cid : Fin 65536) (d : HostData)
  /-- CANCEL, R490: Cancels a Heat or stream command of the same user. -/
  | cancel (ring : Fin 64) (cid : Fin 65536)
  /-- STREAM_COPY, R491: Runs a host stream descriptor on engine 8. -/
  | streamCopy (ring : Fin 64) (cid : Fin 65536) (d : HostData)
  /-- STREAM_FILL, R492: Fills a local range with a repeated pattern. -/
  | streamFill (ring : Fin 64) (cid : Fin 65536)
  /-- STREAM_RELEASE, R493: Releases a half of a paired STREAM_COPY. -/
  | streamRelease (ring : Fin 64) (cid : Fin 65536)
  /-- PATCH_STATUS, R494: Writes the ROM patch table status. -/
  | patchStatus (ring : Fin 64) (cid : Fin 65536)
  /-- CARRIER_SET, R503: Configures or deletes a carrier from its record. -/
  | carrierSet (ring : Fin 64) (cid : Fin 65536) (d : HostData)
  /-- CARRIER_ACTIVATE, R505: Requests activation or deactivation of a carrier. -/
  | carrierActivate (ring : Fin 64) (cid : Fin 65536)
  /-- SLOT_TABLE_SET, R507: Writes slot-table entries in one shadowed update. -/
  | slotTableSet (ring : Fin 64) (cid : Fin 65536) (d : HostData)
  /-- AGC_SET, R508: Writes the AGC fields of a receive pair. -/
  | agcSet (ring : Fin 64) (cid : Fin 65536)
  /-- LINK_RESET, R509: Restarts the search of a carrier's radio links. -/
  | linkReset (ring : Fin 64) (cid : Fin 65536)
  /-- POLAR, R510: Submits a polar encode or decode request. -/
  | polar (ring : Fin 64) (cid : Fin 65536)
  /-- PON_CONFIG, R511: Configures a PON port from its record, enabling or disabling it. -/
  | ponConfig (ring : Fin 64) (cid : Fin 65536) (d : HostData)
  /-- PON_XGEM_SET, R512: Writes one XGEM port table entry. -/
  | ponXgemSet (ring : Fin 64) (cid : Fin 65536)
  /-- PON_SEND, R513: Gives a buffer to the port and queues it upstream. -/
  | ponSend (ring : Fin 64) (cid : Fin 65536)
  /-- PON_WAKE, R514: Applies a host wake stimulus to a port. -/
  | ponWake (ring : Fin 64) (cid : Fin 65536)
  /-- PON_STATUS, R514: Writes the port's 64-byte status block. -/
  | ponStatus (ring : Fin 64) (cid : Fin 65536)
  /-- PM_READ, R515: Writes a PM bin. -/
  | pmRead (ring : Fin 64) (cid : Fin 65536)
  /-- PM_THRESH_SET, R516: Sets a point's PM thresholds. -/
  | pmThreshSet (ring : Fin 64) (cid : Fin 65536)
  /-- BOND_SET, R517: Configures the bonded group. -/
  | bondSet (ring : Fin 64) (cid : Fin 65536) (d : HostData)
  /-- FRT_SET, R518: Configures a fixed-rate tributary. -/
  | frtSet (ring : Fin 64) (cid : Fin 65536)
  /-- OPTIC_CONFIG, R519: Writes optic settings and the accept list. -/
  | opticConfig (ring : Fin 64) (cid : Fin 65536) (d : HostData)
  /-- OPTIC_CTRL, R520: Overrides, clears an override, resets or flushes an optic. -/
  | opticCtrl (ring : Fin 64) (cid : Fin 65536) (txf ok : Bool)
  /-- OPTIC_QUERY, R521: Writes the optic status record. -/
  | opticQuery (ring : Fin 64) (cid : Fin 65536)
  /-- CIPHER, R522: Submits a single-shot or session cipher operation. -/
  | cipher (ring : Fin 64) (cid : Fin 65536)
  /-- KEY_UNWRAP, R525: Installs a wrapped broadcast key in a PON slot. -/
  | keyUnwrap (ring : Fin 64) (cid : Fin 65536)
  /-- TIME_SET, R526: Writes Timekeeper control registers. -/
  | timeSet (ring : Fin 64) (cid : Fin 65536)
  /-- TIME_TOD, R527: Supplies a PON ToD pair and forms a comparison. -/
  | timeTod (ring : Fin 64) (cid : Fin 65536)
  /-- TIME_STATUS, R528: Writes a latched time status record. -/
  | timeStatus (ring : Fin 64) (cid : Fin 65536)
  /-- POWER_STATE, R529: Requests a power-state change. -/
  | powerState (ring : Fin 64) (cid : Fin 65536)
  /-- POWER_CAP, R530: Sets the power cap. -/
  | powerCap (ring : Fin 64) (cid : Fin 65536)
  /-- POWER_STATUS, R531: Writes the power status record. -/
  | powerStatus (ring : Fin 64) (cid : Fin 65536)
  /-- LOG_READ, R532: Writes Photo-finish records. -/
  | logRead (ring : Fin 64) (cid : Fin 65536)
  /-- DUMP_CTL, R533: Registers, unregisters, copies or erases the dump. -/
  | dumpCtl (ring : Fin 64) (cid : Fin 65536)
  /-- SELF_TEST, R534: Starts the selected self-tests. -/
  | selfTest (ring : Fin 64) (cid : Fin 65536)
  /-- SELF_TEST_DONE, R534: Every selected test has ended and SELF_TEST completes. -/
  | selfTestDone (ring : Fin 64) (cid : Fin 65536) (failed : BitVec 6)
  /-- ARRIVE, R577: A barrier arrival reaches the Starter device and is counted, releasing or breaking the generation. -/
  | arrive (src : Fin 64) (seq epoch : Nat) (barrier : Fin 128) (expect : Nat)
  /-- BARRIER_TIMEOUT, R551: BAR_TMO_MS after the first arrival a FILLING barrier breaks with ABORTED. -/
  | barrierTimeout (d : Fin 64) (b : Fin 128)
  /-- BARRIER_BROKEN_RESET, R551: BAR_TMO_MS after a break the counter returns to IDLE with the next generation. -/
  | barrierBrokenReset (b : Fin 128)
  /-- RELEASE, R552: A barrier release reaches a member device, which frees its waiting Lanes. -/
  | release (src : Fin 64) (seq epoch : Nat) (barrier : Fin 128)
  /-- BREAK, R552: A barrier break reaches a member device and ends its waiting Heats. -/
  | break (src : Fin 64) (seq epoch : Nat) (barrier : Fin 128) (status : BitVec 16)
  /-- BYK_PORT_ENABLE, R567: Setting a PORT_EN bit starts equalisation on that port. -/
  | bykPortEnable (q : Fin 4)
  /-- BYK_PORT_DISABLE, R567: Clearing a PORT_EN bit takes the port down to DISABLED. -/
  | bykPortDisable (q : Fin 4)
  /-- BYK_LINK_RST, R567: Writing a LINK_RST bit restarts a FAULTED port. -/
  | bykLinkRst (q : Fin 4)
  /-- BYK_LANES_EQUALISED, R567: All four lanes equalise and the port enters ALIGN. -/
  | bykLanesEqualised (q : Fin 4)
  /-- BYK_TRAINING_TIMEOUT, R567: 100 ms of training restarts it or faults the port on the third attempt. -/
  | bykTrainingTimeout (q : Fin 4)
  /-- BYK_ALIGN_DONE, R567: FEC lock and deskew send HELLO. -/
  | bykAlignDone (q : Fin 4)
  /-- BYK_LINK_LOSS, R567: Loss of lock, uncorrectable codewords or failed replay send the port to RETRAIN. -/
  | bykLinkLoss (q : Fin 4)
  /-- BYK_PARCEL_RECEIVE, R564: A parcel arrives and is accepted or dropped with a NAK. -/
  | bykParcelReceive (q : Fin 4) (seq ackSeq : Fin 4096) (ack : Fin 3) (crcOk : Bool) (corr unc bad : Nat)
  /-- BYK_REPLAY_TIMEOUT, R564: 10 µs without acknowledgement resends from the first unacknowledged parcel. -/
  | bykReplayTimeout (q : Fin 4)
  /-- HELLO, R569: A peer HELLO is checked and the link enters UP or FAULTED. -/
  | hello (q : Fin 4) (dev : Fin 64) (edition topo dimX dimY : Nat) (epoch : Fin 65536) (ready : Bool) (retryUs : Fin 65536) (offer : Bool) (tkState : Fin 5) (hops : Fin 256)
  /-- BYK_READ_REQ, R572: A remote read request is served from local memory. -/
  | bykReadReq (src : Fin 64) (xid epoch : Fin 65536) (addr : Nat) (len : Nat) (host : Option (List Byte))
  /-- BYK_READ_RSP, R572: A read response completes a remote read. -/
  | bykReadRsp (src : Fin 64) (xid status : Fin 65536) (bytes : List Byte)
  /-- BYK_WRITE, R573: A tagged remote write is applied once and acknowledged. -/
  | bykWrite (src : Fin 64) (seq : Nat) (epoch : Fin 65536) (addr : Nat) (bytes : List Byte)
  /-- BYK_TAG_ACK, R573: A TAG_ACK resolves a tagged operation at the initiator. -/
  | bykTagAck (src : Fin 64) (seq : Nat) (status retryUs : Fin 65536)
  /-- BYK_ADD, R573: A tagged remote ADD is applied once and answered with the prior value. -/
  | bykAdd (src : Fin 64) (seq : Nat) (epoch : Fin 65536) (addr : Nat) (addend : BitVec 64)
  /-- BYK_ADD_RSP, R573: An ADD_RSP resolves a remote ADD. -/
  | bykAddRsp (src : Fin 64) (seq : Nat) (status : Fin 65536)
  /-- BYK_BLOCK, R579: A forwarded transport-block message is stored and handed to the PON port when complete. -/
  | bykBlock (src : Fin 64) (seq : Nat) (epoch : Fin 65536) (hdr data : List Byte)
  /-- BYK_BATON, R135: Baton relay data arrives at a hop device and is admitted or refused. -/
  | bykBaton (src : Fin 64) (plan hop : Nat) (prog : Nat) (desc data : List Byte)
  /-- BYK_ISO, R582: An isochronous frame arrives and is queued in the slip buffer. -/
  | bykIso (q : Fin 4) (ch : Fin 16) (sfn : Fin 1024) (subframe : Fin 10) (slot : Fin 8) (sym : Fin 14) (seq : Nat) (data : List Byte)
  /-- ISO_DELIVER, R582: At each U symbol boundary the receiver delivers one frame to its ring slot. -/
  | isoDeliver (n : Fin 16) (sfn : Fin 1024) (subframe : Fin 10) (slot : Fin 8) (sym : Fin 14)
  /-- RESYNC_REQ, R575: A RESYNC_REQ is answered with LAST_ACC. -/
  | resyncReq (src : Fin 64) (epoch : Fin 65536)
  /-- RESYNC_RSP, R575: A RESYNC_RSP confirms or re-issues unacknowledged operations. -/
  | resyncRsp (src : Fin 64) (status : Fin 65536) (last : Nat)
  /-- SKIP, R576: A SKIP sets LAST_ACC past abandoned operations. -/
  | skip (src : Fin 64) (epoch : Fin 65536) (last : Nat)
  /-- BYK_RESYNC_TIMEOUT, R576: RESYNC_MS without a route completes unresolved operations with LINK_LOST. -/
  | bykResyncTimeout (d : Fin 64)
  /-- RELAY_DONE, R137: A hop's RELAY_DONE report lets the feeding device write its final token. -/
  | relayDone (src : Fin 64) (seq : Nat) (epoch : Fin 65536) (plan hop : Nat) (status : Fin 65536) (relayStatus : Fin 65536) (relayHop : Fin 64)
  /-- BYK_TIME_EXCHANGE, R583: Sixteen times per second a time master sends TIME_SYNC. -/
  | bykTimeExchange (q : Fin 4)
  /-- TIME_SYNC, R583: A slave stamps TIME_SYNC and sends TIME_REQ. -/
  | timeSync (q : Fin 4) (t1 : Nat) (epoch : BitVec 64) (state : Fin 5) (hops : Fin 256) (turn : Nat)
  /-- TIME_REQ, R583: A master stamps TIME_REQ and returns TIME_RSP. -/
  | timeReq (q : Fin 4)
  /-- TIME_RSP, R583: A slave computes link delay and a phase-error sample. -/
  | timeRsp (q : Fin 4) (t4 : Nat)
  /-- RAIL_ENABLE_STEP, R590: A rail leaves fault and 100 µs later the sequencer enables the next rail. -/
  | railEnableStep
  /-- RAIL_START_TIMEOUT, R590: A rail not out of fault 5 ms after EN_ stops the sequence and lowers rails. -/
  | railStartTimeout
  /-- RAIL_RESTART_WAIT, R590: After 100 ms the sequencer restarts from VIO18, or holds off after the third failure. -/
  | railRestartWait
  /-- RAIL_FAULT, R610: A sequenced rail in fault while running or stopping triggers the emergency order. -/
  | railFault (rail : Fin 6)
  /-- VCORE_START_REACHED, R606: VCORE reaches 0.65 V and the controller enters REGULATING. -/
  | vcoreStartReached
  /-- VCORE_START_TIMEOUT, R606: 2 ms in STARTING turns phases off and writes EV_VRC_START_FAIL. -/
  | vcoreStartTimeout
  /-- PHASE_OPEN, R603: An open phase is taken out and I_LIM derated. -/
  | phaseOpen (phase : Option (Fin 12)) (amps : Fin 512)
  /-- PHASE_SENSE_FAIL, R602: A failed current sense switches that phase to the duty estimate and derates I_LIM. -/
  | phaseSenseFail (n : Fin 12) (amps : Fin 512)
  /-- PHASE_SHED, R599: Low per-phase current for 100 µs sheds the highest active phase. -/
  | phaseShed
  /-- PHASE_ADD, R599: High per-phase current or a Kick adds a shed phase. -/
  | phaseAdd
  /-- PHASE_SHARE_IMBALANCE, R600: A phase 25 % off the mean for 1 ms writes EV_VRC_SHARE. -/
  | phaseShareImbalance (n : Fin 12)
  /-- DROOP, R597: Voltage more than DROOP_MV below VSET for 10 ns raises the droop cause. -/
  | droop
  /-- DROOP_CLEAR, R597: Voltage within DROOP_MV / 2 for 1 µs clears the droop cause. -/
  | droopClear
  /-- CORE_HOLD, R598: Sense voltage below 0.50 V stops every core handshake within 10 ns. -/
  | coreHold (mv : Fin 500)
  /-- CORE_HOLD_RESUME, R598: Voltage at 0.53 V or more for 1 µs resumes every core domain. -/
  | coreHoldResume
  /-- CORE_HOLD_TIMEOUT, R598: A core hold lasting 100 µs starts an orderly fatal stop. -/
  | coreHoldTimeout
  /-- FORCED_PACE_STOP, R605: With two phases lost, the current cause for 1 ms at duty 1/4 causes an orderly fatal stop. -/
  | forcedPaceStop
  /-- POWER_DOWN_RAIL_STEP, R591: The sequencer deasserts the next rail after the previous PG_ falls or 200 µs. -/
  | powerDownRailStep
  /-- PWR_FAIL_ASSERT, R608: PWR_FAIL_N low for 1 µs stops Kicks, caps power at 12 W and admits no Heat. -/
  | pwrFailAssert
  /-- PWR_FAIL_LOG_FREEZE, R608: At t + 10 µs EV_PWR_FAIL is written, the log frozen and the dying gasp started. -/
  | pwrFailLogFreeze
  /-- PWR_FAIL_COMMIT_START, R608: At t + 50 µs the short black-box commit starts. -/
  | pwrFailCommitStart
  /-- DYING_GASP_WINDOW_END, R608: At t + 4 ms lasers go off and the power-down order starts. -/
  | dyingGaspWindowEnd
  /-- PWR_FAIL_RESTART, R609: PWR_FAIL_N high for 10 ms with VAON up restarts as a board reset. -/
  | pwrFailRestart
  /-- SMI_ADDRESS_MATCH, R628: An SMI address match is acknowledged and latched as a wake stimulus when enabled. -/
  | smiAddressMatch
  /-- WAKE_N_ASSERT, R620: WAKE_N held low for 10 µs by another agent is a wake stimulus. -/
  | wakeNAssert
  /-- PCIE_WAKE_ACTIVITY, R620: An L1.2 exit or a TLP to the device is a wake stimulus. -/
  | pcieWakeActivity
  /-- WAKE_AT_TIMER, R620: TK_NS reaching WAKE_AT is a wake stimulus and clears WAKE_AT. -/
  | wakeAtTimer
  /-- REST_EXIT, R623: A stimulus ends Rest, ungating blocks and serving waiting work. -/
  | restExit
  /-- BENCH_EXIT, R623: A stimulus ends Bench: VCORE starts, the Locker is restored and the Marshal starts in Pace. -/
  | benchExit (upset : Option (Nat × Byte))
  /-- SMI_WRITE_PHASE, R627: An SMI write phase delivers a command, checked for PEC. -/
  | smiWritePhase (cmd len : Byte) (data : List Byte) (pec : Option Byte)
  /-- SMI_READ_PHASE, R627: An SMI read phase returns the response to the last write phase, or BUSY. -/
  | smiReadPhase
  /-- SMI_STATUS, R627: SMI command returning state, wake cause, temperature and rail status. -/
  | smiStatus
  /-- SMI_WAKE, R627: SMI command that ends Rest as a work stimulus. -/
  | smiWake
  /-- SMI_RESIDENCY, R627: SMI command returning a state's residency counter. -/
  | smiResidency
  /-- SMI_EVENT, R627: SMI command returning one Photo-finish record. -/
  | smiEvent
  /-- COLD_START, R634: Power-on reset release starts rail sequencing and the first second. -/
  | coldStart
  /-- STRAP_LATCH, R640: Straps are latched 100 µs after VIO18 is good. -/
  | strapLatch (pins : BitVec 17)
  /-- BOARD_RESET, R636: SYS_RST_N low for 10 µs quiets outputs and restarts from VCORE start. -/
  | boardReset
  /-- PERST_N, R636: PERST_N low for 1 µs quiets outputs and restarts the Marshal. -/
  | perstN
  /-- HOT_RESET, R635: A PCIe hot reset or Link Disable runs the hot-reset sequence. -/
  | hotReset
  /-- SOFT_RESET, R638: Writing RST_CTL.SOFT in the PF runs the soft-reset sequence. -/
  | softReset (fn : Fin 8)
  /-- HOT_RESET_HEAT_DEADLINE, R635: A radio Heat still running 100 ms after a reset commits SLOT_MISSED. -/
  | hotResetHeatDeadline
  /-- MARSHAL_WATCHDOG, R637: The Marshal watchdog fires after 4 ms, starting a warm restart or a fatal stop. -/
  | marshalWatchdog
  /-- MARSHAL_START, R644: The Marshal starts from ROM, applies the board record and loads the patch table. -/
  | marshalStart (record : Option (List Byte)) (slot0 slot1 : List Byte)
  /-- THERMAL_TRIP, R654: A domain at or above the trip temperature for 1 ms is a fatal cause. -/
  | thermalTrip (d : Fin 15)
  /-- FATAL_STOP, R655: A fatal cause records EV_FATAL, quiets outputs, commits the black box, completes commands and dumps. -/
  | fatalStop (domain : Option Nat) (addr : BitVec 46)
  /-- FATAL_DUMP_BUDGET_EXPIRY, R655: 2 s after a dump-mode restart, unfinished steps 4 and 5 are skipped. -/
  | fatalDumpBudgetExpiry
  /-- BLACK_BOX_COMMIT_DONE, R667: A two-slot black-box commit ends with its marker page written. -/
  | blackBoxCommitDone
  /-- DUMP_DONE, R672: The dump is written to the host or flash region and its outcome recorded. -/
  | dumpDone (hostOk : Bool)
  /-- REGISTER_WRITE, R683: A BAR0 write to a register without its own row takes effect field by field under change classes. -/
  | registerWrite (fn : Fin 8) (off : Fin 65536) (value : BitVec 64) (wide isoMatch : Bool)
  /-- REG64_LOW_READ, R681: A read of a 64-bit register's low word latches its high word. -/
  | reg64LowRead (fn : Fin 8) (off : Fin 65536)
  /-- INT_TEST, R688: Writing INT_TEST with SEND sends the named vector once. -/
  | intTest (fn : Fin 8) (vector : Fin 128) (send : Bool)
  /-- ENTRY_COMMIT_POINT, R622: When the Rest or Bench entry steps have ended, the POWER_STATE completion is sent as the commit point and the state is entered. -/
  | entryCommitPoint (i2c : BitVec 2)
  /-- BASE_SETPOINT_SETTLED, R615: A Race-to-Pace or Pace-to-Race base slew settles and the POWER_STATE completes. -/
  | baseSetpointSettled
  /-- REF10M_QUALIFIED, R215: REF10M_IN returns within tolerance, REF10M_OK rises and the Timekeeper PLL takes TKCLK from it again. -/
  | ref10mQualified
  /-- SYSCLK_LOSS, R699: SYSCLK is lost while running and the VCORE controller moves to its VAON-domain backup oscillator. -/
  | sysclkLoss
  /-- VAON_LOSS, R615: VAON is lost and the device enters Off from any state. -/
  | vaonLoss
  /-- PERST_N_DEASSERT, R646: PERST_N deasserts, PCIe training starts and any WAKE_N drive from a Bench exit ends. -/
  | perstNDeassert
  /-- SYS_RST_N_DEASSERT, R640: SYS_RST_N deasserts, straps are latched and the board-reset start resumes. -/
  | sysRstNDeassert (pins : BitVec 17)
  /-- PCIE_LINK_UP, R645: PCIe link training completes and configuration requests are answered without CRS. -/
  | pcieLinkUp
  /-- BUS_MASTER_ENABLE_CLEAR, R458: A function's Bus Master Enable is cleared and its reads stop issuing and its writes are held. -/
  | busMasterEnableClear (fn : Fin 8)
  /-- VF_ENABLE_CLEAR, R465: The PF clears VF Enable and the device acts for each VF as for an FLR. -/
  | vfEnableClear
  /-- MSIX_VECTOR_UNMASK, R456: A masked vector or function mask is cleared and a pending PBA message is sent. -/
  | msixVectorUnmask (fn : Fin 8) (mask : BitVec 72) (fnMask : Bool)
  /-- ENTROPY_HEALTH_RECOVER, R422: The entropy health tests pass again and firmware may draw keys and answer Key_Control. -/
  | entropyHealthRecover
  /-- JESD_TX_LINK_UP, R237: A transmit link enters UP at the first LEMC boundary after activation (JESD204C) or when ILAS ends (JESD204B). -/
  | jesdTxLinkUp (c : Fin 4)
  /-- ASPM_L1_ENTRY, R629: After 8 µs with no traffic and ASPM L1 enabled, the device requests L1 or L1.2. -/
  | aspmL1Entry (l12 : Bool)
  /-- BOUNDARY_SCAN_INSTRUCTION, R702: A TAP instruction such as EXTEST, CLAMP or HIGHZ takes effect on the pins, or TRST_N holds the test logic in reset. -/
  | boundaryScanInstruction (i : Option (Fin 6))
deriving DecidableEq, Repr

end Sys2Proof
end

