-- ==== Sys2Proof/Decode.lean ====
section
/-! DEFINITION. Reading a command from a word of the table: the table gives no row any bits. -/

namespace Sys2Proof

/-- The command that a word spells by the table's bits: none, since no row of the table has bits
(notes/assumptions/1.md). -/
def decodeTableWord (_nbits _w : Nat) : Option Instr := none

end Sys2Proof
end

