-- ==== Sys2Proof/Config.lean ====
section
/-! DEFINITION. What one implementation fixes and the spec leaves open: constants with no body, so that no proof can see a
value of them (notes/assumptions/2.md). -/

namespace Sys2Proof.Config

/-- The free value number `n` of kind `tag`: the step reads the counter `State.free` and advances it. -/
opaque freeValue (tag n : Nat) : Nat

/-- The unique die identity held in fuses (ID_DIE, Table REG-3). -/
opaque dieId : Nat

/-- The ordering code held in fuses (ID_REV.ORDER, Table REG-3): only its low bit is used. -/
opaque orderFuse : Nat

/-- The digest of the ROM's Avben public key check: whether an ECDSA P-384 signature over the bytes verifies (R675). -/
opaque ecdsaOk (body sig : List Byte) : Bool

/-- Row `row` of base graph 1 (`false`) or 2 (`true`) of TS 38.212 5.3.2 at a lifting size: the columns, ascending, and their shifts. -/
opaque ldpcRow (bg2 : Bool) (z row : Nat) : List (Nat × Nat)

/-- Values of the receive and transmit tracks whose arithmetic the spec does not fix to the bit (Table TRK-2, R273): value `i` of
kind `tag`, a function of everything the stage reads. -/
opaque trackValue (tag : Nat) (inputs : List Nat) (i : Nat) : Nat

/-- The output of the polar encoder and the list decoder (TS 38.212 5.3.1, R308): byte `i` for a request and its input. -/
opaque polarByte (request input : List Byte) (i : Nat) : Byte

/-- The initial counter block of an upstream XGEM frame, built by the TC recommendation from the burst's start and the frame's
place in it (R319). -/
opaque xgemIcb (start place : Nat) : List Nat

/-- Byte `i` of a dump section whose layout the spec does not give (Table FLT-7): a function of what the section reports. -/
opaque dumpByte (section_ : Nat) (content : List Nat) (i : Nat) : Byte

/-- The asymmetry constant of a Byklink port, in nanoseconds, held in fuses (R583). -/
opaque bykAsymmetry (port : Nat) : Int

/-- Byte `i` of the 64-byte label of an isochronous frame, whose layout the spec does not give (R582): a function of the frame's NR time, its
sequence number and its REPEAT flag. -/
opaque isoLabel (label : List Nat) (seq : Nat) (again : Bool) (i : Nat) : Byte

end Sys2Proof.Config
end

