-- ==== Sys2Proof/Machine/Codes.lean ====
section
/-! DEFINITION. The shared status codes (Table SCP-3, R14) and the event codes of the Photo-finish log (Table FLT-5). -/

namespace Sys2Proof.Machine

/-! Status codes of Table SCP-3. -/
namespace Sc
def ok : Nat := 0x0000
def okFallback : Nat := 0x0001
def badOpcode : Nat := 0x0002
def badField : Nat := 0x0003
def cfgBusy : Nat := 0x0004
def poolQuota : Nat := 0x0005
def poolEmpty : Nat := 0x0006
def poolNotOwner : Nat := 0x0007
def poolDoubleFree : Nat := 0x0008
def slotMissed : Nat := 0x0009
def hostReadTimeout : Nat := 0x000A
def hostWriteFailed : Nat := 0x000B
def linkLost : Nat := 0x000C
def fenceRequired : Nat := 0x000D
def dataLost : Nat := 0x000E
def notReady : Nat := 0x000F
def ponNotOperating : Nat := 0x0010
def opticRejected : Nat := 0x0011
def ciphLocked : Nat := 0x0012
def ciphLength : Nat := 0x0013
def sigInvalid : Nat := 0x0014
def powerLimit : Nat := 0x0015
def aborted : Nat := 0x0016
def resetLost : Nat := 0x0017
def fatal : Nat := 0x0018
end Sc

/-- A Photo-finish event: its code and severity (Table FLT-5, R664). -/
structure Ev where
  code : Nat
  sev : Nat
deriving DecidableEq, Repr

/-! The events of Table FLT-5. -/
namespace Ev
def PACER_LATE_RISK : Ev := ⟨0x0100, 1⟩
def SPLIT_FAULT : Ev := ⟨0x0101, 2⟩
def LANE_FAULT : Ev := ⟨0x0200, 2⟩
def LANE_HELD : Ev := ⟨0x0201, 2⟩
def LANE_RESET : Ev := ⟨0x0202, 0⟩
def STR_ECC : Ev := ⟨0x0300, 2⟩
def MEM_UE : Ev := ⟨0x0301, 2⟩
def POOL_NOT_OWNER : Ev := ⟨0x0302, 1⟩
def POOL_DOUBLE_FREE : Ev := ⟨0x0303, 1⟩
def POOL_RETIRE : Ev := ⟨0x0304, 1⟩
def POOL_LOW : Ev := ⟨0x0305, 1⟩
def TK_LOCK : Ev := ⟨0x0400, 0⟩
def TK_SRC : Ev := ⟨0x0401, 0⟩
def TK_HOLDOVER : Ev := ⟨0x0402, 1⟩
def TK_UNLOCK : Ev := ⟨0x0403, 1⟩
def TK_HOLD_EXPIRED : Ev := ⟨0x0404, 2⟩
def TK_STEP : Ev := ⟨0x0405, 1⟩
def TK_STEP_PEND : Ev := ⟨0x0406, 1⟩
def JESD_MARGIN : Ev := ⟨0x0500, 1⟩
def JESD_FAIL : Ev := ⟨0x0501, 1⟩
def JESD_FAULT : Ev := ⟨0x0502, 2⟩
def JESD_UP : Ev := ⟨0x0503, 0⟩
def JESD_ILAS : Ev := ⟨0x0504, 2⟩
def JESD_DOWN : Ev := ⟨0x0505, 2⟩
def TX_MUTE : Ev := ⟨0x0506, 2⟩
def TX_UNMUTE : Ev := ⟨0x0507, 0⟩
def COD_FAULT : Ev := ⟨0x0600, 2⟩
def COD_HELD : Ev := ⟨0x0601, 2⟩
def PON_STATE : Ev := ⟨0x0700, 0⟩
def PON_O7 : Ev := ⟨0x0701, 2⟩
def PON_MIC : Ev := ⟨0x0702, 1⟩
def PON_DEF_SET : Ev := ⟨0x0703, 2⟩
def PON_DEF_CLR : Ev := ⟨0x0704, 0⟩
def PON_AUTO : Ev := ⟨0x0705, 0⟩
def BND_DEGRADED : Ev := ⟨0x0800, 2⟩
def BND_RESTORED : Ev := ⟨0x0801, 0⟩
def FRT_ALARM : Ev := ⟨0x0802, 2⟩
def FRT_CLEAR : Ev := ⟨0x0803, 0⟩
def OPT_INSERT : Ev := ⟨0x0900, 0⟩
def OPT_ACCEPT : Ev := ⟨0x0901, 0⟩
def OPT_REJECT : Ev := ⟨0x0902, 1⟩
def OPT_FAULT : Ev := ⟨0x0903, 2⟩
def OPT_REMOVE : Ev := ⟨0x0904, 1⟩
def OPT_LEDGER : Ev := ⟨0x0905, 1⟩
def OPT_EOL_WARN : Ev := ⟨0x0906, 1⟩
def OPT_EOL : Ev := ⟨0x0907, 2⟩
def CIPH_LEASE : Ev := ⟨0x0A00, 1⟩
def CIPH_NOKEK : Ev := ⟨0x0A01, 1⟩
def CIPH_RNG_FAIL : Ev := ⟨0x0A02, 2⟩
def RING_FAULT : Ev := ⟨0x0B00, 2⟩
def RING_CQ_FULL : Ev := ⟨0x0B01, 1⟩
def PCIE_CPL_FAIL : Ev := ⟨0x0B02, 2⟩
def PCIE_LATE_CPL : Ev := ⟨0x0B03, 1⟩
def PCIE_DOWN : Ev := ⟨0x0B04, 2⟩
def PCIE_RESUME : Ev := ⟨0x0B05, 0⟩
def SYN_FENCE_REQ : Ev := ⟨0x0C00, 1⟩
def SYN_WAIT_TMO : Ev := ⟨0x0C01, 2⟩
def SYN_BREAK : Ev := ⟨0x0C02, 2⟩
def BYK_UP : Ev := ⟨0x0D00, 0⟩
def BYK_DOWN : Ev := ⟨0x0D01, 2⟩
def BYK_FAULT : Ev := ⟨0x0D02, 2⟩
def BYK_NOT_READY : Ev := ⟨0x0D03, 0⟩
def BYK_LATE_RESOLVE : Ev := ⟨0x0D04, 1⟩
def BYK_BLOCK_REFUSED : Ev := ⟨0x0D05, 1⟩
def PH_OPEN : Ev := ⟨0x0E00, 2⟩
def PH_SENSE : Ev := ⟨0x0E01, 2⟩
def VRC_FORCED_PACE : Ev := ⟨0x0E02, 2⟩
def VRC_CORE_HOLD : Ev := ⟨0x0E03, 2⟩
def VRC_SHARE : Ev := ⟨0x0E04, 1⟩
def VRC_START_FAIL : Ev := ⟨0x0E05, 2⟩
def RAIL_FAULT : Ev := ⟨0x0E06, 3⟩
def PWR_FAIL : Ev := ⟨0x0E07, 3⟩
def PWR_EMERG_PRIOR : Ev := ⟨0x0E08, 2⟩
def PST_ENTER : Ev := ⟨0x0F00, 0⟩
def PST_EXIT : Ev := ⟨0x0F01, 0⟩
def PST_CANCEL : Ev := ⟨0x0F02, 0⟩
def LOCKER_BAD : Ev := ⟨0x0F03, 2⟩
def PM_TCA : Ev := ⟨0x1000, 1⟩
def PM_TCA_CLR : Ev := ⟨0x1001, 0⟩
def RESET : Ev := ⟨0x1100, 0⟩
def WDOG_RESTART : Ev := ⟨0x1101, 2⟩
def BOOT_RECORD_BAD : Ev := ⟨0x1102, 2⟩
def SELF_TEST_FAIL : Ev := ⟨0x1103, 2⟩
def FATAL : Ev := ⟨0x1104, 3⟩
def LOG_THAW : Ev := ⟨0x1105, 0⟩
def BB_RESTORED : Ev := ⟨0x1106, 0⟩
def BB_SKIPPED : Ev := ⟨0x1107, 2⟩
def DUMP_DONE : Ev := ⟨0x1108, 0⟩
def DUMP_FAIL : Ev := ⟨0x1109, 2⟩
def PATCH_REJECT : Ev := ⟨0x110A, 1⟩
end Ev

end Sys2Proof.Machine
end

