-- ==== Sys2Proof/Machine/Bits.lean ====
section
/-! DEFINITION. Bit fields, byte order (R8), sign extension, wrapping and saturating counters, and the keyed store in
one canonical form that memory, registers and counters share. -/

namespace Sys2Proof.Machine

/-- Bits [lsb + width − 1 : lsb] of a number. -/
def bitsOf (v lsb width : Nat) : Nat := (v >>> lsb) % 2 ^ width

/-- One bit of a number. -/
def bitAt (v i : Nat) : Bool := v.testBit i

/-- `v` with bit `i` set. -/
def setBit (v i : Nat) : Nat := v ||| 1 <<< i

/-- `v` with bit `i` cleared. -/
def clearBit (v i : Nat) : Nat := if v.testBit i then v - 2 ^ i else v

/-- `v` with bit `i` at `b`. -/
def putBit (v i : Nat) (b : Bool) : Nat := if b then setBit v i else clearBit v i

/-- Little-endian bytes as a number (R8). -/
def leNat : List Byte → Nat
  | [] => 0
  | b :: bs => b.toNat + 256 * leNat bs

/-- The low `n` bytes of a number, little-endian (R8). -/
def leBytes : Nat → Nat → List Byte
  | 0, _ => []
  | n + 1, v => BitVec.ofNat 8 v :: leBytes n (v / 256)

/-- Big-endian bytes as a number. -/
def beNat (bs : List Byte) : Nat := bs.foldl (fun a b => a * 256 + b.toNat) 0

/-- The low `n` bytes of a number, big-endian. -/
def beBytes (n v : Nat) : List Byte := (leBytes n v).reverse

/-- Bytes `off` to `off + len − 1` of a record. -/
def slice (r : List Byte) (off len : Nat) : List Byte := (r.drop off).take len

/-- A field of a record: `width` bits from bit `lsb` of the little-endian value at byte `off`. -/
def recF (r : List Byte) (off lsb width : Nat) : Nat :=
  bitsOf (leNat (slice r off ((lsb + width + 7) / 8))) lsb width

/-- A byte, a 16-bit, a 32-bit or a 64-bit field at byte `off`. -/
def rec8 (r : List Byte) (off : Nat) : Nat := leNat (slice r off 1)
def rec16 (r : List Byte) (off : Nat) : Nat := leNat (slice r off 2)
def rec32 (r : List Byte) (off : Nat) : Nat := leNat (slice r off 4)
def rec64 (r : List Byte) (off : Nat) : Nat := leNat (slice r off 8)

/-- Whether every byte of `r` from `off` for `len` bytes is 0 (a reserved field, R11). -/
def zeroAt (r : List Byte) (off len : Nat) : Bool := (slice r off len).all (· == 0)

/-- The two's complement value of the low `w` bits of `v`. -/
def sext (v w : Nat) : Int :=
  let m := v % 2 ^ w
  if m < 2 ^ (w - 1) then (m : Int) else (m : Int) - (2 ^ w : Nat)

/-- The low `w` bits of an integer in two's complement. -/
def toBits (v : Int) (w : Nat) : Nat := (v % ((2 ^ w : Nat) : Int)).toNat

/-- An integer clamped to the range of a signed field of `w` bits, in two's complement. -/
def satBits (v : Int) (w : Nat) : Nat :=
  let hi : Int := (2 ^ (w - 1) : Nat) - 1
  let lo : Int := -((2 ^ (w - 1) : Nat) : Int)
  toBits (if v > hi then hi else if v < lo then lo else v) w

/-- Division rounded up; 0 for a divisor of 0. -/
def ceilDiv (a b : Nat) : Nat := if b = 0 then 0 else (a + b - 1) / b

/-- The value that follows another in serial order over the nonzero values of 32 bits (R574). -/
def seqNext (v : Nat) : Nat := if v = 2 ^ 32 - 1 then 1 else v + 1

/-- Whether `a` is after `b` in that order (R574). -/
def seqAfter (a b : Nat) : Bool :=
  let d := (a + (2 ^ 32 - 1) - b) % (2 ^ 32 - 1)
  decide (1 ≤ d) && decide (d < 2 ^ 31)

/-- Whether `a` is ahead of `b` in serial order over `w` bits. -/
def serialAhead (a b w : Nat) : Bool :=
  let d := (a + 2 ^ w - b % 2 ^ w) % 2 ^ w
  0 < d && d < 2 ^ (w - 1)

/-- A list with the entry at `i` replaced by `f` of it; unchanged past the end. -/
def modAt {α : Type} (l : List α) (i : Nat) (f : α → α) : List α :=
  match l, i with
  | [], _ => []
  | a :: as, 0 => f a :: as
  | a :: as, k + 1 => a :: modAt as k f

/-- Entry `i` of a vector, the default past its end. -/
def vget {α : Type} [Inhabited α] {n : Nat} (v : Vector α n) (i : Nat) : α := v.toList.getD i default

/-- A vector with entry `i` replaced by `f` of it; unchanged past its end. -/
def vmod {α : Type} {n : Nat} (v : Vector α n) (i : Nat) (f : α → α) : Vector α n :=
  if h : i < n then v.set i (f v[i]) else v

/-- A vector with entry `i` replaced; unchanged past its end. -/
def vset {α : Type} {n : Nat} (v : Vector α n) (i : Nat) (a : α) : Vector α n := vmod v i (fun _ => a)

/-! The keyed store: pairs with keys strictly rising, no pair holding the default. -/

/-- The value at a key, `d` where no pair has it. -/
def Store.get {α : Type} (d : α) : List (Nat × α) → Nat → α
  | [], _ => d
  | (k, v) :: r, key => if k = key then v else Store.get d r key

/-- The store with every pair at `key` removed. -/
def Store.erase {α : Type} : List (Nat × α) → Nat → List (Nat × α)
  | [], _ => []
  | (k, v) :: r, key => if k = key then Store.erase r key else (k, v) :: Store.erase r key

/-- The store with `v` put at `key`, keys kept rising. -/
def Store.insert {α : Type} : List (Nat × α) → Nat → α → List (Nat × α)
  | [], key, v => [(key, v)]
  | (k, w) :: r, key, v =>
    if key < k then (key, v) :: (k, w) :: r
    else if key = k then (key, v) :: r
    else (k, w) :: Store.insert r key v

/-- A write: writing the default removes the pair. -/
def Store.put {α : Type} [DecidableEq α] (d : α) (s : List (Nat × α)) (key : Nat) (v : α) : List (Nat × α) :=
  if v = d then Store.erase s key else Store.insert s key v

/-- Keys strictly rising from `lo` on, no pair holding the default. -/
def Store.wfFrom {α : Type} [DecidableEq α] (d : α) (lo : Nat) : List (Nat × α) → Bool
  | [] => true
  | (k, v) :: r => decide (lo ≤ k) && decide (v ≠ d) && Store.wfFrom d (k + 1) r

/-- The canonical form of a store. -/
def Store.wf {α : Type} [DecidableEq α] (d : α) (s : List (Nat × α)) : Bool := Store.wfFrom d 0 s

end Sys2Proof.Machine
end

