-- ==== Sys2Proof/Machine/Registers.lean ====
section
/-! DEFINITION. The register fields of BAR0: one row per field of the register tables of the spec (Table REG-2 and the
tables it names), with its place, access type, reset value, survival class and change class. -/

namespace Sys2Proof.Machine

/-- Access types of Table SCP-1 (R9). -/
inductive Acc where
  | ro | rw | w1c | wo | rwl | rws
deriving DecidableEq, Repr

/-- Survival classes of Table REG-1. -/
inductive Keep where
  | none | warm | aon | func | key | sticky
deriving DecidableEq, Repr

/-- Change class of a writable field (Table REG-6): live, static with the condition that makes it busy, or shadowed
with its boundary. -/
inductive Chg where
  | live          -- takes effect at once (R690)
  | pacerEn       -- static while a Heat is in flight (Table HSF-6)
  | ceil          -- live, taking effect at the next refresh, never above the default (R50, R57)
  | tkNr          -- static while a carrier is active (R225)
  | tkSysref      -- static while a link is out of reset (R225)
  | sysrefFrame   -- shadowed to the 10 ms frame (R225)
  | taiSecond     -- shadowed to the TAI second (R225)
  | pmSecond      -- shadowed to the PM second (R350)
  | hqEn          -- ignored while HQ_CTL.EN = 1 (R466)
  | cap           -- live, taking effect at the next refresh (R613)
  | bykTopo       -- static while a port is enabled (R585)
  | iso           -- static while the channel's EN = 1 (R585)
  | isoEn         -- shadowed to the slot (R585)
deriving DecidableEq, Repr

/-- A register field, or a family of `count` like fields `stride` bytes apart. `perFn` marks the blocks that each
function holds for itself (INT and CIPH). -/
structure Fld where
  off : Nat
  stride : Nat
  count : Nat
  lsb : Nat
  width : Nat
  acc : Acc
  reset : Nat
  keep : Keep
  chg : Chg
  perFn : Bool
deriving DecidableEq, Repr

namespace R

/-- Table HSF-4: Period of the domain's unit, in 1/256 ps -/
def SPLIT_PERIOD_PERIOD : Fld := ⟨0x1200, 8, 15, 0, 24, .ro, 0, .none, .live, false⟩
/-- Table HSF-4: 1 when PERIOD holds a full-window measurement -/
def SPLIT_STAT_VALID : Fld := ⟨0x1204, 8, 15, 0, 1, .ro, 0, .none, .live, false⟩
/-- Table HSF-4: 1 when the count was implausible; see Edges and collisions -/
def SPLIT_STAT_FAULT : Fld := ⟨0x1204, 8, 15, 1, 1, .ro, 0, .none, .live, false⟩
/-- Table HSF-4: Brake level at window end: 0 none, 1 duty 3/4, 2 duty 1/2, 3 duty 1/4; always 0 for d ≥ 8 -/
def SPLIT_STAT_BRAKE_LEVEL : Fld := ⟨0x1204, 8, 15, 2, 2, .ro, 0, .none, .live, false⟩
/-- Table HSF-4: Refresh sequence number, modulo 256 -/
def SPLIT_STAT_SEQ : Fld := ⟨0x1204, 8, 15, 8, 8, .ro, 0, .none, .live, false⟩
/-- Table HSF-4: Domain junction temperature, signed, in 1/16 °C -/
def SPLIT_STAT_TJ : Fld := ⟨0x1204, 8, 15, 16, 16, .ro, 0, .none, .live, false⟩
/-- Table HSF-5: 1: Pacer active; 0: setpoint held at power-state base, no Kicks -/
def PACER_CTL_EN : Fld := ⟨0x1100, 0, 1, 0, 1, .rw, 1, .warm, .pacerEn, false⟩
/-- Table HSF-5: 1: split times take part in setpoint choice -/
def PACER_CTL_SPLIT_KICK : Fld := ⟨0x1100, 0, 1, 1, 1, .rw, 1, .warm, .live, false⟩
/-- Table HSF-5: Kick ceiling in Race (70 = 0.90 V) -/
def PACER_CTL_CEIL_RACE : Fld := ⟨0x1100, 0, 1, 4, 8, .rw, 70, .warm, .ceil, false⟩
/-- Table HSF-5: Kick ceiling in Pace (50 = 0.80 V) -/
def PACER_CTL_CEIL_PACE : Fld := ⟨0x1100, 0, 1, 12, 8, .rw, 50, .warm, .ceil, false⟩
/-- Table HSF-5: Fixed guard, in µs -/
def PACER_GUARD_G_FIXED : Fld := ⟨0x1104, 0, 1, 0, 8, .rw, 8, .warm, .live, false⟩
/-- Table HSF-5: Rate guard, in units of 0.5 % -/
def PACER_GUARD_G_RATE : Fld := ⟨0x1104, 0, 1, 8, 4, .rw, 4, .warm, .live, false⟩
/-- Table HSF-5: Setpoint in force, same code as ceilings -/
def PACER_STAT_VSET : Fld := ⟨0x1108, 0, 1, 0, 8, .ro, 50, .none, .live, false⟩
/-- Table HSF-5: 1 while a Kick is slewing or settling -/
def PACER_STAT_KICK : Fld := ⟨0x1108, 0, 1, 8, 1, .ro, 0, .none, .live, false⟩
/-- Table HSF-5: 1 when VCORE is within ±10 mV of VSET -/
def PACER_STAT_SETTLED : Fld := ⟨0x1108, 0, 1, 9, 1, .ro, 1, .none, .live, false⟩
/-- Table HSF-5: Highest Lane Brake level now in force -/
def PACER_STAT_BRAKE_LEVEL : Fld := ⟨0x1108, 0, 1, 10, 2, .ro, 0, .none, .live, false⟩
/-- Table HSF-5: [12] current, [13] power cap, [14] droop, [15] phase derate -/
def PACER_STAT_BRAKE_CAUSE : Fld := ⟨0x1108, 0, 1, 12, 4, .ro, 0, .none, .live, false⟩
/-- Table HSF-5: Number of in-flight Heats marked late-risk, 0 to 32 -/
def PACER_STAT_LATE_HEATS : Fld := ⟨0x1108, 0, 1, 16, 6, .ro, 0, .none, .live, false⟩
/-- Table HSF-5: 1: a write to a static field was refused -/
def PACER_STAT_CFG_REJ : Fld := ⟨0x1108, 0, 1, 31, 1, .w1c, 0, .none, .live, false⟩
/-- Table HSF-5: Kicks granted, wrapping -/
def PACER_KICK_CNT_KICKS : Fld := ⟨0x1110, 0, 1, 0, 32, .ro, 0, .none, .live, false⟩
/-- Table HSF-5: Late-risk markings, wrapping -/
def PACER_LATE_CNT_LATE : Fld := ⟨0x1114, 0, 1, 0, 32, .ro, 0, .none, .live, false⟩
/-- Table HSF-5: Total time with any Brake active, in ns -/
def PACER_BRAKE_NS_BRAKE_NS : Fld := ⟨0x1118, 0, 1, 0, 64, .ro, 0, .none, .live, false⟩
/-- Table LNE-8: Bit n = 1: Lane n may receive placement -/
def LANE_CTL_MASK : Fld := ⟨0x1040, 0, 1, 0, 8, .rw, 255, .warm, .live, false⟩
/-- Table LNE-8: 1: power-gate a Lane idle for 1 ms -/
def LANE_CTL_IDLE_GATE : Fld := ⟨0x1040, 0, 1, 8, 1, .rw, 1, .warm, .live, false⟩
/-- Table LNE-8: Writing 1 to bit n requests a lane reset of Lane n and releases a held Lane -/
def LANE_RST_LANE : Fld := ⟨0x0810, 0, 1, 0, 8, .wo, 0, .none, .live, false⟩
/-- Table LNE-8: 0 GATED, 1 IDLE, 2 BUSY, 3 FAULTED, 4 RESETTING -/
def LANE_STAT_STATE : Fld := ⟨0x3000, 4, 8, 0, 3, .ro, 0, .none, .live, false⟩
/-- Table LNE-8: 1: Lane held after its third fault within 1 s -/
def LANE_STAT_HELD : Fld := ⟨0x3000, 4, 8, 3, 1, .ro, 0, .none, .live, false⟩
/-- Table LNE-8: Last fault: 0 none, 1 watchdog, 2 accumulator parity, 3 staging parity, 4 residue, 5 lookup-table parity -/
def LANE_STAT_CAUSE : Fld := ⟨0x3000, 4, 8, 4, 4, .ro, 0, .none, .live, false⟩
/-- Table LNE-8: Slot of the bound Heat, 0 to 31 -/
def LANE_STAT_HEAT : Fld := ⟨0x3000, 4, 8, 8, 5, .ro, 0, .none, .live, false⟩
/-- Table LNE-8: 1: HEAT is valid -/
def LANE_STAT_BOUND : Fld := ⟨0x3000, 4, 8, 13, 1, .ro, 0, .none, .live, false⟩
/-- Table LNE-8: Lane faults since reset, wrapping -/
def LANE_STAT_FAULTS : Fld := ⟨0x3000, 4, 8, 24, 8, .ro, 0, .none, .live, false⟩
/-- Table STR-6: Transfers now admitted and not DONE -/
def STR_INFLIGHT_NOW : Fld := ⟨0x3040, 0, 1, 0, 13, .ro, 0, .none, .live, false⟩
/-- Table STR-6: Highest value of NOW since reset -/
def STR_INFLIGHT_PEAK : Fld := ⟨0x3040, 0, 1, 16, 13, .ro, 0, .none, .live, false⟩
/-- Table STR-6: Total time with any transfer in QUEUED, in ns -/
def STR_QUEUE_NS_QNS : Fld := ⟨0x3048, 0, 1, 0, 64, .ro, 0, .none, .live, false⟩
/-- Table STR-6: Chains now running, 0 to 4 -/
def BATON_STAT_ACTIVE : Fld := ⟨0x3050, 0, 1, 0, 3, .ro, 0, .none, .live, false⟩
/-- Table STR-6: Chains ended ABORTED, wrapping -/
def BATON_STAT_ABORTS : Fld := ⟨0x3050, 0, 1, 16, 16, .ro, 0, .none, .live, false⟩
/-- Table POL-10: Usable LPDDR5X capacity in MiB -/
def MEM_STAT_LP_MIB : Fld := ⟨0x3060, 0, 1, 0, 16, .ro, 0, .none, .live, false⟩
/-- Table POL-10: 0 none, 1 6400, 2 7500, 3 8533 MT/s -/
def MEM_STAT_LP_RATE : Fld := ⟨0x3060, 0, 1, 16, 2, .ro, 0, .none, .live, false⟩
/-- Table POL-10: 1: two ranks per channel -/
def MEM_STAT_LP_RANKS2 : Fld := ⟨0x3060, 0, 1, 18, 1, .ro, 0, .none, .live, false⟩
/-- Table POL-10: 1: LPDDR5X trained and usable -/
def MEM_STAT_TRAINED : Fld := ⟨0x3060, 0, 1, 19, 1, .ro, 0, .none, .live, false⟩
/-- Table POL-10: Infield correctable errors, saturating -/
def MEM_CE_INF : Fld := ⟨0x3064, 0, 1, 0, 16, .ro, 0, .none, .live, false⟩
/-- Table POL-10: LPDDR5X correctable errors, saturating -/
def MEM_CE_LP : Fld := ⟨0x3064, 0, 1, 16, 16, .ro, 0, .none, .live, false⟩
/-- Table POL-10: Infield uncorrectable errors, saturating -/
def MEM_UE_INF : Fld := ⟨0x3068, 0, 1, 0, 16, .ro, 0, .none, .live, false⟩
/-- Table POL-10: LPDDR5X uncorrectable errors, saturating -/
def MEM_UE_LP : Fld := ⟨0x3068, 0, 1, 16, 16, .ro, 0, .none, .live, false⟩
/-- Table POL-10: Local address of the latest uncorrectable word -/
def MEM_UE_ADDR_ADDR : Fld := ⟨0x3070, 0, 1, 0, 46, .ro, 0, .none, .live, false⟩
/-- Table POL-10: Buffers not FREE, 0 to 262,144 -/
def POOL_USE_NOW : Fld := ⟨0x3100, 16, 32, 0, 19, .ro, 0, .none, .live, false⟩
/-- Table POL-10: Highest NOW since configuration, 0 to 262,144 -/
def POOL_PEAK_PEAK : Fld := ⟨0x3104, 16, 32, 0, 19, .ro, 0, .none, .live, false⟩
/-- Table POL-10: POOL_QUOTA refusals, wrapping -/
def POOL_FAIL_QUOTA : Fld := ⟨0x3108, 16, 32, 0, 16, .ro, 0, .none, .live, false⟩
/-- Table POL-10: POOL_EMPTY refusals, wrapping -/
def POOL_FAIL_EMPTY : Fld := ⟨0x3108, 16, 32, 16, 16, .ro, 0, .none, .live, false⟩
/-- Table POL-10: POOL_NOT_OWNER refusals, wrapping -/
def POOL_MISUSE_NOT_OWNER : Fld := ⟨0x310C, 16, 32, 0, 16, .ro, 0, .none, .live, false⟩
/-- Table POL-10: POOL_DOUBLE_FREE refusals, wrapping -/
def POOL_MISUSE_DOUBLE_FREE : Fld := ⟨0x310C, 16, 32, 16, 16, .ro, 0, .none, .live, false⟩
/-- Table TKP-5: TK_NS [31:0]; a read latches under R206 -/
def TK_NS_LO_NS : Fld := ⟨0x1800, 0, 1, 0, 32, .ro, 0, .aon, .live, false⟩
/-- Table TKP-5: Latched TK_NS [63:32] -/
def TK_NS_HI_NS : Fld := ⟨0x1804, 0, 1, 0, 32, .ro, 0, .aon, .live, false⟩
/-- Table TKP-5: Latched fraction -/
def TK_FRAC_FRAC : Fld := ⟨0x1808, 0, 1, 0, 32, .ro, 0, .aon, .live, false⟩
/-- Table TKP-5: Free-running count -/
def LOCAL_NS_NS : Fld := ⟨0x1810, 0, 1, 0, 64, .ro, 0, .aon, .live, false⟩
/-- Table TKP-5: TAI ns at TK_NS = 0 -/
def EPOCH_TAI_TAI : Fld := ⟨0x1818, 0, 1, 0, 64, .ro, 0, .aon, .live, false⟩
/-- Table TKP-5: NR frame base, under R208 -/
def NR_BASE_BASE : Fld := ⟨0x1820, 0, 1, 0, 34, .rw, 0, .aon, .tkNr, false⟩
/-- Table TKP-5: Latched SFN -/
def TK_NR_SFN : Fld := ⟨0x1828, 0, 1, 0, 10, .ro, 0, .none, .live, false⟩
/-- Table TKP-5: Latched subframe -/
def TK_NR_SUBFRAME : Fld := ⟨0x1828, 0, 1, 10, 4, .ro, 0, .none, .live, false⟩
/-- Table TKP-5: Latched ns into the subframe -/
def TK_NR_SUB_NS : Fld := ⟨0x1828, 0, 1, 14, 20, .ro, 0, .none, .live, false⟩
/-- Table TKP-5: Source codes of Table TKP-1 -/
def TK_CTL_SRC1 : Fld := ⟨0x1830, 0, 1, 0, 4, .rw, 1, .warm, .live, false⟩
/-- Table TKP-5: Source codes of Table TKP-1 -/
def TK_CTL_SRC2 : Fld := ⟨0x1830, 0, 1, 4, 4, .rw, 3, .warm, .live, false⟩
/-- Table TKP-5: Source codes of Table TKP-1 -/
def TK_CTL_SRC3 : Fld := ⟨0x1830, 0, 1, 8, 4, .rw, 4, .warm, .live, false⟩
/-- Table TKP-5: Byklink port for source 4 -/
def TK_CTL_BYK_PORT : Fld := ⟨0x1830, 0, 1, 12, 2, .rw, 0, .warm, .live, false⟩
/-- Table TKP-5: Revertive selection -/
def TK_CTL_REVERT : Fld := ⟨0x1830, 0, 1, 14, 1, .rw, 1, .warm, .live, false⟩
/-- Table TKP-5: Steps permitted under R216 -/
def TK_CTL_STEP_EN : Fld := ⟨0x1830, 0, 1, 15, 1, .rw, 1, .warm, .live, false⟩
/-- Table TKP-5: 1: NR_BASE set by the host -/
def TK_CTL_NR_ALIGN : Fld := ⟨0x1830, 0, 1, 16, 1, .rw, 0, .warm, .tkNr, false⟩
/-- Table TKP-5: 0: 0.1 Hz; 1: 0.01 Hz; 2: 1 mHz; 3 reserved -/
def TK_CTL_LOOP_BW : Fld := ⟨0x1830, 0, 1, 17, 2, .rw, 0, .warm, .live, false⟩
/-- Table TKP-5: Lock limit, ns, 1 to 255 -/
def TK_LIMITS_LOCK_NS : Fld := ⟨0x1834, 0, 1, 0, 8, .rw, 50, .warm, .live, false⟩
/-- Table TKP-5: ppm, 1 to 100; other values read as 100 -/
def TK_LIMITS_MAX_SLEW : Fld := ⟨0x1834, 0, 1, 8, 8, .rw, 10, .warm, .live, false⟩
/-- Table TKP-5: STEP_NS in units of 100 ns, 1 to 10,000 -/
def TK_LIMITS_STEP : Fld := ⟨0x1834, 0, 1, 16, 16, .rw, 10, .warm, .live, false⟩
/-- Table TKP-5: Holdover budget, s -/
def TK_HOLD_HOLD_SEC : Fld := ⟨0x1838, 0, 1, 0, 16, .rw, 14400, .warm, .live, false⟩
/-- Table TKP-5: Qualification time, s -/
def TK_HOLD_QUAL_S : Fld := ⟨0x1838, 0, 1, 16, 8, .rw, 4, .warm, .live, false⟩
/-- Table TKP-5: Enable PPS_OUT -/
def TK_HOLD_PPS_EN : Fld := ⟨0x1838, 0, 1, 24, 1, .rw, 1, .warm, .taiSecond, false⟩
/-- Table TKP-5: Silence PPS_OUT in HOLD_EXPIRED -/
def TK_HOLD_PPS_SQUELCH : Fld := ⟨0x1838, 0, 1, 25, 1, .rw, 0, .warm, .taiSecond, false⟩
/-- Table TKP-5: Signed ns, −100,000 to +100,000 -/
def PPS_ADV_ADV : Fld := ⟨0x183C, 0, 1, 0, 32, .rw, 0, .warm, .taiSecond, false⟩
/-- Table TKP-5: 0 FREE, 1 ACQUIRING, 2 LOCKED, 3 HOLDOVER, 4 HOLD_EXPIRED -/
def TK_STAT_STATE : Fld := ⟨0x1840, 0, 1, 0, 3, .ro, 0, .none, .live, false⟩
/-- Table TKP-5: Source in use -/
def TK_STAT_SRC : Fld := ⟨0x1840, 0, 1, 3, 4, .ro, 0, .none, .live, false⟩
/-- Table TKP-5: EPOCH_TAI set -/
def TK_STAT_EPOCH_VALID : Fld := ⟨0x1840, 0, 1, 7, 1, .ro, 0, .aon, .live, false⟩
/-- Table TKP-5: A step waits under R216 -/
def TK_STAT_STEP_PEND : Fld := ⟨0x1840, 0, 1, 8, 1, .ro, 0, .none, .live, false⟩
/-- Table TKP-5: Under R215 -/
def TK_STAT_REF10M_OK : Fld := ⟨0x1840, 0, 1, 9, 1, .ro, 0, .none, .live, false⟩
/-- Table TKP-5: Master's STATE, for source 4 -/
def TK_STAT_UPSTREAM : Fld := ⟨0x1840, 0, 1, 10, 3, .ro, 0, .none, .live, false⟩
/-- Table TKP-5: A write was refused -/
def TK_STAT_CFG_REJ : Fld := ⟨0x1840, 0, 1, 31, 1, .w1c, 0, .none, .live, false⟩
/-- Table TKP-5: Last e, signed ns, saturating -/
def TK_PHASE_ERR_E : Fld := ⟨0x1844, 0, 1, 0, 32, .ro, 0, .none, .live, false⟩
/-- Table TKP-5: 0 off, 1 continuous, 2 gapped, 3 one-shot -/
def SYSREF_CTL_MODE : Fld := ⟨0x1850, 4, 4, 0, 2, .rw, 0, .warm, .sysrefFrame, false⟩
/-- Table TKP-5: Writing 1 starts MODE 2 or 3 -/
def SYSREF_CTL_ARM : Fld := ⟨0x1850, 4, 4, 2, 1, .wo, 0, .none, .live, false⟩
/-- Table TKP-5: Pulse width, TKCLK periods -/
def SYSREF_CTL_WIDTH : Fld := ⟨0x1850, 4, 4, 3, 8, .rw, 32, .warm, .sysrefFrame, false⟩
/-- Table TKP-5: Pulses in MODE 2 -/
def SYSREF_CTL_COUNT : Fld := ⟨0x1850, 4, 4, 11, 8, .rw, 8, .warm, .sysrefFrame, false⟩
/-- Table TKP-5: Period, TKCLK periods -/
def SYSREF_PER_PER : Fld := ⟨0x1860, 0, 1, 0, 24, .rw, 9830400, .warm, .tkSysref, false⟩
/-- Table RAD-7: 0 HELD, 1 SYNC, 2 ALIGN, 3 UP, 4 FAULTED -/
def RADIO_LINK_STAT_STATE : Fld := ⟨0x3400, 4, 8, 0, 3, .ro, 0, .none, .live, false⟩
/-- Table RAD-7: 1: JESD204B -/
def RADIO_LINK_STAT_MODE_B : Fld := ⟨0x3400, 4, 8, 3, 1, .ro, 0, .none, .live, false⟩
/-- Table RAD-7: Least arrival margin of R233, octets, receive only -/
def RADIO_LINK_STAT_MARGIN : Fld := ⟨0x3400, 4, 8, 8, 8, .ro, 0, .none, .live, false⟩
/-- Table RAD-7: Exits from UP, wrapping -/
def RADIO_LINK_STAT_DOWNS : Fld := ⟨0x3400, 4, 8, 16, 16, .ro, 0, .none, .live, false⟩
/-- Table RAD-7: CRC-12, disparity or not-in-table errors, saturating -/
def RADIO_ERR_ERR : Fld := ⟨0x3420, 4, 8, 0, 32, .ro, 0, .none, .live, false⟩
/-- Table RAD-7: Index in force at the RF input -/
def AGC_STAT_INDEX : Fld := ⟨0x3440, 4, 8, 0, 4, .ro, 15, .none, .live, false⟩
/-- Table RAD-7: 1: inside a frozen span -/
def AGC_STAT_FROZEN : Fld := ⟨0x3440, 4, 8, 4, 1, .ro, 0, .none, .live, false⟩
/-- Table RAD-7: 1: frozen by detection -/
def AGC_STAT_ED : Fld := ⟨0x3440, 4, 8, 5, 1, .ro, 0, .none, .live, false⟩
/-- Table RAD-7: Rises, wrapping -/
def AGC_STAT_ATTACKS : Fld := ⟨0x3440, 4, 8, 8, 8, .ro, 0, .none, .live, false⟩
/-- Table RAD-7: Falls, wrapping -/
def AGC_STAT_RELEASES : Fld := ⟨0x3440, 4, 8, 16, 8, .ro, 0, .none, .live, false⟩
/-- Table RAD-7: Frozen symbols with a sample at full scale, saturating -/
def AGC_STAT_CLIP_FROZEN : Fld := ⟨0x3440, 4, 8, 24, 8, .ro, 0, .none, .live, false⟩
/-- Table TRK-6: Classical decisions at the split time -/
def TRK_FB_E_FB_LATE : Fld := ⟨0x3500, 32, 4, 0, 16, .ro, 0, .none, .live, false⟩
/-- Table TRK-6: Classical decisions at the split time -/
def TRK_FB_Q_FB_LATE : Fld := ⟨0x3504, 32, 4, 0, 16, .ro, 0, .none, .live, false⟩
/-- Table TRK-6: Classical decisions at the split time -/
def TRK_FB_L_FB_LATE : Fld := ⟨0x3508, 32, 4, 0, 16, .ro, 0, .none, .live, false⟩
/-- Table TRK-6: Classical decisions for other causes -/
def TRK_FB_E_FB_NORUN : Fld := ⟨0x3500, 32, 4, 16, 16, .ro, 0, .none, .live, false⟩
/-- Table TRK-6: Classical decisions for other causes -/
def TRK_FB_Q_FB_NORUN : Fld := ⟨0x3504, 32, 4, 16, 16, .ro, 0, .none, .live, false⟩
/-- Table TRK-6: Classical decisions for other causes -/
def TRK_FB_L_FB_NORUN : Fld := ⟨0x3508, 32, 4, 16, 16, .ro, 0, .none, .live, false⟩
/-- Table TRK-6: Learned results discarded under R268 -/
def TRK_LATE_DISCARD_LATE_DISCARD : Fld := ⟨0x350C, 32, 4, 0, 32, .ro, 0, .none, .live, false⟩
/-- Table TRK-6: Uplink Heats committed SLOT_MISSED -/
def TRK_MISSED_UL_MISSED : Fld := ⟨0x3510, 32, 4, 0, 16, .ro, 0, .none, .live, false⟩
/-- Table TRK-6: Downlink Heats committed SLOT_MISSED -/
def TRK_MISSED_DL_MISSED : Fld := ⟨0x3510, 32, 4, 16, 16, .ro, 0, .none, .live, false⟩
/-- Table TRK-6: Uplink slots discarded under R259 -/
def TRK_NOHEAT_NOHEAT_UL : Fld := ⟨0x3514, 32, 4, 0, 16, .ro, 0, .none, .live, false⟩
/-- Table TRK-6: Blank slots with no Heat admitted -/
def TRK_NOHEAT_NOHEAT_DL : Fld := ⟨0x3514, 32, 4, 16, 16, .ro, 0, .none, .live, false⟩
/-- Table TRK-6: Jobs reported NOT_DECODED -/
def TRK_NOT_DEC_NOT_DECODED : Fld := ⟨0x3518, 32, 4, 0, 32, .ro, 0, .none, .live, false⟩
/-- Table TRK-6: Jobs with INVALID set -/
def TRK_INVALID_INVALID : Fld := ⟨0x351C, 32, 4, 0, 32, .ro, 0, .none, .live, false⟩
/-- Table COD-8: Bit d: decoder d not FREE -/
def COD_STAT_BUSY : Fld := ⟨0x3600, 0, 1, 0, 16, .ro, 0, .none, .live, false⟩
/-- Table COD-8: Bit d: decoder d LENT -/
def COD_STAT_LENT : Fld := ⟨0x3600, 0, 1, 16, 16, .ro, 0, .none, .live, false⟩
/-- Table COD-8: Bit d: decoder d reserved -/
def COD_RESV_RESERVED : Fld := ⟨0x3604, 0, 1, 0, 16, .ro, 0, .none, .live, false⟩
/-- Table COD-8: Bit d: decoder d HELD -/
def COD_RESV_HELD : Fld := ⟨0x3604, 0, 1, 16, 16, .ro, 0, .none, .live, false⟩
/-- Table COD-8: Radio codewords decoded -/
def COD_CW_CW : Fld := ⟨0x3608, 0, 1, 0, 32, .ro, 0, .none, .live, false⟩
/-- Table COD-8: Jobs with result DECODE_FAIL -/
def COD_FAIL_TB_CRC : Fld := ⟨0x360C, 0, 1, 0, 16, .ro, 0, .none, .live, false⟩
/-- Table COD-8: Codewords with ET_EN = 1 stopped at ITER_MAX -/
def COD_FAIL_ITER_CAP : Fld := ⟨0x360C, 0, 1, 16, 16, .ro, 0, .none, .live, false⟩
/-- Table COD-8: R296 misses -/
def COD_HARQ_HARQ_MISS : Fld := ⟨0x3610, 0, 1, 0, 16, .ro, 0, .none, .live, false⟩
/-- Table COD-8: R298 refusals -/
def COD_HARQ_HARQ_NOSB : Fld := ⟨0x3610, 0, 1, 16, 16, .ro, 0, .none, .live, false⟩
/-- Table COD-8: Radio codewords run on lent decoders -/
def COD_LENT_CW_LENT_CW : Fld := ⟨0x3614, 0, 1, 0, 32, .ro, 0, .none, .live, false⟩
/-- Table COD-8: Polar decodes -/
def COD_POLAR_DECODES : Fld := ⟨0x3618, 0, 1, 0, 16, .ro, 0, .none, .live, false⟩
/-- Table COD-8: Polar decodes with CRC_OK = 0 -/
def COD_POLAR_CRC_FAIL : Fld := ⟨0x3618, 0, 1, 16, 16, .ro, 0, .none, .live, false⟩
/-- Table COD-8: Decoder parity faults -/
def COD_FAULT_FAULTS : Fld := ⟨0x361C, 0, 1, 0, 16, .ro, 0, .none, .live, false⟩
/-- Table PON-9: 1 O1, 2 O2-3, 4 O4, 5 O5, 6 O6, 7 O7 -/
def PON_STAT_OSTATE : Fld := ⟨0x3700, 64, 2, 0, 4, .ro, 1, .none, .live, false⟩
/-- Table PON-9: Downstream synchronised -/
def PON_STAT_SYNC : Fld := ⟨0x3700, 64, 2, 4, 1, .ro, 0, .none, .live, false⟩
/-- Table PON-9: Laser permitted and on -/
def PON_STAT_LASER : Fld := ⟨0x3700, 64, 2, 5, 1, .ro, 0, .none, .live, false⟩
/-- Table PON-9: 0 ACTIVE_HELD, 1 ACTIVE_FREE, 2 LOW, 3 AWARE -/
def PON_STAT_PM : Fld := ⟨0x3700, 64, 2, 6, 2, .ro, 0, .none, .live, false⟩
/-- Table PON-9: Assigned ONU-ID -/
def PON_STAT_ONU_ID : Fld := ⟨0x3700, 64, 2, 8, 10, .ro, 0, .none, .live, false⟩
/-- Table PON-9: EqD in upstream bits -/
def PON_EQD_EQD : Fld := ⟨0x3704, 64, 2, 0, 32, .ro, 0, .none, .live, false⟩
/-- Table PON-9: Under R320 -/
def PON_DROP_REASM_DROP : Fld := ⟨0x3708, 64, 2, 0, 16, .ro, 0, .none, .live, false⟩
/-- Table PON-9: Under R320 -/
def PON_DROP_OVERSIZE : Fld := ⟨0x3708, 64, 2, 16, 16, .ro, 0, .none, .live, false⟩
/-- Table PON-9: Under R318 -/
def PON_FRAME_UNKNOWN_PORT : Fld := ⟨0x370C, 64, 2, 0, 16, .ro, 0, .none, .live, false⟩
/-- Table PON-9: Under R318 -/
def PON_FRAME_HEC_LOSS : Fld := ⟨0x370C, 64, 2, 16, 16, .ro, 0, .none, .live, false⟩
/-- Table PON-9: Under R319 -/
def PON_KEY_KEY_MISS : Fld := ⟨0x3710, 64, 2, 0, 16, .ro, 0, .none, .live, false⟩
/-- Table PON-9: Under R319 -/
def PON_KEY_ENC_REQ : Fld := ⟨0x3710, 64, 2, 16, 16, .ro, 0, .none, .live, false⟩
/-- Table PON-9: Under R338 -/
def PON_PLOAM_MIC_FAIL : Fld := ⟨0x3714, 64, 2, 0, 16, .ro, 0, .none, .live, false⟩
/-- Table PON-9: Under R337 -/
def PON_PLOAM_PLOAM_UNSUP : Fld := ⟨0x3714, 64, 2, 16, 16, .ro, 0, .none, .live, false⟩
/-- Table PON-9: Under R324 -/
def PON_BLOCK_BLOCK_DROP : Fld := ⟨0x3718, 64, 2, 0, 32, .ro, 0, .none, .live, false⟩
/-- Table DEF-4: Defects in DECLARED or LEAVING -/
def PON_DEF_DECLARED : Fld := ⟨0x3720, 64, 2, 0, 8, .ro, 0, .none, .live, false⟩
/-- Table DEF-4: Declared defects not suppressed -/
def PON_DEF_REPORTED : Fld := ⟨0x3720, 64, 2, 8, 8, .ro, 0, .none, .live, false⟩
/-- Table DEF-4: Remote defect indication being sent -/
def PON_DEF_RDI : Fld := ⟨0x3720, 64, 2, 16, 1, .ro, 0, .none, .live, false⟩
/-- Table DEF-4: Laser hold-off in force -/
def PON_DEF_LASER_HOLD : Fld := ⟨0x3720, 64, 2, 17, 1, .ro, 0, .none, .live, false⟩
/-- Table DEF-4: Defect became reported -/
def PON_DEF_CHG_SET : Fld := ⟨0x3724, 64, 2, 0, 8, .w1c, 0, .none, .live, false⟩
/-- Table DEF-4: Reported defect cleared -/
def PON_DEF_CHG_CLR : Fld := ⟨0x3724, 64, 2, 8, 8, .w1c, 0, .none, .live, false⟩
/-- Table DEF-4: 1: no vector 67 for that defect -/
def PON_DEF_CFG_IRQ_MASK : Fld := ⟨0x3728, 64, 2, 0, 8, .rw, 0, .warm, .live, false⟩
/-- Table DEF-4: Under R350 -/
def PON_DEF_CFG_SF_EXP : Fld := ⟨0x3728, 64, 2, 8, 4, .rw, 0, .warm, .pmSecond, false⟩
/-- Table DEF-4: Under R350 -/
def PON_DEF_CFG_SD_EXP : Fld := ⟨0x3728, 64, 2, 12, 4, .rw, 0, .warm, .pmSecond, false⟩
/-- Table DEF-4: 1: SD also starts remote defect indication -/
def PON_DEF_CFG_RDI_SD : Fld := ⟨0x3728, 64, 2, 16, 1, .rw, 0, .warm, .live, false⟩
/-- Table DEF-4: Codewords decoded, wrapping -/
def PON_FEC_CW_CW : Fld := ⟨0x372C, 64, 2, 0, 32, .ro, 0, .none, .live, false⟩
/-- Table DEF-4: Corrected bits under R349, wrapping -/
def PON_FEC_CORR_CORR : Fld := ⟨0x3730, 64, 2, 0, 32, .ro, 0, .none, .live, false⟩
/-- Table DEF-4: Uncorrectable codewords, wrapping -/
def PON_FEC_UNC_UNC : Fld := ⟨0x3734, 64, 2, 0, 32, .ro, 0, .none, .live, false⟩
/-- Table DEF-4: Granted bursts not sent, wrapping -/
def PON_BURST_SKIP_SKIP : Fld := ⟨0x3738, 64, 2, 0, 32, .ro, 0, .none, .live, false⟩
/-- Table DEF-4: Under R356 -/
def DEF_CTL_HOLD_TX : Fld := ⟨0x3780, 0, 1, 0, 1, .rw, 0, .warm, .live, false⟩
/-- Table DEF-4: A write was refused under R350 -/
def DEF_CTL_CFG_REJ : Fld := ⟨0x3780, 0, 1, 31, 1, .w1c, 0, .none, .live, false⟩
/-- Table BND-6: 0 OFF, 1 FORMING, 2 BONDED, 3 DEGRADED, 4 DOWN -/
def BND_STAT_STATE : Fld := ⟨0x3800, 0, 1, 0, 3, .ro, 0, .none, .live, false⟩
/-- Table BND-6: PON-A is a member -/
def BND_STAT_MEM_A : Fld := ⟨0x3800, 0, 1, 3, 1, .ro, 0, .none, .live, false⟩
/-- Table BND-6: PON-B is a member -/
def BND_STAT_MEM_B : Fld := ⟨0x3800, 0, 1, 4, 1, .ro, 0, .none, .live, false⟩
/-- Table BND-6: S, signed, in units of 10 ns -/
def BND_STAT_SKEW : Fld := ⟨0x3800, 0, 1, 16, 16, .ro, 0, .none, .live, false⟩
/-- Table BND-6: Under R373 -/
def BND_SEQ_SEQ_LOSS : Fld := ⟨0x3804, 0, 1, 0, 16, .ro, 0, .none, .live, false⟩
/-- Table BND-6: Under R373 -/
def BND_SEQ_LATE : Fld := ⟨0x3804, 0, 1, 16, 16, .ro, 0, .none, .live, false⟩
/-- Table BND-6: Entries to DEGRADED -/
def BND_EVT_DEGRADES : Fld := ⟨0x3808, 0, 1, 0, 16, .ro, 0, .none, .live, false⟩
/-- Table BND-6: Under R372 -/
def BND_EVT_SKEW_OOR : Fld := ⟨0x3808, 0, 1, 16, 16, .ro, 0, .none, .live, false⟩
/-- Table BND-6: Forced advances under R374 -/
def BND_FULL_STORE_FULL : Fld := ⟨0x380C, 0, 1, 0, 32, .ro, 0, .none, .live, false⟩
/-- Table BND-6: [0] LOSS, [1] AIS, [2] UNDERRUN -/
def FRT_STAT_ALARM : Fld := ⟨0x3840, 16, 16, 0, 3, .ro, 0, .none, .live, false⟩
/-- Table BND-6: FRT enabled -/
def FRT_STAT_EN : Fld := ⟨0x3840, 16, 16, 3, 1, .ro, 0, .none, .live, false⟩
/-- Table BND-6: Frames sent or received -/
def FRT_STAT_FRAMES : Fld := ⟨0x3840, 16, 16, 16, 16, .ro, 0, .none, .live, false⟩
/-- Table BND-6: Positive stuffs -/
def FRT_ADJ_PJ : Fld := ⟨0x3844, 16, 16, 0, 16, .ro, 0, .none, .live, false⟩
/-- Table BND-6: Negative stuffs -/
def FRT_ADJ_NJ : Fld := ⟨0x3844, 16, 16, 16, 16, .ro, 0, .none, .live, false⟩
/-- Table BND-6: Under R386 -/
def FRT_SLIP_SLIP_DROP : Fld := ⟨0x3848, 16, 16, 0, 16, .ro, 0, .none, .live, false⟩
/-- Table BND-6: Under R386 -/
def FRT_SLIP_SLIP_REPEAT : Fld := ⟨0x3848, 16, 16, 16, 16, .ro, 0, .none, .live, false⟩
/-- Table BND-6: Under R385 -/
def FRT_ERR_LOST : Fld := ⟨0x384C, 16, 16, 0, 16, .ro, 0, .none, .live, false⟩
/-- Table BND-6: Under R385 -/
def FRT_ERR_PTR_ERR : Fld := ⟨0x384C, 16, 16, 16, 8, .ro, 0, .none, .live, false⟩
/-- Table BND-6: Under R381, R384 and R385 -/
def FRT_ERR_OVERRUN : Fld := ⟨0x384C, 16, 16, 24, 8, .ro, 0, .none, .live, false⟩
/-- Table OPT-7: 0 EMPTY, 1 SETTLING, 2 IDENTIFY, 3 ACCEPTED, 4 REJECTED, 5 FAULT -/
def OPT_STAT_STATE : Fld := ⟨0x3980, 32, 2, 0, 3, .ro, 0, .none, .live, false⟩
/-- Table OPT-7: Reject reason of Table OPT-3; 0 none -/
def OPT_STAT_REASON : Fld := ⟨0x3980, 32, 2, 3, 3, .ro, 0, .none, .live, false⟩
/-- Table OPT-7: 0 normal, 1 EOL_WARN, 2 EOL -/
def OPT_STAT_WEAR : Fld := ⟨0x3980, 32, 2, 6, 2, .ro, 0, .none, .live, false⟩
/-- Table OPT-7: Ledger held in the mirror only -/
def OPT_STAT_LEDGER_RO : Fld := ⟨0x3980, 32, 2, 8, 1, .ro, 0, .none, .live, false⟩
/-- Table OPT-7: Accepted by override -/
def OPT_STAT_OVERRIDE : Fld := ⟨0x3980, 32, 2, 9, 1, .ro, 0, .none, .live, false⟩
/-- Table OPT-7: Power-level code driven -/
def OPT_STAT_LEVEL : Fld := ⟨0x3980, 32, 2, 10, 2, .ro, 0, .none, .live, false⟩
/-- Table OPT-7: Last one-second bias, 2 µA -/
def OPT_BIAS_NOW : Fld := ⟨0x3984, 32, 2, 0, 16, .ro, 0, .none, .live, false⟩
/-- Table OPT-7: BIAS_BASE -/
def OPT_BIAS_BASE : Fld := ⟨0x3984, 32, 2, 16, 16, .ro, 0, .none, .live, false⟩
/-- Table OPT-7: Ledger value -/
def OPT_LASER_LASER_ON_S : Fld := ⟨0x3988, 32, 2, 0, 32, .ro, 0, .none, .live, false⟩
/-- Table OPT-7: TX_FAULT assertions, wrapping -/
def OPT_FAULT_TXF : Fld := ⟨0x398C, 32, 2, 0, 16, .ro, 0, .none, .live, false⟩
/-- Table OPT-7: I2C failures, wrapping -/
def OPT_FAULT_I2C : Fld := ⟨0x398C, 32, 2, 16, 16, .ro, 0, .none, .live, false⟩
/-- Table CIP-6: Writing 1 requests the lock -/
def CIPH_LOCK_REQ : Fld := ⟨0x8004, 0, 1, 0, 1, .wo, 0, .none, .live, true⟩
/-- Table CIP-6: Writing 1 releases a lock this user holds -/
def CIPH_LOCK_REL : Fld := ⟨0x8004, 0, 1, 1, 1, .wo, 0, .none, .live, true⟩
/-- Table CIP-6: This user holds the lock -/
def CIPH_LOCK_HELD : Fld := ⟨0x8004, 0, 1, 2, 1, .ro, 0, .none, .live, true⟩
/-- Table CIP-6: Another user holds the lock -/
def CIPH_LOCK_BUSY : Fld := ⟨0x8004, 0, 1, 3, 1, .ro, 0, .none, .live, true⟩
/-- Table CIP-6: This user has a session open -/
def CIPH_LOCK_OPEN : Fld := ⟨0x8004, 0, 1, 4, 1, .ro, 0, .none, .live, true⟩
/-- Table CIP-6: User 0's page: holder when BUSY or HELD -/
def CIPH_LOCK_OWNER : Fld := ⟨0x8004, 0, 1, 5, 3, .ro, 0, .none, .live, true⟩
/-- Table CIP-6: 100 to 1,000,000 µs; other values read as 10,000 -/
def CIPH_LEASE_LEASE_US : Fld := ⟨0x8008, 0, 1, 0, 20, .rw, 10000, .key, .live, true⟩
/-- Table CIP-6: Key words 0 to 7 -/
def KEY_STAGE_WORD : Fld := ⟨0x8020, 4, 8, 0, 32, .wo, 0, .none, .live, true⟩
/-- Table CIP-6: Slot 0 to 15 -/
def KEY_CTL_SLOT : Fld := ⟨0x8040, 0, 1, 0, 4, .wo, 0, .none, .live, true⟩
/-- Table CIP-6: 0 AES-128, 1 AES-256 -/
def KEY_CTL_LEN : Fld := ⟨0x8040, 0, 1, 4, 1, .wo, 0, .none, .live, true⟩
/-- Table CIP-6: Table CIP-2 -/
def KEY_CTL_USAGE : Fld := ⟨0x8040, 0, 1, 5, 5, .wo, 0, .none, .live, true⟩
/-- Table CIP-6: Writing 1 commits under R415 -/
def KEY_CTL_COMMIT : Fld := ⟨0x8040, 0, 1, 10, 1, .wo, 0, .none, .live, true⟩
/-- Table CIP-6: Writing 1 erases under R417 -/
def KEY_CTL_ERASE : Fld := ⟨0x8040, 0, 1, 11, 1, .wo, 0, .none, .live, true⟩
/-- Table CIP-6: Slot holds a key -/
def KEY_STAT_VALID : Fld := ⟨0x8080, 4, 16, 0, 1, .ro, 0, .key, .live, true⟩
/-- Table CIP-6: As KEY_CTL -/
def KEY_STAT_LEN : Fld := ⟨0x8080, 4, 16, 1, 1, .ro, 0, .key, .live, true⟩
/-- Table CIP-6: As KEY_CTL -/
def KEY_STAT_USAGE : Fld := ⟨0x8080, 4, 16, 2, 5, .ro, 0, .key, .live, true⟩
/-- Table CIP-6: Key check value -/
def KEY_STAT_KCV : Fld := ⟨0x8080, 4, 16, 8, 24, .ro, 0, .key, .live, true⟩
/-- Table CIP-6: Leases expired, wrapping -/
def CIPH_STAT_LOCK_LOST : Fld := ⟨0x80C0, 0, 1, 0, 16, .ro, 0, .none, .live, true⟩
/-- Table CIP-6: A commit or erase was refused -/
def CIPH_STAT_CFG_REJ : Fld := ⟨0x80C0, 0, 1, 31, 1, .w1c, 0, .none, .live, true⟩
/-- Table HST-11: Ring 0 SQ bus address; [11:0] must be 0 -/
def HQ_SQ_BASE_BASE : Fld := ⟨0x0100, 0, 1, 0, 64, .rw, 0, .func, .hqEn, false⟩
/-- Table HST-11: Ring 0 CQ bus address; [11:0] must be 0 -/
def HQ_CQ_BASE_BASE : Fld := ⟨0x0108, 0, 1, 0, 64, .rw, 0, .func, .hqEn, false⟩
/-- Table HST-11: 2 to 1,024 entries -/
def HQ_SIZE_SQ_SIZE : Fld := ⟨0x0110, 0, 1, 0, 11, .rw, 0, .func, .hqEn, false⟩
/-- Table HST-11: 2 to 1,024 entries -/
def HQ_SIZE_CQ_SIZE : Fld := ⟨0x0110, 0, 1, 16, 11, .rw, 0, .func, .hqEn, false⟩
/-- Table HST-11: 1: bring up ring 0; 0: drain it -/
def HQ_CTL_EN : Fld := ⟨0x0114, 0, 1, 0, 1, .rw, 0, .func, .live, false⟩
/-- Table HST-11: Vector 0 enabled -/
def HQ_CTL_IRQ_EN : Fld := ⟨0x0114, 0, 1, 1, 1, .rw, 1, .func, .live, false⟩
/-- Table HST-11: Units of 10 ms, 1 to 255; 0 reads as 10 -/
def HQ_CTL_LINK_HOLD : Fld := ⟨0x0114, 0, 1, 8, 8, .rw, 10, .warm, .live, false⟩
/-- Table HST-11: Ring 0 ACTIVE -/
def HQ_STAT_READY : Fld := ⟨0x0118, 0, 1, 0, 1, .ro, 0, .none, .live, false⟩
/-- Table HST-11: EN refused, or ring 0 FAULTED -/
def HQ_STAT_FAULT : Fld := ⟨0x0118, 0, 1, 1, 1, .ro, 0, .none, .live, false⟩
/-- Table HST-11: 1 to 3 as Table HST-6; 4 invalid base or size -/
def HQ_STAT_CAUSE : Fld := ⟨0x0118, 0, 1, 4, 4, .ro, 0, .none, .live, false⟩
/-- Table HST-11: Under R451, for all functions, wrapping -/
def HQ_STAT_DB_FOREIGN : Fld := ⟨0x0118, 0, 1, 16, 16, .ro, 0, .none, .live, false⟩
/-- Table HST-11: Under R461, wrapping -/
def HQ_PCIE_LATE_CPL : Fld := ⟨0x0120, 0, 1, 0, 16, .ro, 0, .none, .live, false⟩
/-- Table HST-11: Failed reads under R459, wrapping -/
def HQ_PCIE_CPL_FAIL : Fld := ⟨0x0120, 0, 1, 16, 16, .ro, 0, .none, .live, false⟩
/-- Table SYN-5: Barrier timeout, 1 to 60,000 ms; 0 reads as 100 -/
def SYN_CTL_BAR_TMO_MS : Fld := ⟨0x3A00, 0, 1, 0, 16, .rw, 100, .warm, .live, false⟩
/-- Table SYN-5: Counters in FILLING -/
def SYN_STAT_FILLING : Fld := ⟨0x3A04, 0, 1, 0, 8, .ro, 0, .none, .live, false⟩
/-- Table SYN-5: Breaks, wrapping -/
def SYN_STAT_BREAKS : Fld := ⟨0x3A04, 0, 1, 16, 16, .ro, 0, .none, .live, false⟩
/-- Table SYN-5: Refusals under R549, wrapping -/
def SYN_CNT_FENCE_REQ : Fld := ⟨0x3A08, 0, 1, 0, 16, .ro, 0, .none, .live, false⟩
/-- Table SYN-5: WAITs failed under R544, wrapping -/
def SYN_CNT_WAIT_TMO : Fld := ⟨0x3A08, 0, 1, 16, 16, .ro, 0, .none, .live, false⟩
/-- Table SYN-5: 0 IDLE, 1 FILLING, 2 BROKEN -/
def SYN_BAR_STATE : Fld := ⟨0x3A40, 8, 128, 0, 2, .ro, 0, .none, .live, false⟩
/-- Table SYN-5: Generation -/
def SYN_BAR_GEN : Fld := ⟨0x3A40, 8, 128, 2, 8, .ro, 0, .none, .live, false⟩
/-- Table SYN-5: Arrivals in this generation -/
def SYN_BAR_COUNT : Fld := ⟨0x3A40, 8, 128, 10, 10, .ro, 0, .none, .live, false⟩
/-- Table SYN-5: Expected arrivals -/
def SYN_BAR_EXPECT : Fld := ⟨0x3A40, 8, 128, 32, 10, .ro, 0, .none, .live, false⟩
/-- Table BYK-8: Table BYK-2 -/
def BYK_CTL_TOPO : Fld := ⟨0x4000, 0, 1, 0, 2, .rw, 0, .warm, .bykTopo, false⟩
/-- Table BYK-8: x size: 2 to 63 as written; 0 means 64 for TOPO 1 and 2 (R559) -/
def BYK_CTL_DIM_X : Fld := ⟨0x4000, 0, 1, 2, 6, .rw, 0, .warm, .bykTopo, false⟩
/-- Table BYK-8: y size -/
def BYK_CTL_DIM_Y : Fld := ⟨0x4000, 0, 1, 8, 4, .rw, 1, .warm, .bykTopo, false⟩
/-- Table BYK-8: Bit q enables port q -/
def BYK_CTL_PORT_EN : Fld := ⟨0x4000, 0, 1, 12, 4, .rw, 0, .warm, .live, false⟩
/-- Table BYK-8: Bit q offers time on port q -/
def BYK_CTL_TIME_OFFER : Fld := ⟨0x4000, 0, 1, 16, 4, .rw, 0, .warm, .live, false⟩
/-- Table BYK-8: Writing 1 to bit q restarts a FAULTED port q -/
def BYK_CTL_LINK_RST : Fld := ⟨0x4000, 0, 1, 20, 4, .wo, 0, .none, .live, false⟩
/-- Table BYK-8: 10 to 60,000; other values read as 1,000 -/
def BYK_CFG_RESYNC_MS : Fld := ⟨0x4004, 0, 1, 0, 16, .rw, 1000, .warm, .live, false⟩
/-- Table BYK-8: Pool class for received blocks -/
def BYK_CFG_RX_CLASS : Fld := ⟨0x4004, 0, 1, 16, 5, .rw, 0, .warm, .live, false⟩
/-- Table BYK-8: Byklink-ready under R568 -/
def BYK_CFG_READY : Fld := ⟨0x4004, 0, 1, 30, 1, .ro, 0, .none, .live, false⟩
/-- Table BYK-8: A write was refused -/
def BYK_CFG_CFG_REJ : Fld := ⟨0x4004, 0, 1, 31, 1, .w1c, 0, .none, .live, false⟩
/-- Table BYK-8: Device identifier -/
def BYK_STAT_DEV : Fld := ⟨0x4008, 0, 1, 0, 6, .ro, 0, .none, .live, false⟩
/-- Table BYK-8: Epoch of R570 -/
def BYK_STAT_EPOCH : Fld := ⟨0x4008, 0, 1, 6, 16, .ro, 0, .none, .live, false⟩
/-- Table BYK-8: Forward carrier c under R578 -/
def BYK_FWD_EN : Fld := ⟨0x4010, 4, 4, 0, 1, .rw, 0, .warm, .live, false⟩
/-- Table BYK-8: Fibre-terminating device -/
def BYK_FWD_FWD_DEV : Fld := ⟨0x4010, 4, 4, 1, 6, .rw, 0, .warm, .live, false⟩
/-- Table BYK-8: Entry n, 0 to 15 -/
def BYK_PEER_VALID : Fld := ⟨0x4020, 4, 16, 0, 1, .rw, 0, .warm, .live, false⟩
/-- Table BYK-8: Sender and its carrier -/
def BYK_PEER_DEV : Fld := ⟨0x4020, 4, 16, 1, 6, .rw, 0, .warm, .live, false⟩
/-- Table BYK-8: Sender and its carrier -/
def BYK_PEER_CARRIER : Fld := ⟨0x4020, 4, 16, 7, 2, .rw, 0, .warm, .live, false⟩
/-- Table BYK-8: 0 PON-A, 1 PON-B -/
def BYK_PEER_PON : Fld := ⟨0x4020, 4, 16, 9, 1, .rw, 0, .warm, .live, false⟩
/-- Table BYK-8: Upstream KIND 3 XGEM entry -/
def BYK_PEER_ENTRY : Fld := ⟨0x4020, 4, 16, 10, 8, .rw, 0, .warm, .live, false⟩
/-- Table BYK-8: 0 DISABLED, 1 TRAINING, 2 ALIGN, 3 HELLO, 4 UP, 5 RETRAIN, 6 FAULTED -/
def BYK_PORT_STATE : Fld := ⟨0x4100, 64, 4, 0, 3, .ro, 0, .none, .live, false⟩
/-- Table BYK-8: FAULTED cause of Table BYK-6 -/
def BYK_PORT_CAUSE : Fld := ⟨0x4100, 64, 4, 3, 3, .ro, 0, .none, .live, false⟩
/-- Table BYK-8: Peer DEV -/
def BYK_PORT_PEER : Fld := ⟨0x4100, 64, 4, 6, 6, .ro, 0, .none, .live, false⟩
/-- Table BYK-8: Peer's READY -/
def BYK_PORT_PEER_READY : Fld := ⟨0x4100, 64, 4, 12, 1, .ro, 0, .none, .live, false⟩
/-- Table BYK-8: port counter -/
def BYK_PORT_FEC_CORR : Fld := ⟨0x4104, 64, 4, 0, 32, .ro, 0, .none, .live, false⟩
/-- Table BYK-8: port counter -/
def BYK_PORT_FEC_UNC : Fld := ⟨0x4108, 64, 4, 0, 32, .ro, 0, .none, .live, false⟩
/-- Table BYK-8: port counter -/
def BYK_PORT_CRC_ERR : Fld := ⟨0x410C, 64, 4, 0, 32, .ro, 0, .none, .live, false⟩
/-- Table BYK-8: port counter -/
def BYK_PORT_REPLAY : Fld := ⟨0x4110, 64, 4, 0, 32, .ro, 0, .none, .live, false⟩
/-- Table BYK-8: port counter -/
def BYK_PORT_RETRAIN : Fld := ⟨0x4114, 64, 4, 0, 32, .ro, 0, .none, .live, false⟩
/-- Table BYK-8: port counter -/
def BYK_PORT_RESYNC : Fld := ⟨0x4118, 64, 4, 0, 32, .ro, 0, .none, .live, false⟩
/-- Table BYK-8: port counter -/
def BYK_PORT_NOT_READY : Fld := ⟨0x411C, 64, 4, 0, 32, .ro, 0, .none, .live, false⟩
/-- Table BYK-8: port counter -/
def BYK_PORT_ISO_SLIP : Fld := ⟨0x4120, 64, 4, 0, 32, .ro, 0, .none, .live, false⟩
/-- Table BYK-8: Latest RETRY_US hint -/
def BYK_PORT_RETRY : Fld := ⟨0x4124, 64, 4, 0, 16, .ro, 0, .none, .live, false⟩
/-- Table BYK-8: Table BYK-7 -/
def BYK_ISO_EN : Fld := ⟨0x4200, 32, 16, 0, 1, .rw, 0, .warm, .isoEn, false⟩
/-- Table BYK-8: Table BYK-7 -/
def BYK_ISO_DIR : Fld := ⟨0x4200, 32, 16, 1, 1, .rw, 0, .warm, .iso, false⟩
/-- Table BYK-8: Table BYK-7 -/
def BYK_ISO_PORT : Fld := ⟨0x4200, 32, 16, 2, 2, .rw, 0, .warm, .iso, false⟩
/-- Table BYK-8: Table BYK-7 -/
def BYK_ISO_PEER_CH : Fld := ⟨0x4200, 32, 16, 4, 4, .rw, 0, .warm, .iso, false⟩
/-- Table BYK-8: Table BYK-7 -/
def BYK_ISO_CARRIER : Fld := ⟨0x4200, 32, 16, 8, 2, .rw, 0, .warm, .iso, false⟩
/-- Table BYK-8: Table BYK-7 -/
def BYK_ISO_START_PRB : Fld := ⟨0x4204, 32, 16, 0, 16, .rw, 0, .warm, .iso, false⟩
/-- Table BYK-8: Table BYK-7 -/
def BYK_ISO_N_PRB : Fld := ⟨0x4204, 32, 16, 16, 16, .rw, 0, .warm, .iso, false⟩
/-- Table BYK-8: Table BYK-7 -/
def BYK_ISO_ANT : Fld := ⟨0x4208, 32, 16, 0, 16, .rw, 0, .warm, .iso, false⟩
/-- Table BYK-8: Table BYK-7 -/
def BYK_ISO_SLOTS : Fld := ⟨0x4208, 32, 16, 16, 7, .rw, 0, .warm, .iso, false⟩
/-- Table BYK-8: Table BYK-7 -/
def BYK_ISO_DEPTH : Fld := ⟨0x4208, 32, 16, 23, 5, .rw, 0, .warm, .iso, false⟩
/-- Table BYK-8: Table BYK-7 -/
def BYK_ISO_RING_ADDR : Fld := ⟨0x420C, 32, 16, 0, 64, .rw, 0, .warm, .iso, false⟩
/-- Table BYK-8: Table BYK-7 -/
def BYK_ISO_CTRL_ADDR : Fld := ⟨0x4214, 32, 16, 0, 64, .rw, 0, .warm, .iso, false⟩
/-- Table BYK-8: wrapping -/
def BYK_ISO_DROP : Fld := ⟨0x421C, 32, 16, 0, 16, .ro, 0, .none, .live, false⟩
/-- Table BYK-8: wrapping -/
def BYK_ISO_REPEAT : Fld := ⟨0x421C, 32, 16, 16, 16, .ro, 0, .none, .live, false⟩
/-- Table PWD-5: Bit set: rail in range. 0 VIO18, 1 VPLL, 2 VDD2H, 3 VDDQ, 4 VRIM, 5 VCORE -/
def PWR_RAIL_OK : Fld := ⟨0x1000, 0, 1, 0, 6, .ro, 0, .none, .live, false⟩
/-- Table PWD-5: PWR_FAIL_N asserted -/
def PWR_RAIL_PWR_FAIL : Fld := ⟨0x1000, 0, 1, 6, 1, .ro, 0, .none, .live, false⟩
/-- Table PWD-5: An emergency order was recorded before this start -/
def PWR_RAIL_PRIOR_EMERG : Fld := ⟨0x1000, 0, 1, 7, 1, .w1c, 0, .aon, .live, false⟩
/-- Table PWD-5: Rail that faulted, same bit order as OK -/
def PWR_RAIL_PRIOR_RAIL : Fld := ⟨0x1000, 0, 1, 8, 6, .ro, 0, .aon, .live, false⟩
/-- Table PWD-5: Power cap in 0.25 W, 80 to 340; other values are ignored -/
def PWR_CAP_CAP : Fld := ⟨0x1004, 0, 1, 0, 9, .rw, 280, .warm, .cap, false⟩
/-- Table PWD-5: N under R592 -/
def VRC_CFG_PH_CNT : Fld := ⟨0x1400, 0, 1, 0, 4, .ro, 0, .aon, .live, false⟩
/-- Table PWD-5: 0 600 kHz, 1 800 kHz, 2 1,000 kHz, 3 1,200 kHz -/
def VRC_CFG_FSW : Fld := ⟨0x1400, 0, 1, 4, 2, .rwl, 1, .aon, .live, false⟩
/-- Table PWD-5: Rated phase current, A, 10 to 63 -/
def VRC_CFG_PH_RATED : Fld := ⟨0x1400, 0, 1, 6, 6, .rwl, 40, .aon, .live, false⟩
/-- Table PWD-5: Phase shedding under R599 -/
def VRC_CFG_SHED_EN : Fld := ⟨0x1400, 0, 1, 12, 1, .rw, 1, .aon, .live, false⟩
/-- Table PWD-5: Fewest active phases, 2 to N -/
def VRC_CFG_PH_MIN : Fld := ⟨0x1400, 0, 1, 13, 4, .rw, 4, .aon, .live, false⟩
/-- Table PWD-5: Droop threshold, mV, 10 to 63 -/
def VRC_CFG_DROOP_MV : Fld := ⟨0x1400, 0, 1, 17, 6, .rw, 30, .aon, .live, false⟩
/-- Table PWD-5: Writing 1 sets the latch -/
def VRC_CFG_LATCH : Fld := ⟨0x1400, 0, 1, 31, 1, .rwl, 0, .aon, .live, false⟩
/-- Table PWD-5: Sustained limit, A, 20 to 110 -/
def VRC_LIM_ICC_MAX : Fld := ⟨0x1404, 0, 1, 0, 7, .rwl, 110, .aon, .live, false⟩
/-- Table PWD-5: Sense-point voltage, mV -/
def VRC_STAT_VOUT : Fld := ⟨0x1408, 0, 1, 0, 10, .ro, 0, .none, .live, false⟩
/-- Table PWD-5: Summed current, A -/
def VRC_STAT_IOUT : Fld := ⟨0x1408, 0, 1, 10, 9, .ro, 0, .none, .live, false⟩
/-- Table PWD-5: Bit n: phase n active -/
def VRC_STAT_ACTIVE : Fld := ⟨0x1408, 0, 1, 19, 12, .ro, 0, .none, .live, false⟩
/-- Table PWD-5: Bit n: phase n open -/
def VRC_FLT_LOST : Fld := ⟨0x140C, 0, 1, 0, 12, .ro, 0, .none, .live, false⟩
/-- Table PWD-5: Bit n: phase n on the duty-based estimate -/
def VRC_FLT_SENSE_FB : Fld := ⟨0x140C, 0, 1, 12, 12, .ro, 0, .none, .live, false⟩
/-- Table PWD-5: 0 OFF, 1 STARTING, 2 REGULATING, 3 DERATED, 4 FORCED_PACE, 5 STOPPING -/
def VRC_FLT_STATE : Fld := ⟨0x140C, 0, 1, 24, 3, .ro, 0, .none, .live, false⟩
/-- Table PWD-5: Phase current, 0.5 A units, as used in sums -/
def VRC_PH_I : Fld := ⟨0x1440, 4, 12, 0, 8, .ro, 0, .none, .live, false⟩
/-- Table PWD-5: Duty, 1/256 -/
def VRC_PH_DUTY : Fld := ⟨0x1440, 4, 12, 8, 8, .ro, 0, .none, .live, false⟩
/-- Table PWD-5: 0 active, 1 shed, 2 lost, 3 not fitted -/
def VRC_PH_PST : Fld := ⟨0x1440, 4, 12, 16, 2, .ro, 3, .none, .live, false⟩
/-- Table PST-7: Bit per source of Table PST-3 -/
def PST_CTL_WAKE_MASK : Fld := ⟨0x1300, 0, 1, 0, 4, .rw, 7, .aon, .live, false⟩
/-- Table PST-7: 0 Race, 1 Pace, 2 Rest -/
def PST_STAT_STATE : Fld := ⟨0x1304, 0, 1, 0, 2, .ro, 0, .none, .live, false⟩
/-- Table PST-7: A Rest or Bench entry is before its commit point -/
def PST_STAT_ENTRY_PEND : Fld := ⟨0x1304, 0, 1, 2, 1, .ro, 0, .none, .live, false⟩
/-- Table PST-7: Under R620 -/
def PST_STAT_WAKE_PEND : Fld := ⟨0x1304, 0, 1, 3, 1, .ro, 0, .aon, .live, false⟩
/-- Table PST-7: Last wake causes; bit 8 Work -/
def PST_STAT_CAUSE : Fld := ⟨0x1304, 0, 1, 4, 5, .w1c, 0, .aon, .live, false⟩
/-- Table PST-7: Forced to Pace under R605 -/
def PST_STAT_FORCED : Fld := ⟨0x1304, 0, 1, 9, 1, .ro, 0, .none, .live, false⟩
/-- Table PST-7: Wake time in TK_NS; 0 none -/
def WAKE_AT_AT : Fld := ⟨0x1308, 0, 1, 0, 64, .rw, 0, .aon, .live, false⟩
/-- Table PST-7: Under R630 -/
def RES_RACE_US : Fld := ⟨0x1310, 0, 1, 0, 64, .ro, 0, .aon, .live, false⟩
/-- Table PST-7: Under R630 -/
def RES_PACE_US : Fld := ⟨0x1318, 0, 1, 0, 64, .ro, 0, .aon, .live, false⟩
/-- Table PST-7: Under R630 -/
def RES_REST_US : Fld := ⟨0x1320, 0, 1, 0, 64, .ro, 0, .aon, .live, false⟩
/-- Table PST-7: Under R630 -/
def RES_BENCH_US : Fld := ⟨0x1328, 0, 1, 0, 64, .ro, 0, .aon, .live, false⟩
/-- Table PST-7: Target address -/
def SMI_CTL_ADDR : Fld := ⟨0x1C00, 0, 1, 0, 7, .ro, 0, .aon, .live, false⟩
/-- Table PST-7: Packet error codes -/
def SMI_CTL_PEC_EN : Fld := ⟨0x1C00, 0, 1, 7, 1, .rw, 0, .aon, .live, false⟩
/-- Table PST-7: Commands answered, wrapping -/
def SMI_STAT_CMDS : Fld := ⟨0x1C04, 0, 1, 0, 16, .ro, 0, .none, .live, false⟩
/-- Table PST-7: Write phases discarded, wrapping -/
def SMI_STAT_PEC_ERR : Fld := ⟨0x1C04, 0, 1, 16, 8, .ro, 0, .none, .live, false⟩
/-- Table PST-7: BUSY replies, wrapping -/
def SMI_STAT_BUSY : Fld := ⟨0x1C04, 0, 1, 24, 8, .ro, 0, .none, .live, false⟩
/-- Table RST-9: Writing 1 starts a soft reset -/
def RST_CTL_SOFT : Fld := ⟨0x0800, 0, 1, 0, 1, .wo, 0, .none, .live, false⟩
/-- Table RST-9: First second ended -/
def RST_STAT_READY : Fld := ⟨0x0804, 0, 1, 0, 1, .ro, 0, .none, .live, false⟩
/-- Table RST-9: Soft or hot reset in progress -/
def RST_STAT_IN_RESET : Fld := ⟨0x0804, 0, 1, 1, 1, .ro, 0, .none, .live, false⟩
/-- Table RST-9: PON-A activated autonomously -/
def RST_STAT_AUTO_A : Fld := ⟨0x0804, 0, 1, 2, 1, .ro, 0, .none, .live, false⟩
/-- Table RST-9: PON-B activated autonomously -/
def RST_STAT_AUTO_B : Fld := ⟨0x0804, 0, 1, 3, 1, .ro, 0, .none, .live, false⟩
/-- Table RST-9: Set at each reset: [0] cold, [1] board, [2] PERST_N, [3] hot, [4] soft, [5] FLR of user 0, [6] watchdog, [7] board reset after power failure. The host clears a bit by writing 0 -/
def RST_CAUSE_CAUSE : Fld := ⟨0x0808, 0, 1, 0, 8, .rws, 0, .sticky, .live, false⟩
/-- Table RST-9: Warm restarts, wrapping -/
def RST_COUNT_WDOG : Fld := ⟨0x080C, 0, 1, 0, 16, .ro, 0, .sticky, .live, false⟩
/-- Table RST-9: Hot and soft resets, wrapping -/
def RST_COUNT_HOT_SOFT : Fld := ⟨0x080C, 0, 1, 16, 16, .ro, 0, .sticky, .live, false⟩
/-- Table RST-9: Latched word of Table RST-3 -/
def RST_STRAP_STRAPS : Fld := ⟨0x0814, 0, 1, 0, 32, .ro, 0, .none, .live, false⟩
/-- Table RST-9: 0 record valid, 1 absent, 2 invalid -/
def RST_BOOT_REC : Fld := ⟨0x0818, 0, 1, 0, 2, .ro, 0, .none, .live, false⟩
/-- Table FLT-8: Log frozen -/
def FLT_STAT_FROZEN : Fld := ⟨0x3020, 0, 1, 0, 1, .ro, 0, .aon, .live, false⟩
/-- Table FLT-8: Spare slot erased -/
def FLT_STAT_BB_ARMED : Fld := ⟨0x3020, 0, 1, 1, 1, .ro, 0, .none, .live, false⟩
/-- Table FLT-8: 0 none, 1 committed, 2 torn, 3 skipped -/
def FLT_STAT_BB_LAST : Fld := ⟨0x3020, 0, 1, 2, 2, .ro, 0, .aon, .live, false⟩
/-- Table FLT-8: 0 none, 1 host, 2 flash, 3 failed or skipped -/
def FLT_STAT_DUMP : Fld := ⟨0x3020, 0, 1, 4, 2, .ro, 0, .aon, .live, false⟩
/-- Table FLT-8: Flash dump region holds a dump -/
def FLT_STAT_FLASH_DUMP : Fld := ⟨0x3020, 0, 1, 6, 1, .ro, 0, .none, .live, false⟩
/-- Table FLT-8: Last fatal cause -/
def FLT_STAT_LAST_CAUSE : Fld := ⟨0x3020, 0, 1, 8, 4, .ro, 0, .aon, .live, false⟩
/-- Table FLT-8: Covered faults recovered, wrapping -/
def FLT_CNT_COVERED : Fld := ⟨0x3024, 0, 1, 0, 16, .ro, 0, .aon, .live, false⟩
/-- Table FLT-8: DATA_LOST outcomes, wrapping -/
def FLT_CNT_DATA_LOST : Fld := ⟨0x3024, 0, 1, 16, 16, .ro, 0, .aon, .live, false⟩
/-- Table FLT-8: SEQ of the newest valid black-box slot -/
def BB_SEQ_SEQ : Fld := ⟨0x3028, 0, 1, 0, 32, .ro, 0, .aon, .live, false⟩
/-- Table REG-3: Bytes "RBK8" -/
def ID_PART_PART : Fld := ⟨0x0000, 0, 1, 0, 32, .ro, 944456274, .none, .live, false⟩
/-- Table REG-3: Silicon stepping -/
def ID_REV_STEPPING : Fld := ⟨0x0004, 0, 1, 0, 8, .ro, 176, .none, .live, false⟩
/-- Table REG-3: 0 RPR-BK8-E, 1 RPR-BK8-C -/
def ID_REV_ORDER : Fld := ⟨0x0004, 0, 1, 8, 8, .ro, 0, .none, .live, false⟩
/-- Table REG-3: Major in [31:24], minor in [23:16] -/
def ID_REV_ROM_EDITION : Fld := ⟨0x0004, 0, 1, 16, 16, .ro, 1025, .none, .live, false⟩
/-- Table REG-3: Unique die identity -/
def ID_DIE_DIE_ID : Fld := ⟨0x0008, 0, 1, 0, 64, .ro, 0, .none, .live, false⟩
/-- Table REG-3: Lemrel container format run -/
def ID_FMT_CONTAINER_FORMAT : Fld := ⟨0x0010, 0, 1, 0, 16, .ro, 768, .none, .live, false⟩
/-- Table REG-3: BYK_ID as last latched -/
def ID_FMT_DEV : Fld := ⟨0x0010, 0, 1, 16, 6, .ro, 0, .none, .live, false⟩
/-- Table REG-4: Vector 0 raised -/
def INT_CAUSE_ADMIN : Fld := ⟨0x0400, 0, 1, 0, 1, .w1c, 0, .none, .live, true⟩
/-- Table REG-4: Vector 1 raised -/
def INT_CAUSE_FATAL : Fld := ⟨0x0400, 0, 1, 1, 1, .w1c, 0, .none, .live, true⟩
/-- Table REG-4: Vector 66 raised for a PM threshold-crossing alert (R365) -/
def INT_CAUSE_PM : Fld := ⟨0x0400, 0, 1, 2, 1, .w1c, 0, .none, .live, true⟩
/-- Table REG-4: Vector 67 raised -/
def INT_CAUSE_PON : Fld := ⟨0x0400, 0, 1, 3, 1, .w1c, 0, .none, .live, true⟩
/-- Table REG-4: Vector 68 raised -/
def INT_CAUSE_OPTIC : Fld := ⟨0x0400, 0, 1, 4, 1, .w1c, 0, .none, .live, true⟩
/-- Table REG-4: Vector 69 raised -/
def INT_CAUSE_POWER : Fld := ⟨0x0400, 0, 1, 5, 1, .w1c, 0, .none, .live, true⟩
/-- Table REG-4: Vector 70 raised -/
def INT_CAUSE_TIME : Fld := ⟨0x0400, 0, 1, 6, 1, .w1c, 0, .none, .live, true⟩
/-- Table REG-4: Vector 71 raised -/
def INT_CAUSE_BYKLINK : Fld := ⟨0x0400, 0, 1, 7, 1, .w1c, 0, .none, .live, true⟩
/-- Table REG-4: Vector 66 raised for a Pool low-water alert (R171) -/
def INT_CAUSE_POOL : Fld := ⟨0x0400, 0, 1, 8, 1, .w1c, 0, .none, .live, true⟩
/-- Table REG-4: Bit n: CQ n of this function holds posted entries whose vector R457 has not yet sent -/
def INT_RING_PEND_PEND : Fld := ⟨0x0408, 0, 1, 0, 64, .ro, 0, .none, .live, true⟩
/-- Table REG-4: Vector to send -/
def INT_TEST_VECTOR : Fld := ⟨0x0410, 0, 1, 0, 7, .wo, 0, .none, .live, true⟩
/-- Table REG-4: Writing 1 sends VECTOR -/
def INT_TEST_SEND : Fld := ⟨0x0410, 0, 1, 7, 1, .wo, 0, .none, .live, true⟩
/-- Table REG-4: MSI-X messages sent by this function, wrapping -/
def INT_CNT_SENT : Fld := ⟨0x0414, 0, 1, 0, 32, .ro, 0, .none, .live, true⟩
/-- Table REG-5: 1: the BAR4 window of R439 is open -/
def DBG_CTL_BAR4_EN : Fld := ⟨0x3030, 0, 1, 0, 1, .rw, 0, .func, .live, false⟩

/-- Part 0 of the field table. -/
def part0 : List Fld := [
  SPLIT_PERIOD_PERIOD, SPLIT_STAT_VALID, SPLIT_STAT_FAULT, SPLIT_STAT_BRAKE_LEVEL,
  SPLIT_STAT_SEQ, SPLIT_STAT_TJ, PACER_CTL_EN, PACER_CTL_SPLIT_KICK,
  PACER_CTL_CEIL_RACE, PACER_CTL_CEIL_PACE, PACER_GUARD_G_FIXED, PACER_GUARD_G_RATE,
  PACER_STAT_VSET, PACER_STAT_KICK, PACER_STAT_SETTLED, PACER_STAT_BRAKE_LEVEL,
  PACER_STAT_BRAKE_CAUSE, PACER_STAT_LATE_HEATS, PACER_STAT_CFG_REJ, PACER_KICK_CNT_KICKS,
  PACER_LATE_CNT_LATE, PACER_BRAKE_NS_BRAKE_NS, LANE_CTL_MASK, LANE_CTL_IDLE_GATE,
  LANE_RST_LANE, LANE_STAT_STATE, LANE_STAT_HELD, LANE_STAT_CAUSE,
  LANE_STAT_HEAT, LANE_STAT_BOUND, LANE_STAT_FAULTS, STR_INFLIGHT_NOW,
  STR_INFLIGHT_PEAK, STR_QUEUE_NS_QNS, BATON_STAT_ACTIVE, BATON_STAT_ABORTS,
  MEM_STAT_LP_MIB, MEM_STAT_LP_RATE, MEM_STAT_LP_RANKS2, MEM_STAT_TRAINED]

/-- Part 1 of the field table. -/
def part1 : List Fld := [
  MEM_CE_INF, MEM_CE_LP, MEM_UE_INF, MEM_UE_LP,
  MEM_UE_ADDR_ADDR, POOL_USE_NOW, POOL_PEAK_PEAK, POOL_FAIL_QUOTA,
  POOL_FAIL_EMPTY, POOL_MISUSE_NOT_OWNER, POOL_MISUSE_DOUBLE_FREE, TK_NS_LO_NS,
  TK_NS_HI_NS, TK_FRAC_FRAC, LOCAL_NS_NS, EPOCH_TAI_TAI,
  NR_BASE_BASE, TK_NR_SFN, TK_NR_SUBFRAME, TK_NR_SUB_NS,
  TK_CTL_SRC1, TK_CTL_SRC2, TK_CTL_SRC3, TK_CTL_BYK_PORT,
  TK_CTL_REVERT, TK_CTL_STEP_EN, TK_CTL_NR_ALIGN, TK_CTL_LOOP_BW,
  TK_LIMITS_LOCK_NS, TK_LIMITS_MAX_SLEW, TK_LIMITS_STEP, TK_HOLD_HOLD_SEC,
  TK_HOLD_QUAL_S, TK_HOLD_PPS_EN, TK_HOLD_PPS_SQUELCH, PPS_ADV_ADV,
  TK_STAT_STATE, TK_STAT_SRC, TK_STAT_EPOCH_VALID, TK_STAT_STEP_PEND]

/-- Part 2 of the field table. -/
def part2 : List Fld := [
  TK_STAT_REF10M_OK, TK_STAT_UPSTREAM, TK_STAT_CFG_REJ, TK_PHASE_ERR_E,
  SYSREF_CTL_MODE, SYSREF_CTL_ARM, SYSREF_CTL_WIDTH, SYSREF_CTL_COUNT,
  SYSREF_PER_PER, RADIO_LINK_STAT_STATE, RADIO_LINK_STAT_MODE_B, RADIO_LINK_STAT_MARGIN,
  RADIO_LINK_STAT_DOWNS, RADIO_ERR_ERR, AGC_STAT_INDEX, AGC_STAT_FROZEN,
  AGC_STAT_ED, AGC_STAT_ATTACKS, AGC_STAT_RELEASES, AGC_STAT_CLIP_FROZEN,
  TRK_FB_E_FB_LATE, TRK_FB_Q_FB_LATE, TRK_FB_L_FB_LATE, TRK_FB_E_FB_NORUN,
  TRK_FB_Q_FB_NORUN, TRK_FB_L_FB_NORUN, TRK_LATE_DISCARD_LATE_DISCARD, TRK_MISSED_UL_MISSED,
  TRK_MISSED_DL_MISSED, TRK_NOHEAT_NOHEAT_UL, TRK_NOHEAT_NOHEAT_DL, TRK_NOT_DEC_NOT_DECODED,
  TRK_INVALID_INVALID, COD_STAT_BUSY, COD_STAT_LENT, COD_RESV_RESERVED,
  COD_RESV_HELD, COD_CW_CW, COD_FAIL_TB_CRC, COD_FAIL_ITER_CAP]

/-- Part 3 of the field table. -/
def part3 : List Fld := [
  COD_HARQ_HARQ_MISS, COD_HARQ_HARQ_NOSB, COD_LENT_CW_LENT_CW, COD_POLAR_DECODES,
  COD_POLAR_CRC_FAIL, COD_FAULT_FAULTS, PON_STAT_OSTATE, PON_STAT_SYNC,
  PON_STAT_LASER, PON_STAT_PM, PON_STAT_ONU_ID, PON_EQD_EQD,
  PON_DROP_REASM_DROP, PON_DROP_OVERSIZE, PON_FRAME_UNKNOWN_PORT, PON_FRAME_HEC_LOSS,
  PON_KEY_KEY_MISS, PON_KEY_ENC_REQ, PON_PLOAM_MIC_FAIL, PON_PLOAM_PLOAM_UNSUP,
  PON_BLOCK_BLOCK_DROP, PON_DEF_DECLARED, PON_DEF_REPORTED, PON_DEF_RDI,
  PON_DEF_LASER_HOLD, PON_DEF_CHG_SET, PON_DEF_CHG_CLR, PON_DEF_CFG_IRQ_MASK,
  PON_DEF_CFG_SF_EXP, PON_DEF_CFG_SD_EXP, PON_DEF_CFG_RDI_SD, PON_FEC_CW_CW,
  PON_FEC_CORR_CORR, PON_FEC_UNC_UNC, PON_BURST_SKIP_SKIP, DEF_CTL_HOLD_TX,
  DEF_CTL_CFG_REJ, BND_STAT_STATE, BND_STAT_MEM_A, BND_STAT_MEM_B]

/-- Part 4 of the field table. -/
def part4 : List Fld := [
  BND_STAT_SKEW, BND_SEQ_SEQ_LOSS, BND_SEQ_LATE, BND_EVT_DEGRADES,
  BND_EVT_SKEW_OOR, BND_FULL_STORE_FULL, FRT_STAT_ALARM, FRT_STAT_EN,
  FRT_STAT_FRAMES, FRT_ADJ_PJ, FRT_ADJ_NJ, FRT_SLIP_SLIP_DROP,
  FRT_SLIP_SLIP_REPEAT, FRT_ERR_LOST, FRT_ERR_PTR_ERR, FRT_ERR_OVERRUN,
  OPT_STAT_STATE, OPT_STAT_REASON, OPT_STAT_WEAR, OPT_STAT_LEDGER_RO,
  OPT_STAT_OVERRIDE, OPT_STAT_LEVEL, OPT_BIAS_NOW, OPT_BIAS_BASE,
  OPT_LASER_LASER_ON_S, OPT_FAULT_TXF, OPT_FAULT_I2C, CIPH_LOCK_REQ,
  CIPH_LOCK_REL, CIPH_LOCK_HELD, CIPH_LOCK_BUSY, CIPH_LOCK_OPEN,
  CIPH_LOCK_OWNER, CIPH_LEASE_LEASE_US, KEY_STAGE_WORD, KEY_CTL_SLOT,
  KEY_CTL_LEN, KEY_CTL_USAGE, KEY_CTL_COMMIT, KEY_CTL_ERASE]

/-- Part 5 of the field table. -/
def part5 : List Fld := [
  KEY_STAT_VALID, KEY_STAT_LEN, KEY_STAT_USAGE, KEY_STAT_KCV,
  CIPH_STAT_LOCK_LOST, CIPH_STAT_CFG_REJ, HQ_SQ_BASE_BASE, HQ_CQ_BASE_BASE,
  HQ_SIZE_SQ_SIZE, HQ_SIZE_CQ_SIZE, HQ_CTL_EN, HQ_CTL_IRQ_EN,
  HQ_CTL_LINK_HOLD, HQ_STAT_READY, HQ_STAT_FAULT, HQ_STAT_CAUSE,
  HQ_STAT_DB_FOREIGN, HQ_PCIE_LATE_CPL, HQ_PCIE_CPL_FAIL, SYN_CTL_BAR_TMO_MS,
  SYN_STAT_FILLING, SYN_STAT_BREAKS, SYN_CNT_FENCE_REQ, SYN_CNT_WAIT_TMO,
  SYN_BAR_STATE, SYN_BAR_GEN, SYN_BAR_COUNT, SYN_BAR_EXPECT,
  BYK_CTL_TOPO, BYK_CTL_DIM_X, BYK_CTL_DIM_Y, BYK_CTL_PORT_EN,
  BYK_CTL_TIME_OFFER, BYK_CTL_LINK_RST, BYK_CFG_RESYNC_MS, BYK_CFG_RX_CLASS,
  BYK_CFG_READY, BYK_CFG_CFG_REJ, BYK_STAT_DEV, BYK_STAT_EPOCH]

/-- Part 6 of the field table. -/
def part6 : List Fld := [
  BYK_FWD_EN, BYK_FWD_FWD_DEV, BYK_PEER_VALID, BYK_PEER_DEV,
  BYK_PEER_CARRIER, BYK_PEER_PON, BYK_PEER_ENTRY, BYK_PORT_STATE,
  BYK_PORT_CAUSE, BYK_PORT_PEER, BYK_PORT_PEER_READY, BYK_PORT_FEC_CORR,
  BYK_PORT_FEC_UNC, BYK_PORT_CRC_ERR, BYK_PORT_REPLAY, BYK_PORT_RETRAIN,
  BYK_PORT_RESYNC, BYK_PORT_NOT_READY, BYK_PORT_ISO_SLIP, BYK_PORT_RETRY,
  BYK_ISO_EN, BYK_ISO_DIR, BYK_ISO_PORT, BYK_ISO_PEER_CH,
  BYK_ISO_CARRIER, BYK_ISO_START_PRB, BYK_ISO_N_PRB, BYK_ISO_ANT,
  BYK_ISO_SLOTS, BYK_ISO_DEPTH, BYK_ISO_RING_ADDR, BYK_ISO_CTRL_ADDR,
  BYK_ISO_DROP, BYK_ISO_REPEAT, PWR_RAIL_OK, PWR_RAIL_PWR_FAIL,
  PWR_RAIL_PRIOR_EMERG, PWR_RAIL_PRIOR_RAIL, PWR_CAP_CAP, VRC_CFG_PH_CNT]

/-- Part 7 of the field table. -/
def part7 : List Fld := [
  VRC_CFG_FSW, VRC_CFG_PH_RATED, VRC_CFG_SHED_EN, VRC_CFG_PH_MIN,
  VRC_CFG_DROOP_MV, VRC_CFG_LATCH, VRC_LIM_ICC_MAX, VRC_STAT_VOUT,
  VRC_STAT_IOUT, VRC_STAT_ACTIVE, VRC_FLT_LOST, VRC_FLT_SENSE_FB,
  VRC_FLT_STATE, VRC_PH_I, VRC_PH_DUTY, VRC_PH_PST,
  PST_CTL_WAKE_MASK, PST_STAT_STATE, PST_STAT_ENTRY_PEND, PST_STAT_WAKE_PEND,
  PST_STAT_CAUSE, PST_STAT_FORCED, WAKE_AT_AT, RES_RACE_US,
  RES_PACE_US, RES_REST_US, RES_BENCH_US, SMI_CTL_ADDR,
  SMI_CTL_PEC_EN, SMI_STAT_CMDS, SMI_STAT_PEC_ERR, SMI_STAT_BUSY,
  RST_CTL_SOFT, RST_STAT_READY, RST_STAT_IN_RESET, RST_STAT_AUTO_A,
  RST_STAT_AUTO_B, RST_CAUSE_CAUSE, RST_COUNT_WDOG, RST_COUNT_HOT_SOFT]

/-- Part 8 of the field table. -/
def part8 : List Fld := [
  RST_STRAP_STRAPS, RST_BOOT_REC, FLT_STAT_FROZEN, FLT_STAT_BB_ARMED,
  FLT_STAT_BB_LAST, FLT_STAT_DUMP, FLT_STAT_FLASH_DUMP, FLT_STAT_LAST_CAUSE,
  FLT_CNT_COVERED, FLT_CNT_DATA_LOST, BB_SEQ_SEQ, ID_PART_PART,
  ID_REV_STEPPING, ID_REV_ORDER, ID_REV_ROM_EDITION, ID_DIE_DIE_ID,
  ID_FMT_CONTAINER_FORMAT, ID_FMT_DEV, INT_CAUSE_ADMIN, INT_CAUSE_FATAL,
  INT_CAUSE_PM, INT_CAUSE_PON, INT_CAUSE_OPTIC, INT_CAUSE_POWER,
  INT_CAUSE_TIME, INT_CAUSE_BYKLINK, INT_CAUSE_POOL, INT_RING_PEND_PEND,
  INT_TEST_VECTOR, INT_TEST_SEND, INT_CNT_SENT, DBG_CTL_BAR4_EN]

/-- Every register field of BAR0 (R679, R684). -/
def table : List Fld :=
  part0 ++ part1 ++ part2 ++ part3 ++ part4 ++ part5 ++ part6 ++ part7 ++ part8

end R

end Sys2Proof.Machine
end

