-- ==== Sys2Proof/Machine/State.lean ====
section
/-! DEFINITION. The state of the block: every register (as the fields that differ from reset), memory, and the typed state of
every unit the spec gives the device; the queue of waiting commands; and the state after reset. -/

namespace Sys2Proof.Machine

/-! ## Outside -/

/-- What the block sends out (R455, R463 and the chapters of each port). -/
inductive Output where
  /-- A posted write of function `fn` to host memory. -/
  | hostWrite (fn addr : Nat) (bytes : List Byte)
  /-- An MSI-X message (R456). -/
  | msix (fn vector : Nat)
  /-- An LTR message with its latency in nanoseconds (R629). -/
  | ltr (ns : Nat)
  /-- A message or frame on a port, named by its kind, with the port and its contents. -/
  | port (kind : String) (idx : Nat) (body : List Nat)
deriving DecidableEq, Repr

/-- One Photo-finish record (Table FLT-4), with its number (R661). -/
structure LogRec where
  num : Nat
  tk : Nat
  code : Nat
  source : Nat
  sev : Nat
  args : List Nat
deriving DecidableEq, Repr

/-! ## Rings (Host Interface, Rings and Doorbells) -/

/-- Ring states of Table HST-8. -/
inductive RingSt where
  | absent | active | faulted | draining | held
deriving DecidableEq, Repr, Inhabited

/-- A completion entry before it takes a slot (Table HST-6): bytes 0 to 11, and TYPE, SQID, SQ_HEAD. -/
structure CqEntry where
  body : Nat
  typ : Nat
  sqid : Nat
  sqHead : Nat
deriving DecidableEq, Repr

/-- Ring n: the fields of Table HST-4 and the pointers of R449, R450. -/
structure Ring where
  st : RingSt := .absent
  before : RingSt := .absent
  owner : Nat := 0
  sqBase : Nat := 0
  sqSize : Nat := 0
  cqBase : Nat := 0
  cqSize : Nat := 0
  maxInflight : Nat := 0
  irqEn : Nat := 0
  coalN : Nat := 0
  coalUs : Nat := 0
  sqHead : Nat := 0
  sqTail : Nat := 0
  cqHead : Nat := 0
  cqTail : Nat := 0
  phase : Bool := true
  unsig : Nat := 0
  oldest : Nat := 0
  waiting : List CqEntry := []
  refetch : Bool := false
  deleters : List (Nat × Nat) := []
deriving DecidableEq, Repr, Inhabited

/-- A command in flight (R452): its submission entry, and what it holds while it runs. -/
structure Cmd where
  ring : Nat
  cid : Nat
  user : Nat
  opcode : Nat
  ord : Bool
  args : List Byte
  sqHead : Nat
  rdata : Option (List Byte) := none
  started : Bool := false
  done : Bool := false
  aux : List Nat := []
deriving DecidableEq, Repr

/-- Whose read a tag names (R458): an entry of a submission ring, or a command. -/
inductive ReadFor where
  | entry (ring : Nat)
  | cmd (ring cid : Nat)
deriving DecidableEq, Repr

/-- An outstanding host read (R458) or, with `until_`, a quarantined tag (R460). -/
structure HostRead where
  tag : Nat
  fn : Nat
  addr : Nat
  len : Nat
  for_ : ReadFor
  issued : Nat
  until_ : Option Nat := none
deriving DecidableEq, Repr

/-- One function's PCIe state (R434, R456, R463); `downAt` is when the link went down while the function waits for its Bus Master Enable (R464). -/
structure PcieFn where
  bme : Bool := false
  msixEn : Bool := false
  fnMask : Bool := false
  mask : Nat := 2 ^ 72 - 1
  pba : Nat := 0
  heldWrites : List Output := []
  downAt : Option Nat := none
deriving DecidableEq, Repr, Inhabited

/-- A host-window mapping of a user (R479). -/
structure Mapping where
  off : Nat
  len : Nat
  bus : Nat
  rd : Bool
  wr : Bool
deriving DecidableEq, Repr

/-- The PCIe endpoint and the rings. -/
structure HostIf where
  rings : Vector Ring 64 := Vector.replicate 64 {}
  cmds : List Cmd := []
  reads : List HostRead := []
  fns : Vector PcieFn 8 := Vector.replicate 8 {}
  vfEn : Bool := false
  mrrs : Nat := 512
  cto : Nat := 0
  linkUp : Bool := false
  crs : Bool := true
  lastRing : Nat := 0
  turn : Nat := 0
  maps : Vector (List Mapping) 8 := Vector.replicate 8 []
  l1 : Nat := 0
deriving DecidableEq, Repr

/-! ## Memory and the Pool Manager (chapter Infield Memory, External Memory and the Pool Manager) -/

/-- Buffer states of Table POL-7; FREE is the state of a buffer that no record names. -/
inductive BufSt where
  | free | owned | shared | retired
deriving DecidableEq, Repr, Inhabited

/-- What each buffer keeps (R156), its generation apart. -/
structure Buf where
  st : BufSt := .free
  owner : Nat := 0
  count : Nat := 0
  group : Nat := 0
deriving DecidableEq, Repr, Inhabited

/-- A Pool class (Table POL-3): its fields, its free list in issue order (R158) and its alert (R171). -/
structure PoolClass where
  conf : Bool := false
  size : Nat := 0
  first : Nat := 0
  count : Nat := 0
  base : Nat := 0
  refcount : Bool := false
  firstCome : Bool := false
  quota : List Nat := []
  lowWater : Nat := 0
  user : Nat := 0
  armed : Bool := true
  free : List Nat := []
deriving DecidableEq, Repr, Inhabited

/-- The Pool Manager: 32 classes, the buffers that are not FREE, and the generation of every index (1 where unlisted). -/
structure Pool where
  classes : Vector PoolClass 32 := Vector.replicate 32 {}
  bufs : List (Nat × Buf) := []
  gens : List (Nat × Nat) := []
deriving DecidableEq, Repr

/-- Device memory: bytes that differ from 0, 64-bit words held uncorrectable (R145), those of them that the scrubber has
already reported (R147), and 64-bit words with a correctable error (R144). -/
structure Mem where
  cells : List Host.Cell := []
  bad : List Nat := []
  seen : List Nat := []
  soft : List Nat := []
  partialBad : Nat := 0
deriving DecidableEq, Repr

/-! ## Lanes (chapter Lanes and Cube Arrays) -/

/-- The output blocks of one entry held in accumulator tiles (R66, R67): the Heat slot and tensor they belong to, their real
and imaginary words in row-major order (FP32 bits in a floating tile). -/
structure AccBlock where
  heat : Nat
  tensor : Nat
  tiles : Nat
  re : List Int
  im : List Int
deriving DecidableEq, Repr

/-- What a Lane holds beside its registers: accumulator tiles, operand staging, the program whose tables it holds, the
tiles that a drain still holds, and the times the state table needs. -/
structure LaneX where
  acc : List AccBlock := []
  stagA : List Byte := []
  stagB : List Byte := []
  tables : Option Nat := none
  drains : List Nat := []
  sticky : Option Nat := none
  idleSince : Nat := 0
  faultTimes : List Nat := []
  faultAt : Nat := 0
deriving DecidableEq, Repr, Inhabited

/-! ## Streams (chapter Streams, Double Buffering and the Baton Chain) -/

/-- Transfer states of Table STR-4; a DONE transfer is no longer listed. -/
inductive XferSt where
  | queued | admitted | moving | pairWait
deriving DecidableEq, Repr

/-- Who issued a transfer: an entry of a Heat on a Lane, a command, or a relay that reached this device, with the program whose plan it
follows. -/
inductive Issuer where
  | heat (slot vlane : Nat)
  | cmd (ring cid : Nat)
  | relay (src prog : Nat)
deriving DecidableEq, Repr

/-- A transfer from issue to DONE (R119 to R137). -/
structure Xfer where
  id : Nat
  engine : Nat
  issuer : Issuer
  user : Nat
  desc : List Byte
  st : XferSt
  reserved : Bool
  readsDone : Bool := false
  chunk : Nat := 0
  free : List Bool := [true, true]
  running : Bool := false
  members : Nat := 0
  doneMask : Nat := 0
  failed : Nat := 0
  hop : Nat := 0
  relayWait : Bool := false
  relayStatus : Nat := 0
  relayHop : Nat := 0
  tokenAddr : Option (Bool × Nat) := none
  inbound : List Byte := []
  acks : Nat := 0
  ackFail : Nat := 0
  ended : Option Nat := none
deriving DecidableEq, Repr

/-- A token record (Table STR-5). -/
structure Token where
  tk : Nat
  status : Nat
  relayStatus : Nat
  doneMask : Nat
  final : Bool
  half : Nat
  relayHop : Nat
  chunk : Nat
deriving DecidableEq, Repr

/-! ## Programs and Heats (chapter Heats and Lemrel Programs) -/

/-- A loaded program (Table HEA-8): its container image, its owner, its Lanes in virtual order (R187) and the bases of
its resident regions. -/
structure Prog where
  handle : Nat
  user : Nat
  ready : Bool
  image : List Byte
  lanes : List Nat
  resBase : List Nat
  fieldBase : Nat
deriving DecidableEq, Repr

/-- Heat states of Table HEA-11. -/
inductive HeatSt where
  | admitted | running | committed | draining
deriving DecidableEq, Repr

/-- What a virtual Lane of a Heat is doing: its next entry is ready; it is held in the current entry, in what and since
when; it has ended; its stage was stopped. -/
inductive VRun where
  | ready
  | held (why : Nat) (since : Nat)
  | ended
  | stopped
deriving DecidableEq, Repr, Inhabited

/-- A virtual Lane of a Heat. -/
structure VLane where
  pc : Nat := 0
  run : VRun := .ready
  pair : Option (Nat × Nat) := none
  gen : Option (Nat × Nat × Nat) := none
deriving DecidableEq, Repr, Inhabited

/-- How a tap was decided (R265). -/
inductive TapSt where
  | unbound | open_ | learned | classical
deriving DecidableEq, Repr, Inhabited

/-- A tap of a radio Heat: its decision, whether its buffer was granted, its input's readiness, the handle and address of
its input buffers. -/
structure Tap where
  st : TapSt := .unbound
  granted : Bool := false
  inReady : Bool := false
  inBufs : List Nat := []
  outBufs : List Nat := []
  seg : Nat := 0
deriving DecidableEq, Repr, Inhabited

/-- A job of a radio Heat (Tables TRK-1, COD-2): its record, its result once stored, its received LLRs, the codewords decoded
(number, iterations, bits), its largest iteration count, gain tag and INVALID, its buffers, and its fresh soft buffers by codeword. -/
structure Job where
  rec_ : List Byte
  result : Option Nat := none
  ready : Bool := false
  llr : List Int := []
  cwOut : List (Nat × Nat × List Bool) := []
  iters : Nat := 0
  gain : Nat := 0
  invalid : Bool := false
  bufs : List Nat := []
  fresh : List (Nat × Nat) := []
  noSoft : Bool := false
deriving DecidableEq, Repr

/-- A Heat in its slot. -/
structure Heat where
  user : Nat
  ring : Nat
  cid : Nat
  silent : Bool := false
  prog : Nat
  desc : List Byte
  binds : List (List Byte)
  st : HeatSt := .admitted
  admitNs : Nat := 0
  seq : Nat := 0
  acts : List (Nat × Nat) := []
  locs : List (List (Nat × Nat)) := []
  refetch : List (Int × Int) := []
  batons : List (Nat × Nat × Nat) := []
  emitted : Bool := false
  lastRel : List (Nat × Nat) := []
  learned : Bool := true
  taps : List Tap := []
  vl : List VLane := []
  tokens : List (Nat × Token) := []
  skipSegs : List Nat := []
  lateSegs : List Nat := []
  lateRisk : Bool := false
  everLate : Bool := false
  late : Bool := false
  rerun : Bool := false
  repair : Bool := false
  chainRetry : Bool := false
  sat : Nat := 0
  undelivered : Nat := 0
  minSlack : Int := 0
  wdFrom : Nat := 0
  splitKick : Bool := true
  gFixed : Nat := 8
  gRate : Nat := 4
  mask : Nat := 255
  status : Nat := 0
  doneNs : Nat := 0
  errs : Nat := 0
  firstSample : Bool := false
  carRec : List Byte := []
  fwd : Option Nat := none
  slotStart : Nat := 0
  rx : List (Nat × Bool × List Nat) := []
  encoded : Nat := 0
  jobs : List Job := []
deriving DecidableEq, Repr

/-! ## The Pacer (chapter Handshake Fabric, Split Timers and the Pacer) -/

/-- What the Pacer keeps beside its registers: the setpoint wanted and when a Kick for it is due; the Kick in progress, from where
and when; the ceilings and the power cap in force; the refreshes without need; when the Brake level last changed and the setpoint
was last lowered for it; the VCORE power of the last window; the setpoint that the rates in use were measured at, and those
periods by domain, 0 where none is valid. Setpoints are in 5 mV codes above 0.55 V (R56). -/
structure Pacer where
  want : Nat := 50
  kickAt : Nat := 0
  kickFrom : Nat := 50
  kickNs : Nat := 0
  ceilRace : Nat := 70
  ceilPace : Nat := 50
  capW : Nat := 280
  idleRefreshes : Nat := 0
  levelAt : Nat := 0
  stepAt : Nat := 0
  powerMw : Nat := 0
  rateRef : Nat := 50
  per : List Nat := []
deriving DecidableEq, Repr

/-! ## The Timekeeper (chapter The Timekeeper and Time Sources) -/

/-- The Timekeeper (R202 to R225) beside its registers: LOCAL_NS, TK_NS and its fraction; the phase error still to be removed,
in 2^−32 ns; the run of comparisons that Table TKP-3 counts; when holdover began; the qualified sources as a mask of codes;
the last PPS_IN edge in LOCAL_NS, the second that TOD_RX gave the next edge, and the edges without one; the pulses still to
come and the last pulse of each SYSREF output; the last PPS_OUT second and its LOCAL_NS; and the last refresh (R36). -/
structure Tk where
  localNs : Nat := 0
  ns : Nat := 0
  frac : Nat := 0
  slewLeft : Int := 0
  run : Nat := 0
  holdFrom : Nat := 0
  qual : Nat := 0
  edge : Option Nat := none
  label : Option Nat := none
  unlabelled : Nat := 0
  sysArm : Vector Nat 4 := Vector.replicate 4 0
  sysLast : Vector (Option Nat) 4 := Vector.replicate 4 none
  ppsSec : Option Nat := none
  ppsAt : Nat := 0
  refresh : Option Nat := none
deriving DecidableEq, Repr

/-! ## The radio port (chapters Radio Port and Fast Gain Control, Receive and Transmit Tracks) -/

/-- The gain loop's fields of a receive pair (R244); STEP in half decibels, levels in decibels. -/
structure AgcCfg where
  en : Bool := false
  step : Nat := 1
  hi : Int := -1
  lo : Int := -20
  relN : Nat := 8
  atkMax : Nat := 6
  manual : Nat := 0
  ini : Nat := 0
  ed : Int := 0
  edWin : Nat := 0
  lat : Nat := 0
deriving DecidableEq, Repr, Inhabited

/-- A receive pair (R243 to R251): its fields, those waiting for their boundary, the run of windows at or below LO_DBFS, and
the detection symbol reported to the receive track. -/
structure Agc where
  cfg : AgcCfg := {}
  pend : Option AgcCfg := none
  manualPend : Option Nat := none
  quiet : Nat := 0
  detSym : Option Nat := none
deriving DecidableEq, Repr, Inhabited

/-- A JESD link (Tables RAD-2, RAD-7) beside its registers: failures since activation, when it entered its state, realigns. -/
structure Link where
  fails : Nat := 0
  since : Nat := 0
  realigns : Nat := 0
  drops : Nat := 0
deriving DecidableEq, Repr, Inhabited

/-- A slot-table update in its shadow copy (R242): who wrote it, where, the entries, and when it was read. -/
structure SlotUpd where
  ring : Nat
  cid : Nat
  first : Nat
  entries : List Nat
  readAt : Nat
deriving DecidableEq, Repr

/-- A downlink slot as its Heat left it (R275, R276): committed in time or not, and what the track sends. -/
structure TxSlot where
  sfn : Nat
  subframe : Nat
  slot : Nat
  good : Bool
  jobs : List (List Byte)
  source : List (List Byte)
deriving DecidableEq, Repr

/-- A carrier (Tables RAD-3, TRK-5): its 64-byte record, whether it is active, the activation change that waits with its
command, the slot table in force and the updates that wait, BLANK_MODE in force, and the downlink slots known. -/
structure Carrier where
  conf : Bool := false
  rec_ : List Byte := []
  active : Bool := false
  pend : Option (Nat × Nat × Bool) := none
  tab : List Nat := []
  upds : List SlotUpd := []
  blank : Nat := 0
  tx : List TxSlot := []
deriving DecidableEq, Repr, Inhabited

/-- The radio port: carriers 0 to 3, links 0 to 7 (R253), receive pairs 0 to 7. -/
structure Radio where
  carriers : Vector Carrier 4 := Vector.replicate 4 {}
  links : Vector Link 8 := Vector.replicate 8 {}
  agc : Vector Agc 8 := Vector.replicate 8 {}
deriving DecidableEq, Repr

/-! ## Coding (chapter Hurdle Decoders, Encoders and Control-Channel Codes) -/

/-- A soft-buffer directory entry (R295). -/
structure HarqEntry where
  carrier : Nat
  key : Nat
  tbs : Nat
  bg : Nat
  bufs : List Nat
deriving DecidableEq, Repr

/-- What a decoder runs: a radio codeword (Heat slot, job, codeword) or a codeword of a PON port. -/
inductive Work where
  | radio (slot job cw : Nat)
  | pon (port : Nat)
deriving DecidableEq, Repr

/-- A Hurdle decoder beside its register bits (Table COD-4): its codeword, whether it runs it lent, the times of its recent parity
faults, and the port whose reservation it is in (R300). -/
structure Decoder where
  work : Option Work := none
  lent : Bool := false
  faults : List Nat := []
  resv : Option Nat := none
deriving DecidableEq, Repr, Inhabited

/-- A polar request being served (Table COD-5), with its command. -/
structure PolarReq where
  ring : Nat
  cid : Nat
  desc : List Byte
deriving DecidableEq, Repr

/-- The coding block: the soft-buffer directory, the decoders, codewords requeued at the head after a fault (R304), radio
codewords to encode (Heat slot, job, codeword), polar requests, and LEND_EN. -/
structure Coding where
  dir : List HarqEntry := []
  dec : Vector Decoder 16 := Vector.replicate 16 {}
  again : List Work := []
  enc : List (Nat × Nat × Nat) := []
  polar : List PolarReq := []
  lendEn : Bool := true
deriving DecidableEq, Repr

/-! ## The PON ports (chapters The Shared-Fibre Terminal; Defects, Consequent Actions and Performance Bins) -/

/-- An XGEM port table entry (Table PON-2). -/
structure XgemEntry where
  valid : Bool := false
  up : Bool := false
  kind : Nat := 0
  bcast : Bool := false
  encReq : Bool := false
  cls : Nat := 0
  portId : Nat := 0
  ring : Nat := 0
  alloc : Nat := 0
  carriers : Nat := 0
deriving DecidableEq, Repr, Inhabited

/-- A downstream SDU that is open on an entry (R320): its buffer, its bytes, and whether the rest of it is being discarded. -/
structure OpenSdu where
  entry : Nat
  handle : Nat
  data : List Byte
  skip : Bool
deriving DecidableEq, Repr

/-- A downstream block that is open on a KIND 2 entry (R324): its header, the next offset, its buffers and its first segment's
LOCAL_NS. -/
structure OpenBlock where
  entry : Nat
  hdr : List Byte
  next : Nat
  bufs : List Nat
  since : Nat
deriving DecidableEq, Repr

/-- Upstream data held by a port (R326, R328, R513): an SDU of a KIND 0 or 1 entry with its PON_SEND command, an FRT frame, or a
block of a KIND 3 entry with its header. `todo` lists the SDUs not yet fixed whole into bursts, each with how many of its bytes are;
`seqs` the bond shims given out; `sent` counts SDUs whose burst has ended. -/
structure UpItem where
  id : Nat
  entry : Nat
  kind : Nat
  bufs : List Nat
  size : Nat
  len : Nat
  hdr : List Byte := []
  ready : Nat
  todo : List (Nat × Nat)
  sent : Nat := 0
  ring : Nat := 0
  cid : Nat := 0
  peer : Bool := false
  seqs : List (Nat × Nat) := []
deriving DecidableEq, Repr

/-- A piece of an upstream item in a burst: one XGEM frame of an SDU of the item, which a port holds, from byte `off` for `n` bytes;
`last` when the SDU ends in it. -/
structure Piece where
  port : Nat
  item : Nat
  seg : Nat
  off : Nat
  n : Nat
  last : Bool
deriving DecidableEq, Repr

/-- A part of what a burst sends, as numbers; the piece or the FRT whose frame it is. -/
structure BurstPart where
  bytes : List Nat
  piece : Option Piece := none
  frt : Option Nat := none
deriving DecidableEq, Repr

/-- A burst whose contents are fixed (R329): its start, profile, PLOAMu messages, buffer reports (Alloc-ID, words), pieces, FRT
frames (FRT, bytes), the Sleep_Request it carries, what it sends, and whether it has started. -/
structure Burst where
  start : Nat
  profile : Nat
  ploam : List (List Nat)
  dbru : List (Nat × Nat)
  pieces : List Piece
  frt : List (Nat × List Byte)
  sleep : Option Nat
  body : List BurstPart
  started : Bool := false
deriving DecidableEq, Repr

/-- Defect states of Table DEF-2. -/
inductive DefSt where
  | clear | entering | declared | leaving
deriving DecidableEq, Repr, Inhabited

/-- A defect: its state, when its count started in LOCAL_NS, its count of frames or seconds. -/
structure Defect where
  st : DefSt := .clear
  since : Nat := 0
  count : Nat := 0
deriving DecidableEq, Repr, Inhabited

/-- A PON port beside its registers (R313 to R358): its record and the record whose frame-boundary fields are in force (Tables
CMO-4, PON-8), the XGEM table and the entries that wait for the next frame with their command, Alloc-IDs by index, burst profiles,
timers, an EqD that waits, unicast and broadcast keys by index, the unicast key that Key_Control drew, the PSBd latches, defects and
the raw conditions, open SDUs and blocks, upstream data, bursts fixed, the PLOAMu queue, the disabled flag of boot flash, dying
gasp, the codewords that wait for a decoder, PLOAMs held during a Marshal restart, the entries of an autonomous activation that firmware still
holds, and the OMCI SDUs it holds for the host (R649). -/
structure Port where
  rec_ : List Byte := []
  pmRec : List Byte := []
  xgem : List (Nat × XgemEntry) := []
  xgemPend : List (Nat × XgemEntry × Nat × Nat) := []
  allocs : List (Nat × Nat) := []
  profiles : List (Nat × List Byte) := []
  to1 : Nat := 0
  to2 : Nat := 0
  eqdPend : Option Nat := none
  uni : List (Nat × Nat) := []
  bcast : List (Nat × Nat) := []
  keyNew : Option (Nat × Nat × Option Nat) := none
  latches : List (Nat × Nat) := []
  sf : Option Nat := none
  keyMiss : Bool := false
  raw : Nat := 15
  defects : Vector Defect 8 := Vector.replicate 8 {}
  frozen : Bool := false
  sdus : List OpenSdu := []
  blocks : List OpenBlock := []
  items : List UpItem := []
  itemNext : Nat := 0
  bursts : List Burst := []
  ploamQ : List (List Nat) := []
  sleepQ : Option Nat := none
  pmFrom : Nat := 0
  disabled : Bool := false
  gasp : Bool := false
  snPend : Bool := false
  levelAck : Bool := false
  wait : Nat := 0
  held : List Instr := []
  auto : List Nat := []
  holding : Bool := false
  omciHeld : List (List Byte) := []
deriving DecidableEq, Repr, Inhabited

/-! ## Performance monitoring (R359 to R367) -/

/-- A bin (Table DEF-7): where it opened, its flags, its LOCAL_NS opening, its values by point where not 0, and the points whose
alert was raised in it. -/
structure Bin where
  start : Nat := 0
  partial_ : Bool := true
  suspect : Bool := false
  localStart : Nat := 0
  vals : List (Nat × Nat) := []
  raised : List Nat := []
deriving DecidableEq, Repr, Inhabited

/-- A closed bin: its 2,080-byte record's header fields and values. -/
structure ClosedBin where
  start : Nat
  stop : Nat
  flags : Nat
  seq : Nat
  localMs : Nat
  vals : List (Nat × Nat)
deriving DecidableEq, Repr

/-- The performance-monitoring engine: the 48-bit accumulators and their values at the last mark, the last mark in TK_NS and LOCAL_NS, the
one-second image, the current bins, history (newest first), the number of 15-minute bins closed, thresholds, points with an alert not
yet cleared, and per port whether a defect was reported, SD was reported or the port was outside O5 in this second. -/
structure Pm where
  acc : List (Nat × Nat) := []
  last : List (Nat × Nat) := []
  mark : Nat := 0
  markLocal : Nat := 0
  image : Option ClosedBin := none
  quarter : Bin := {}
  day : Bin := {}
  hist : List ClosedBin := []
  prevDay : Option ClosedBin := none
  closed : Nat := 0
  thrQ : List (Nat × Nat) := []
  thrD : List (Nat × Nat) := []
  alertQ : List Nat := []
  alertD : List Nat := []
  defSeen : Vector Bool 2 := Vector.replicate 2 false
  sdSeen : Vector Bool 2 := Vector.replicate 2 false
  outO5 : Vector Bool 2 := Vector.replicate 2 false
deriving DecidableEq, Repr

/-! ## The bonded group and the tributaries (chapter Bonded Groups and Fixed-Rate Tributaries) -/

/-- A downstream bonded SDU in the resequencing store: its member and entry, its SEQ, its bytes and when it came. -/
structure HeldSdu where
  member : Nat
  entry : Nat
  seq : Nat
  data : List Byte
  at_ : Nat
deriving DecidableEq, Repr

/-- Downstream sequencing of a bonded PORT_ID: the expected SEQ and what is held, by SEQ. -/
structure BondPort where
  portId : Nat
  expect : Option Nat := none
  held : List HeldSdu := []
deriving DecidableEq, Repr

/-- The bonded group beside its registers: its fields, an enable or disable that waits for the frame boundary, the last 64 skews, the
counts measured since the group formed or a member was lost, sequencing, and since when each member has been in O5 without a
defect (LOCAL_NS). -/
structure Bond where
  weightA : Nat := 8
  gapWait : Nat := 4
  map : List Nat := []
  pendEn : Option Bool := none
  readmit : List Nat := []
  skews : List Int := []
  count : Nat := 0
  down : List BondPort := []
  upSeq : List (Nat × Nat) := []
  clearAt : Vector (Option Nat) 2 := Vector.replicate 2 none
deriving DecidableEq, Repr

/-- A tributary (Table BND-3) beside its registers: an EN that waits for the frame boundary, its SEQ and PTR, the last valid SEQ
received, the previous payload, frames that wait, and the runs that R387 counts. -/
structure Frt where
  pendEn : Option Bool := none
  port : Nat := 0
  up : Bool := false
  slip : Bool := false
  entry : Nat := 0
  thresh : Nat := 1
  n : Nat := 8
  cap : Nat := 0
  centre : Nat := 0
  buf : Nat := 0
  ctrl : Nat := 0
  seq : Nat := 0
  ptr : Nat := 0
  lastSeq : Option Nat := none
  prev : List Byte := []
  waiting : List (List Byte) := []
  got : Bool := false
  bad : Nat := 0
  missRun : Nat := 0
  goodRun : Nat := 0
  aisRun : Nat := 0
  dataRun : Nat := 0
  underRun : Nat := 0
  fullRun : Nat := 0
deriving DecidableEq, Repr, Inhabited

/-! ## Optics (chapter Pluggable Optics, Identity and Wear) -/

/-- The header of OPTIC_CONFIG with the defaults of Table OPT-6 (R519). -/
def opticDefaults : List Byte :=
  leBytes 1 0 ++ leBytes 1 10 ++ leBytes 2 0 ++ leBytes 2 512 ++ leBytes 2 64 ++ leBytes 4 3600 ++ leBytes 1 75 ++
    leBytes 1 0xFB ++ leBytes 2 150 ++ leBytes 2 200 ++ leBytes 2 0 ++ leBytes 4 35000 ++ leBytes 4 50000 ++ leBytes 4 0 ++
    leBytes 8 0 ++ leBytes 8 0

/-- The optic of a port beside its registers: its OPTIC_CONFIG record (the defaults of Table OPT-6 at reset), what identification
read (A0h 0 to 95, A2h 0 to 127), the two ledger slots in its EEPROM, the current ledger record, the last monitor values, one-hour
biases, the baseline biases still gathered, when the last TX_FAULT came, whether the laser is held for it,
the level asked for, seconds since the last ledger write, the nanoseconds of laser-on time below a whole second, when
OPT_BEN_p last went high, whether it is above TEMP_HI or below TEMP_LO, and when it entered its state. -/
structure Optic where
  rec_ : List Byte
  a0 : List Byte := []
  a2 : List Byte := []
  slot0 : List Byte := []
  slot1 : List Byte := []
  ledger : List Byte := []
  diag : List Nat := [0, 0, 0, 0, 0]
  hour : List Nat := []
  base : List Nat := []
  lastFault : Option Nat := none
  txHold : Bool := false
  level : Nat := 0
  sinceWrite : Nat := 0
  laserNs : Nat := 0
  benEnd : Nat := 0
  hot : Bool := false
  cold : Bool := false
  since : Nat := 0
deriving DecidableEq, Repr, Inhabited

/-! ## The cipher engine (chapter Cipher Engine) -/

/-- The open session of the shared context (R424, R523): its ring, what FIRST fixed, the IV, the chaining value or counter block, the
GHASH value, the AAD length and the bytes processed. -/
structure Session where
  ring : Nat
  slot : Nat
  mode : Nat
  dec : Bool
  ctrBits : Nat
  tagLen : Nat
  iv : List Nat
  chain : List Nat
  y : Nat
  aadLen : Nat
  total : Nat
deriving DecidableEq, Repr

/-- The cipher engine beside its registers: keys by 16 × user + slot, the lock's
holder, the session, when the lease began, a release that waits for a running part, commands on the pipelines in order (with
whether each is a session part), and whether the entropy source is healthy. -/
structure Cipher where
  keys : List (Nat × List Nat) := []
  holder : Option Nat := none
  session : Option Session := none
  leaseFrom : Nat := 0
  relPend : Bool := false
  jobs : List (Nat × Nat × Bool) := []
  rngOk : Bool := true
deriving DecidableEq, Repr

/-! ## Byklink (chapter Byklink Multi-Device Link) -/

/-- Who waits for a tagged operation (R573). -/
inductive TagFor where
  | nobody
  | xfer (id : Nat)
  | block (id : Nat)
deriving DecidableEq, Repr

/-- A tagged operation: its OPSEQ (0 until it is sent), its opcode (a CONTROL sub-op s is 16 + s), local address at the target, and
its data: the bytes of a WRITE, the addend of an ADD, the block header and bytes of a BLOCK, the ARG of a CONTROL. -/
structure TagOp where
  seq : Nat := 0
  op : Nat
  addr : Nat
  data : List Byte
  for_ : TagFor
deriving DecidableEq, Repr

/-- A block that is arriving from a peer (R579): its header, the bytes so far, its buffers, and the class, port and entry found when it was opened. -/
structure RxBlock where
  hdr : List Byte
  got : Nat
  bufs : List Nat
  cls : Nat
  pon : Nat
  entry : Nat
deriving DecidableEq, Repr

/-- What the device knows of another device: whether it has been heard from, its READY, RETRY_US and epoch (0 unknown); as initiator the
next OPSEQ, operations sent and not acknowledged, those that wait under flow control, those abandoned, since when no route
exists, and whether a resynchronisation is under way; as target LAST_ACC, the responses of the last ADDs, and a block
in progress. -/
structure Peer where
  heard : Bool := false
  ready : Bool := false
  retryUs : Nat := 1000
  epoch : Nat := 0
  nextSeq : Nat := 1
  ops : List TagOp := []
  waiting : List TagOp := []
  abandoned : List TagOp := []
  lost : Option Nat := none
  resync : Bool := false
  lastAcc : Nat := 0
  adds : List (Nat × Nat) := []
  blk : Option RxBlock := none
deriving DecidableEq, Repr, Inhabited

/-- A Byklink port beside its registers: training attempts, the stage of a retraining (1 TRAINING, 2 ALIGN, 3 HELLO), when it entered
its state, the next parcel expected, the next parcel to send, parcels not acknowledged, resends in a row, when the
oldest was sent, times of recent uncorrectable codewords; the peer's Timekeeper STATE, HOPS and offer; and the stamps and samples
of the time exchange. -/
structure BykPort where
  attempts : Nat := 0
  sub : Nat := 0
  since : Nat := 0
  rx : Nat := 0
  tx : Nat := 0
  unacked : Nat := 0
  resends : Nat := 0
  sentAt : Nat := 0
  unc : List Nat := []
  tkState : Nat := 0
  hops : Nat := 0
  offer : Bool := false
  t1 : Nat := 0
  t2 : Nat := 0
  t3 : Nat := 0
  masterEpoch : Option Nat := none
  samples : List Int := []
deriving DecidableEq, Repr, Inhabited

/-- A remote read in progress (R572): its XID, target, transfer, place in the transfer's reads, address, length and bytes. -/
structure RemoteRead where
  xid : Nat
  dev : Nat
  xfer : Nat
  addr : Nat
  len : Nat
  got : Option (List Byte) := none
deriving DecidableEq, Repr

/-- A block being forwarded (R578): its target, carrier, header, buffers, and the tagged messages not yet resolved. -/
structure FwdBlock where
  id : Nat
  dev : Nat
  carrier : Nat
  hdr : List Byte
  bufs : List Nat
  left : Nat
deriving DecidableEq, Repr

/-- A symbol frame of an isochronous channel (R580, R582): SFN, subframe, slot and symbol, its number, its bytes. -/
structure IsoFrame where
  label : List Nat
  seq : Nat
  data : List Byte
deriving DecidableEq, Repr

/-- An isochronous channel beside its registers: frames sent, the slip buffer, the last frame delivered, frames delivered. -/
structure IsoCh where
  sent : Nat := 0
  frames : List IsoFrame := []
  last : Option IsoFrame := none
  count : Nat := 0
deriving DecidableEq, Repr, Inhabited

/-- Byklink: ports, what is known of each device, remote reads, forwarded blocks, channels, and this device's HOPS in its time tree. -/
structure Byk where
  ports : Vector BykPort 4 := Vector.replicate 4 {}
  peers : Vector Peer 64 := Vector.replicate 64 {}
  reads : List RemoteRead := []
  xidNext : Nat := 0
  blocks : List FwdBlock := []
  blockNext : Nat := 0
  iso : Vector IsoCh 16 := Vector.replicate 16 {}
  hops : Nat := 0
deriving DecidableEq, Repr


/-! ## The Photo-finish log (chapter Faults, Recovery and the Black Box) -/

/-- The log: its records, the number of the next, and the events not written while frozen (R661, R666). -/
structure Log where
  recs : List LogRec := []
  next : Nat := 0
  missed : Nat := 0
deriving DecidableEq, Repr

/-! ## The boot flash (chapters Resets and the First Second; Faults, Recovery and the Black Box) -/

/-- A slot of a two-slot region (R667): its header page, body and marker page, empty where blank. -/
structure FlashSlot where
  hdr : List Byte := []
  body : List Byte := []
  mark : List Byte := []
deriving DecidableEq, Repr, Inhabited

/-- The regions of the boot flash that the device writes (Table RST-5): the PON disabled flags, the wear-ledger mirror, the black box, the
dump region (empty where blank). -/
structure Flash where
  flags : Vector FlashSlot 2 := Vector.replicate 2 {}
  mirror : Vector FlashSlot 2 := Vector.replicate 2 {}
  bb : Vector FlashSlot 2 := Vector.replicate 2 {}
  dump : List Byte := []
deriving DecidableEq, Repr

/-! ## The Starter (chapter Fences, Signals and Barriers) -/

/-- A barrier counter of the Starter beside its registers: the devices of its generation, when its first arrival or its break came
(LOCAL_NS), and the status of its break. -/
structure Barrier where
  devs : List Nat := []
  since : Nat := 0
  status : Nat := 0
deriving DecidableEq, Repr, Inhabited

/-! ## Power delivery, power states, resets and faults -/

/-- Where the always-on sequencer stands (R590, R591): every rail off; raising a rail (bit order of PWR_RAIL.OK); waiting to restart; every
rail on; lowering the rails; holding them off. -/
inductive SeqSt where
  | off | raising (rail : Nat) | waiting | on | lowering | held
deriving DecidableEq, Repr

/-- A black-box commit in progress (R668): its slot, header page and body. -/
structure BbWrite where
  slot : Nat
  hdr : List Byte
  body : List Byte
deriving DecidableEq, Repr

/-- An orderly fatal stop in progress (R655): its cause, when it began (LOCAL_NS) and the TK_NS of EV_FATAL, whether steps 3, 4 and 5 have
ended or been skipped, the statuses given in step 4 (ring, CID, OPCODE), and what the dump's sections hold of the units as step 2 left
them. -/
structure Stop where
  cause : Nat
  at_ : Nat
  tk : Nat
  committed : Bool := false
  answered : Bool := false
  dumped : Bool := false
  given : List (Nat × Nat × Nat) := []
  snap : List (List Nat) := []
deriving DecidableEq, Repr

/-- The sequencer and the VCORE controller beside their registers: EN_ outputs, failed attempts in a row, the record of an emergency order
(rail, controller state), when a core hold began, the stage of the timeline of R608 (0 none) and when it began, whether the controller runs on its backup
oscillator, and when the last droop ended. -/
structure Power where
  seq : SeqSt := .off
  en : Nat := 0
  tries : Nat := 0
  emerg : Option (Nat × Nat) := none
  hold : Option Nat := none
  failStage : Nat := 0
  failAt : Nat := 0
  backup : Bool := false
deriving DecidableEq, Repr

/-- The power states beside their registers: Off; Bench entered; the state Rest was entered from; the POWER_STATE in progress (target, ring, CID,
whether its entry was cancelled), the nanoseconds of the residency counters below a whole microsecond, a wake stimulus not yet served, WAKE_N driven,
the Locker's save area and its scratch bytes that differ from 0; and the SMI's command not yet answered and its last response. -/
structure Pst where
  off : Bool := false
  bench : Bool := false
  restFrom : Nat := 0
  req : Option (Nat × Nat × Nat) := none
  wakeN : Bool := false
  resNs : Nat := 0
  locker : List Byte := []
  scratch : List (Nat × Byte) := []
  smiCmd : Option (Nat × List Byte) := none
  smiResp : Nat × List Byte := (1, [])
deriving DecidableEq, Repr

/-- Resets, start-up and faults beside their registers: why the Marshal will start (bits of RST_CAUSE to report), whether it is up, whether a
watchdog restart comes next; the straps' latch done; PERST_N and SYS_RST_N low; the held copy of the board record; the last watchdog firing; resets waiting for radio Heats since when (LOCAL_NS) and
which (3 hot, 4 soft, 5 FLR of user 0); the fatal stop, the black-box commit, the slot, SEQ and KIND of one that was skipped; the dump region (address, size); TOTAL_SIZE and failing
status of the last dump; the boundary-scan instruction in force, if any; whether the straps have been latched since VIO18 came up; and whether
a fatal stop has ended that the next Marshal start reports. -/
structure Boot where
  up : Bool := false
  perst : Bool := false
  sysRst : Bool := false
  started : Nat := 0
  rec_ : List Byte := []
  recCode : Nat := 1
  wdog : Option Nat := none
  reset : Option (Nat × Nat) := none
  stop : Option Stop := none
  dumpMode : Bool := false
  bb : Option BbWrite := none
  skipped : Option (Nat × Nat × Nat) := none
  region : Option (Nat × Nat) := none
  dumpSize : Nat := 0
  dumpStatus : Nat := 0
  tap : Option Nat := none
  latched : Bool := false
  dumpSay : Bool := false
deriving DecidableEq, Repr

/-! ## The machine -/

/-- A value written to a shadowed field, waiting for its boundary: the field's key and reset value, the value, its class. -/
structure Shadow where
  key : Nat
  reset : Nat
  val : Nat
  cls : Chg
deriving DecidableEq, Repr

/-- The state of the block. -/
structure State where
  /-- Commands waiting, first in, first out. -/
  pending : List Instr := []
  /-- Register fields that differ from their reset value, by key. -/
  regs : List (Nat × Nat) := []
  /-- Shadowed register values waiting for their boundary (Table REG-6). -/
  shadow : List Shadow := []
  /-- Low words held by split 64-bit writes: key and value (R681). -/
  heldLow : List (Nat × Nat) := []
  /-- High words latched by split 64-bit reads: key and value (R681). -/
  latched : List (Nat × Nat) := []
  /-- The value the last register or window read returned. -/
  lastRead : Nat := 0
  mem : Mem := {}
  pool : Pool := {}
  host : HostIf := {}
  lanes : Vector LaneX 8 := Vector.replicate 8 {}
  xfers : List Xfer := []
  xferNext : Nat := 0
  cmdTokens : List (Nat × Token) := []
  progs : List Prog := []
  /-- The last GEN given out for each program INDEX (R487), 0 where none. -/
  progGens : List (Nat × Nat) := []
  heats : Vector (Option Heat) 32 := Vector.replicate 32 none
  /-- The number of Heats admitted: their admission order. -/
  heatNext : Nat := 0
  pacer : Pacer := {}
  log : Log := {}
  /-- What the block has sent out, oldest first. -/
  out : List Output := []
  /-- The model's own count of free values taken (notes/assumptions/2.md). -/
  free : Nat := 0
  tk : Tk := {}
  radio : Radio := {}
  coding : Coding := {}
  ports : Vector Port 2 := Vector.replicate 2 {}
  pm : Pm := {}
  bond : Bond := {}
  frts : Vector Frt 16 := Vector.replicate 16 {}
  optics : Vector Optic 2 := Vector.replicate 2 { rec_ := opticDefaults }
  cipher : Cipher := {}
  /-- The accept policy and list of all optics (R394, R519). -/
  acceptMode : Bool := false
  acceptList : List (List Byte) := []
  /-- Optic identities with an override (R395). -/
  overrides : List (List Byte) := []
  flash : Flash := {}
  /-- The ROM patch table loaded (R676): its flash slot, 255 for none, and the 64 entries of PATCH_STATUS. -/
  patchSlot : Nat := 255
  patches : List (List Byte) := []
  byk : Byk := {}
  /-- A Marshal watchdog restart is in progress. -/
  warm : Bool := false
  starter : Vector Barrier 128 := Vector.replicate 128 {}
  pwr : Power := {}
  pst : Pst := {}
  boot : Boot := {}
deriving DecidableEq, Repr

/-- Reasons to stop with a fault. -/
inductive Fault where
  /-- Raised by no meaning: accesses are checked when a command or transfer is admitted (R141). Safe. -/
  | memoryHole
deriving DecidableEq, Repr

/-- Reasons to refuse. -/
inductive Refusal where
  /-- Raised by the arm of a row that has no meaning yet, with the row's mnemonic. Safe. -/
  | notModelled (mnemonic : String)
deriving DecidableEq, Repr

/-- The block right after power-on reset: every register field at its reset value, memory with nothing listed, no ring,
Heat or command, and an empty queue. -/
def State.reset : State := {}

end Sys2Proof.Machine
end

