-- ==== Sys2Proof/Machine/Ops.lean ====
section
/-! DEFINITION. The shared operations: register fields, the log, what the block sends out, interrupts, completion entries and
the life of a command in flight. -/

namespace Sys2Proof.Machine

/-! ## Register fields -/

/-- The key of instance `i` of a field in the page of function `u`. -/
def Fld.key (f : Fld) (i u : Nat) : Nat :=
  ((if f.perFn then u else 0) * 65536 + f.off + f.stride * i) * 64 + f.lsb

/-- The value of a register field. -/
def State.rg (s : State) (f : Fld) (i : Nat := 0) (u : Nat := 0) : Nat :=
  Store.get f.reset s.regs (f.key i u)

/-- A register field set, cut to its width. -/
def State.setRg (s : State) (f : Fld) (v : Nat) (i : Nat := 0) (u : Nat := 0) : State :=
  { s with regs := Store.put f.reset s.regs (f.key i u) (v % 2 ^ f.width) }

/-- The PM point that shadows instance `i` of a counter field (Table DEF-6). -/
def pmPoint (f : Fld) (i : Nat) : Option Nat :=
  let port (k : Nat) := some (16 * i + k)
  match f.off, f.lsb with
  | 0x3708, 0 => port 0 | 0x3708, 16 => port 1 | 0x370C, 0 => port 2 | 0x370C, 16 => port 3
  | 0x3710, 0 => port 4 | 0x3710, 16 => port 5 | 0x3714, 0 => port 6 | 0x3714, 16 => port 7
  | 0x3718, 0 => port 8 | 0x372C, 0 => port 9 | 0x3730, 0 => port 10 | 0x3734, 0 => port 11
  | 0x3738, 0 => port 12
  | 0x3420, 0 => some (32 + i)
  | 0x3440, 24 => some (40 + i)
  | 0x3500, 0 => some (48 + 8 * i) | 0x3504, 0 => some (49 + 8 * i) | 0x3508, 0 => some (50 + 8 * i)
  | 0x3500, 16 => some (51 + 8 * i) | 0x3504, 16 => some (51 + 8 * i) | 0x3508, 16 => some (51 + 8 * i)
  | 0x350C, 0 => some (52 + 8 * i) | 0x3510, 0 => some (53 + 8 * i) | 0x3510, 16 => some (54 + 8 * i)
  | 0x3518, 0 => some (55 + 8 * i)
  | 0x3608, 0 => some 80 | 0x360C, 0 => some 81 | 0x360C, 16 => some 82 | 0x3610, 0 => some 83
  | 0x3610, 16 => some 84 | 0x3614, 0 => some 85 | 0x3618, 0 => some 86 | 0x3618, 16 => some 87 | 0x361C, 0 => some 88
  | 0x3064, 0 => some 128 | 0x3064, 16 => some 129 | 0x3068, 0 => some 130 | 0x3068, 16 => some 131
  | 0x3108, _ => some (132 + 2 * i) | 0x310C, _ => some (133 + 2 * i)
  | off, 0 => if 0x4104 ≤ off ∧ off ≤ 0x4120 then some (96 + 8 * i + (off - 0x4104) / 4) else none
  | _, _ => none

/-- The accumulator of a point advanced, modulo 2^48 (R360). -/
def State.pmAdd (s : State) (pt k : Nat) : State :=
  { s with pm := { s.pm with acc := Store.put 0 s.pm.acc pt ((Store.get 0 s.pm.acc pt + k) % 2 ^ 48) } }

/-- The accumulator that shadows a counter advanced with it (R360). -/
def State.pmBump (s : State) (f : Fld) (i k : Nat) : State :=
  match pmPoint f i with
  | some pt => s.pmAdd pt k
  | none => s

/-- A wrapping counter field advanced. -/
def State.incRg (s : State) (f : Fld) (i : Nat := 0) (u : Nat := 0) (k : Nat := 1) : State :=
  (s.setRg f (s.rg f i u + k) i u).pmBump f i k

/-- A saturating counter field advanced. -/
def State.satRg (s : State) (f : Fld) (i : Nat := 0) (u : Nat := 0) (k : Nat := 1) : State :=
  (s.setRg f (min (s.rg f i u + k) (2 ^ f.width - 1)) i u).pmBump f i k

/-- A flag of a register. -/
def State.flag (s : State) (f : Fld) (i : Nat := 0) (u : Nat := 0) : Bool := s.rg f i u != 0

/-- One bit of a bit-mask field. -/
def State.rgBit (s : State) (f : Fld) (b : Nat) (i : Nat := 0) (u : Nat := 0) : Bool := (s.rg f i u).testBit b

/-- One bit of a bit-mask field put. -/
def State.putRgBit (s : State) (f : Fld) (b : Nat) (v : Bool) (i : Nat := 0) (u : Nat := 0) : State :=
  s.setRg f (putBit (s.rg f i u) b v) i u

/-! ## Free values -/

/-- A value the spec leaves open, below `bound`, of kind `tag` (notes/assumptions/2.md). -/
def State.freeVal (s : State) (tag bound : Nat) : Nat := Config.freeValue tag s.free % bound

/-- The counter of free values advanced. -/
def State.spent (s : State) (k : Nat := 1) : State := { s with free := s.free + k }

/-! ## The Photo-finish log -/

/-- Write an event (R661 to R666): while the log is frozen it is only counted; a full log loses its oldest record. -/
def State.ev (s : State) (e : Ev) (source : Nat := 255) (args : List Nat := []) : State :=
  if s.flag R.FLT_STAT_FROZEN then { s with log := { s.log with missed := s.log.missed + 1 } }
  else
    let r : LogRec := ⟨s.log.next, s.tk.ns, e.code, source % 256, e.sev,
      ((args ++ [0, 0, 0, 0, 0]).take 5).map (· % 2 ^ 32)⟩
    let rs := s.log.recs ++ [r]
    { s with log := { s.log with recs := rs.drop (rs.length - 1024), next := (s.log.next + 1) % 2 ^ 32 } }

/-- A 64-bit argument as two words, low word first (R663). -/
def argsOf64 (v : Nat) : List Nat := [v % 2 ^ 32, v / 2 ^ 32 % 2 ^ 32]

/-! ## Sending -/

/-- Send something out on a port. -/
def State.emit (s : State) (o : Output) : State := { s with out := s.out ++ [o] }

/-- Send a posted PCIe write or message of function `fn`, or hold it while Bus Master Enable is clear or the link is down
(R455, R462, R463 and the first edge of the chapter). -/
def State.post (s : State) (fn : Nat) (o : Output) : State :=
  if s.host.linkUp && (vget s.host.fns fn).bme then s.emit o
  else { s with host := { s.host with
    fns := vmod s.host.fns fn (fun p => { p with heldWrites := p.heldWrites ++ [o] }) } }

/-- Whether vectors may be sent at all in a function: the PF, or a VF while VF Enable is set. -/
def State.fnUp (s : State) (fn : Nat) : Bool := fn == 0 || s.host.vfEn

/-- Raise a vector of a function (R456): dropped while MSI-X Enable is 0, pending while masked, else sent and counted. -/
def State.vector (s : State) (fn v : Nat) : State :=
  let p := vget s.host.fns fn
  if !(p.msixEn && s.fnUp fn) then s
  else if p.fnMask || p.mask.testBit v then
    { s with host := { s.host with fns := vmod s.host.fns fn (fun p => { p with pba := setBit p.pba v }) } }
  else (s.post fn (.msix fn v)).incRg R.INT_CNT_SENT 0 fn

/-- Raise a cause in the PF: its INT_CAUSE bit (R687) and its vector. -/
def State.cause (s : State) (f : Fld) (v : Nat) : State := (s.setRg f 1 0 0).vector 0 v

/-! ## Rings and completion entries -/

/-- Ring `n`. -/
def State.ring (s : State) (n : Nat) : Ring := vget s.host.rings n

/-- Ring `n` changed. -/
def State.modRing (s : State) (n : Nat) (f : Ring → Ring) : State :=
  { s with host := { s.host with rings := vmod s.host.rings n f } }

/-- The vector of ring `n` (Table HST-9). -/
def ringVector (n : Nat) : Nat := if n = 0 then 0 else 2 + n

/-- Whether a completion ring has no free slot (R450). -/
def Ring.full (r : Ring) : Bool := (r.cqTail + 1) % r.cqSize == r.cqHead

/-- The interval of R457 in entries: ring 0 behaves as COAL_N = 1. -/
def State.ringCoal (s : State) (n : Nat) : Nat × Nat × Bool :=
  if n = 0 then (1, 0, s.flag R.HQ_CTL_IRQ_EN)
  else ((s.ring n).coalN, (s.ring n).coalUs, (s.ring n).irqEn == 1)

/-- Send the ring's vector and count its entries as signalled (R457, R456). -/
def State.signalRing (s : State) (n : Nat) : State :=
  let o := (s.ring n).owner
  let s := (s.modRing n (fun r => { r with unsig := 0 })).putRgBit R.INT_RING_PEND_PEND n false 0 o
  let s := if n = 0 then s.setRg R.INT_CAUSE_ADMIN 1 0 0 else s
  s.vector o (ringVector n)

/-- Send the ring's vector when R457 calls for it. -/
def State.maybeSignal (s : State) (n : Nat) : State :=
  let r := s.ring n
  let c := s.ringCoal n
  if c.2.2 && 0 < r.unsig && (c.1 ≤ r.unsig || c.2.1 == 0 ||
      decide (r.oldest + c.2.1 * 1000 ≤ s.tk.localNs)) then s.signalRing n else s

/-- Write an entry to the next slot (R445 to R447, R450) of a ring that has one. -/
def State.writeEntry (s : State) (n : Nat) (e : CqEntry) : State :=
  let r := s.ring n
  let d12 := (if r.phase then 1 else 0) + e.typ * 2 + e.sqid * 8 + e.sqHead * 512
  let bytes := leBytes 12 e.body ++ leBytes 4 d12
  let s := s.post r.owner (.hostWrite r.owner (r.cqBase + 16 * r.cqTail) bytes)
  let wrap := r.cqTail + 1 == r.cqSize
  let s := s.modRing n (fun r => { r with
    cqTail := if wrap then 0 else r.cqTail + 1
    phase := if wrap then !r.phase else r.phase
    oldest := if r.unsig = 0 then s.tk.localNs else r.oldest
    unsig := r.unsig + 1 })
  let s := s.putRgBit R.INT_RING_PEND_PEND n true 0 r.owner
  let s := if (s.ring n).full then s.ev .RING_CQ_FULL n else s
  s.maybeSignal n

/-- Post an entry, or hold it in order while the ring is full (R453). -/
def State.postEntry (s : State) (n : Nat) (e : CqEntry) : State :=
  let r := s.ring n
  if r.st = .absent then s
  else if r.full || !r.waiting.isEmpty then s.modRing n (fun r => { r with waiting := r.waiting ++ [e] })
  else s.writeEntry n e

/-- Whether a notice can be posted or held: at most 512 are held for a ring (R453). -/
def State.noticeFits (s : State) (n : Nat) : Bool :=
  let r := s.ring n
  (r.st = .active || r.st = .faulted || r.st = .draining) &&
    decide ((r.waiting.filter (fun e => e.typ == 1)).length < 512)

/-- Post a notice of 12 bytes (TYPE 1). -/
def State.notice (s : State) (n body : Nat) : State := s.postEntry n ⟨body, 1, 0, 0⟩

/-- Bytes 0 to 11 of a completion or ring-event entry (Table HST-6). -/
def entryBody (result ts cid status : Nat) : Nat :=
  result % 2 ^ 32 + (ts % 2 ^ 32) * 2 ^ 32 + (cid % 2 ^ 16) * 2 ^ 64 + (status % 2 ^ 16) * 2 ^ 80

/-- The command in flight with a ring and CID (R444 keeps the pair unique). -/
def State.cmd? (s : State) (ring cid : Nat) : Option Cmd :=
  s.host.cmds.find? (fun c => c.ring == ring && c.cid == cid && !c.done)

/-- A command in flight changed. -/
def State.modCmd (s : State) (ring cid : Nat) (f : Cmd → Cmd) : State :=
  { s with host := { s.host with cmds := s.host.cmds.map (fun c =>
      if c.ring == ring && c.cid == cid && !c.done then f c else c) } }

/-- Whether nothing keeps a DRAINING ring from its end (R454). -/
def State.drained (s : State) (n : Nat) : Bool :=
  let r := s.ring n
  r.st = .draining && r.waiting.isEmpty && !(s.host.cmds.any (fun c => c.ring == n))

/-- A ring brought up: pointers 0 and PHASE 1 (Table HST-8). -/
def Ring.fresh (r : Ring) : Ring :=
  { r with st := .active, before := .absent, sqHead := 0, sqTail := 0, cqHead := 0, cqTail := 0, phase := true,
           unsig := 0, oldest := 0, waiting := [], refetch := false, deleters := [] }

/-- Whether the HQ fields allow ring 0 to come up (R466). -/
def State.hqValid (s : State) : Bool :=
  let ok (b : Nat) := b % 4096 == 0
  let sz (n : Nat) := decide (2 ≤ n) && decide (n ≤ 1024)
  ok (s.rg R.HQ_SQ_BASE_BASE) && ok (s.rg R.HQ_CQ_BASE_BASE) &&
    sz (s.rg R.HQ_SIZE_SQ_SIZE) && sz (s.rg R.HQ_SIZE_CQ_SIZE)

/-- Ring 0 brought up with the HQ fields in force, or refused with CAUSE 4 (R466). -/
def State.hqUp (s : State) : State :=
  if s.hqValid then
    let s := s.modRing 0 (fun r => { r with
      owner := 0, sqBase := s.rg R.HQ_SQ_BASE_BASE, cqBase := s.rg R.HQ_CQ_BASE_BASE
      sqSize := s.rg R.HQ_SIZE_SQ_SIZE, cqSize := s.rg R.HQ_SIZE_CQ_SIZE
      maxInflight := s.rg R.HQ_SIZE_SQ_SIZE - 1, irqEn := 1, coalN := 1, coalUs := 0 }.fresh)
    ((s.setRg R.HQ_STAT_READY 1).setRg R.HQ_STAT_FAULT 0).setRg R.HQ_STAT_CAUSE 0
  else ((s.setRg R.HQ_CTL_EN 0).setRg R.HQ_STAT_FAULT 1).setRg R.HQ_STAT_CAUSE 4

/-- A drained ring released (Table HST-8): ring 0 comes up again when EN was set meanwhile (R466). -/
def State.releaseRing (s : State) (n : Nat) : State :=
  let o := (s.ring n).owner
  let s := (s.modRing n (fun _ => {})).putRgBit R.INT_RING_PEND_PEND n false 0 o
  if n = 0 then
    let s := s.setRg R.HQ_STAT_READY 0
    if s.flag R.HQ_CTL_EN then s.hqUp else s
  else s

/-- The completion of one command posted; the command leaves flight when its entry is written (R452, R455). -/
def State.completeOne (s : State) (ring cid status : Nat) (result : Nat := 0) (ts : Nat) : State :=
  match s.cmd? ring cid with
  | none => s
  | some c =>
    let r := s.ring ring
    let e : CqEntry := ⟨entryBody result ts cid status, 0, ring, c.sqHead⟩
    let wait := r.full || !r.waiting.isEmpty
    let s := if wait then s.modCmd ring cid (fun c => { c with done := true })
      else { s with host := { s.host with cmds := s.host.cmds.filter (fun d => !(d == c)) } }
    s.postEntry ring e

/-- A drained ring released, and the RING_DELETEs that waited for it completed (R477). -/
def State.drainCheck (s : State) (n : Nat) : State :=
  if s.drained n then
    let ds := (s.ring n).deleters
    ds.foldl (fun s d =>
      let s := s.completeOne d.1 d.2 Sc.ok 0 s.tk.ns
      if s.drained d.1 then s.releaseRing d.1 else s) (s.releaseRing n)
  else s

/-- A command completed with a status and RESULT (R445, R455): its entry is posted, and a ring that was draining for it is
released. -/
def State.complete (s : State) (ring cid status : Nat) (result : Nat := 0) : State :=
  (s.completeOne ring cid status result s.tk.ns).drainCheck ring

/-- As `complete`, with a given time stamp (a Heat's DONE_NS). -/
def State.completeAt (s : State) (ring cid status result ts : Nat) : State :=
  (s.completeOne ring cid status result ts).drainCheck ring

/-- A TYPE 2 entry posted and the ring FAULTED (Table HST-8). -/
def State.faultRing (s : State) (n causeCode status : Nat) : State :=
  let r := s.ring n
  if r.st = .active then
    let s := s.modRing n (fun r => { r with st := .faulted })
    let s := s.postEntry n ⟨entryBody causeCode s.tk.ns 0 status, 2, n, r.sqHead⟩
    let s := s.ev .RING_FAULT n
    if n = 0 then (s.setRg R.HQ_STAT_FAULT 1).setRg R.HQ_STAT_CAUSE causeCode |>.setRg R.HQ_STAT_READY 0 else s
  else s

/-! ## Wake stimuli (R619 to R622) -/

/-- An entry into Rest or Bench is cancelled before its commit point (Table PST-2): its POWER_STATE completes with STATE_REFUSED (0x0142), RESULT 3. -/
def State.cancelEntry (s : State) : State :=
  match s.pst.req with
  | some (target, ring, cid) =>
    if 2 ≤ target then
      let s : State := { s with pst := { s.pst with req := none } }
      let s := (s.setRg R.PST_STAT_ENTRY_PEND 0).setRg R.PST_STAT_WAKE_PEND 0
      (s.ev .PST_CANCEL).complete ring cid 0x0142 3
    else s
  | none => s

/-- A wake stimulus (R620, R622): its bit is set in CAUSE; in Rest or Bench it stays pending for the exit; before a commit point it
cancels the entry. In Race and Pace with no entry under way nothing waits for it. -/
def State.stimulus (s : State) (bit : Nat) : State :=
  if s.pst.bench || s.rg R.PST_STAT_STATE == 2 || s.flag R.PST_STAT_ENTRY_PEND then
    let s := (s.putRgBit R.PST_STAT_CAUSE bit true).setRg R.PST_STAT_WAKE_PEND 1
    if s.flag R.PST_STAT_ENTRY_PEND then s.cancelEntry else s
  else s

/-! ## Commands in progress -/

/-- Whether a command may start: every earlier command of its ring has started, and with ORD has completed (R443, R455). -/
def State.mayStart (s : State) (c : Cmd) : Bool :=
  let before := (s.host.cmds.filter (fun d => d.ring == c.ring)).takeWhile (fun d => !(d == c))
  before.all (fun d => d.started || d.done) && (!c.ord || before.isEmpty)

/-- A field of a command's ARGS: `width` bits from bit `lsb` at byte `off` of the submission entry (Table HST-5: ARGS begin
at byte 8). -/
def Cmd.arg (c : Cmd) (off lsb width : Nat) : Nat := recF c.args (off - 8) lsb width

/-- Whether a command needs a block that Rest gates (R619). -/
def Cmd.gated (c : Cmd) : Bool :=
  [0x0F, 0x11, 0x12, 0x45, 0x70, 0x92].contains c.opcode || (c.opcode == 0x41 && c.arg 9 0 1 == 1)

/-- Whether no Heat is admitted now: an entry into Rest or Bench is under way (R617), or the timeline of a power failure (R608). -/
def State.noHeats (s : State) : Bool := s.flag R.PST_STAT_ENTRY_PEND || s.pwr.failStage != 0

/-- Whether Lanes, tracks and engines run: not in a core hold (R598), nor gated in Rest, nor while VCORE is off in Bench (Table PST-1). -/
def State.coreRuns (s : State) : Bool := s.pwr.hold.isNone && !s.pst.bench && s.rg R.PST_STAT_STATE != 2

/-- Run a command row on the command in flight that it names: nothing happens when no such command of that OPCODE is in
flight and not yet started, or when it may not start yet; else it is started and `f` is its effect. In Rest a command that needs a gated block
waits and is a work stimulus (R619). Nothing starts during a fatal stop or while the Marshal restarts. -/
def State.start (s : State) (ring cid opcode : Nat) (f : Cmd → State → State) : State :=
  match s.cmd? ring cid with
  | none => s
  | some c =>
    if c.opcode = opcode && !c.started && s.mayStart c && s.boot.stop.isNone && !s.warm then
      if c.gated && s.rg R.PST_STAT_STATE == 2 then s.stimulus 4
      else if opcode = 0x0F && s.noHeats then s
      else f c (s.modCmd ring cid (fun c => { c with started := true }))
    else s

/-- Complete a command. -/
def State.fin (s : State) (c : Cmd) (status : Nat) (result : Nat := 0) : State := s.complete c.ring c.cid status result

/-! ## Fetching what a command reads from the host -/

/-- The interval of Table HST-10 in nanoseconds. -/
def ctoNs (v : Nat) : Nat :=
  match v with
  | 1 => 80000 | 2 => 8000000 | 5 => 40000000 | 6 => 160000000 | 9 => 640000000 | 10 => 2500000000
  | _ => 40000000

/-- Whether a tag is busy or quarantined (R460). -/
def State.tagBusy (s : State) (tag : Nat) : Bool := s.host.reads.any (fun r => r.tag == tag)

/-- Issue a read request with a free tag (R458). -/
def State.issueRead (s : State) (tag fn addr len : Nat) (w : ReadFor) : State :=
  { s with host := { s.host with reads := s.host.reads ++ [⟨tag, fn, addr, len, w, s.tk.localNs, none⟩] } }

/-- The bytes of the next request of a read at an address: at most the Max Read Request Size, and none across 4 KiB (R458). -/
def State.requestLen (s : State) (addr left : Nat) : Nat :=
  min left (min (min (max s.host.mrrs 128) 4096) (4096 - addr % 4096))

/-- A host read of a command: `some bytes` when they have returned, else the state with its next request issued or waiting; each request goes on
where the bytes returned end. A read that falls due while Bus Master Enable is clear or the link is down is not issued (R458). -/
def State.hostRead (s : State) (c : Cmd) (addr len : Nat) (d : HostData) : Option (List Byte) × State :=
  let back := s.modCmd c.ring c.cid (fun c => { c with started := false })
  let have_ := (c.rdata.getD []).length
  match d with
  | .returned =>
    match c.rdata with
    | some b => if b.length < len then (none, back) else (some b, s)
    | none => (none, back)
  | .got b =>
    if s.host.linkUp && (vget s.host.fns c.user).bme then (some b, s) else (none, back)
  | .pend tag =>
    if s.host.linkUp && (vget s.host.fns c.user).bme && decide (tag < 1024) && !s.tagBusy tag && decide (have_ < len) &&
        !(s.host.reads.any (fun r => r.for_ == .cmd c.ring c.cid)) then
      (none, back.issueRead tag c.user (addr + have_) (s.requestLen (addr + have_) (len - have_)) (.cmd c.ring c.cid))
    else (none, back)

end Sys2Proof.Machine
end

