-- ==== Sys2Proof/Machine/Time.lean ====
section
/-! DEFINITION. The passage of time: LOCAL_NS and TK_NS advance together (R202, R203), a slew in force is removed (R216), and the
counters of time and the shadowed registers follow. An event whose instant a timer or a deadline fixes happens at that
instant (notes/assumptions/5.md). -/

namespace Sys2Proof.Machine

/-- The limit on the slew in ppm (Table TKP-5): values other than 1 to 100 read as 100. -/
def State.maxSlew (s : State) : Nat :=
  let v := s.rg R.TK_LIMITS_MAX_SLEW
  if 1 ≤ v ∧ v ≤ 100 then v else 100

/-- How much of the phase error is removed in `d` nanoseconds, in 2^−32 ns: the slew runs at MAX_SLEW while a source is in use
(R216; notes/assumptions/6.md). -/
def State.slewStep (s : State) (d : Nat) : Int :=
  if s.rg R.TK_STAT_STATE = 1 || s.rg R.TK_STAT_STATE = 2 then
    let m : Int := (d * s.maxSlew * 2 ^ 32 / 1000000 : Nat)
    if s.tk.slewLeft > 0 then min m s.tk.slewLeft else max (-m) s.tk.slewLeft
  else 0

/-- Shadowed values of a class take effect at their boundary. -/
def State.applyShadow (s : State) (c : Chg) : State :=
  (s.shadow.filter (fun x => x.cls == c)).foldl
    (fun s x => { s with regs := Store.put x.reset s.regs x.key x.val })
    { s with shadow := s.shadow.filter (fun x => x.cls != c) }

/-- The phase of TK_NS in the NR hyperframe of 10.24 s (R207), at an instant. -/
def State.nrPhase (s : State) (t : Nat) : Nat :=
  (((t : Int) - (s.rg R.NR_BASE_BASE : Int)) % 10240000000).toNat

/-- TAI at a TK_NS instant (R202). -/
def State.taiAt (s : State) (t : Nat) : Nat := (t + s.rg R.EPOCH_TAI_TAI) % 2 ^ 64

/-- The residency counter of the state in force (R630). -/
def State.resCounter (s : State) : Fld :=
  if s.pst.bench then R.RES_BENCH_US
  else match s.rg R.PST_STAT_STATE with
    | 0 => R.RES_RACE_US
    | 1 => R.RES_PACE_US
    | _ => R.RES_REST_US

/-- Residency advanced by `d` nanoseconds once the Marshal has started; time in Off is not counted (R630). -/
def State.reside (s : State) (d : Nat) : State :=
  if s.boot.up || s.pst.bench then
    let n := s.pst.resNs + d
    { s with pst := { s.pst with resNs := n % 1000 } }.incRg s.resCounter 0 0 (n / 1000)
  else s

/-- Channel enables take effect at a slot boundary of their carrier (Table BYK-9) that has passed since `t0`; slots of 1 ms where the carrier is
not configured. -/
def State.isoBoundary (s : State) (t0 : Nat) : State :=
  let due (x : Shadow) : Bool := x.cls == .isoEn && (List.range 16).any (fun n =>
    x.key == R.BYK_ISO_EN.key n 0 && (
      let slots := 2 ^ recF (vget s.radio.carriers (s.rg R.BYK_ISO_CARRIER n)).rec_ 0 0 2
      decide (1000000 ≤ s.tk.ns - t0) || s.nrPhase t0 * slots / 1000000 != s.nrPhase s.tk.ns * slots / 1000000))
  (s.shadow.filter due).foldl (fun s x => { s with regs := Store.put x.reset s.regs x.key x.val })
    { s with shadow := s.shadow.filter (fun x => !due x) }

/-- Time passes for `d` nanoseconds: the two counts, the time with a Brake active (Table HSF-5), with a transfer QUEUED
(Table STR-6) and in a power state (R630), and the boundaries that fall within. -/
def State.elapse (s : State) (d : Nat) : State :=
  if d = 0 then s
  else
    let e := s.slewStep d
    let total : Int := (s.tk.ns * 2 ^ 32 + s.tk.frac + d * 2 ^ 32 : Nat) - e
    let t0 := s.tk.ns
    let s := { s with tk := { s.tk with
      localNs := s.tk.localNs + d, ns := (total / 2 ^ 32).toNat, frac := (total % 2 ^ 32).toNat
      slewLeft := s.tk.slewLeft - e } }
    let s := if s.flag R.PACER_STAT_BRAKE_LEVEL then s.incRg R.PACER_BRAKE_NS_BRAKE_NS 0 0 d else s
    let s := if s.xfers.any (fun x => x.st == .queued) then s.incRg R.STR_QUEUE_NS_QNS 0 0 d else s
    let s := s.reside d
    let t1 := s.tk.ns
    let s := if decide (10000000 ≤ d) || s.nrPhase t0 / 10000000 ≠ s.nrPhase t1 / 10000000 then
      s.applyShadow .sysrefFrame else s
    let s := s.isoBoundary t0
    if s.taiAt t0 / 1000000000 ≠ s.taiAt t1 / 1000000000 then s.applyShadow .taiSecond else s

/-- TK_NS after `d` nanoseconds of LOCAL_NS. -/
def State.tkAfter (s : State) (d : Nat) : Nat :=
  (((s.tk.ns * 2 ^ 32 + s.tk.frac + d * 2 ^ 32 : Nat) - s.slewStep d : Int) / 2 ^ 32).toNat

/-- The nanoseconds of LOCAL_NS until TK_NS is at least `t`, with the slew in force. -/
def State.reachIn (s : State) (t : Nat) : Nat :=
  if t ≤ s.tk.ns then 0
  else
    let n := t * 2 ^ 32 - (s.tk.ns * 2 ^ 32 + s.tk.frac)
    let left := s.tk.slewLeft
    let d := if s.slewStep 1 = 0 then ceilDiv n (2 ^ 32)
      else if 0 < left then min (ceilDiv (n * 1000000) (2 ^ 32 * (1000000 - s.maxSlew))) (ceilDiv (n + left.toNat) (2 ^ 32))
      else max (ceilDiv (n * 1000000) (2 ^ 32 * (1000000 + s.maxSlew))) (ceilDiv (n - (-left).toNat) (2 ^ 32))
    if s.tkAfter d < t then d + 1 else d

/-- Time passes until TK_NS is at least `t`. -/
def State.reach (s : State) (t : Nat) : State := s.elapse (s.reachIn t)

/-- Time passes until `d` nanoseconds of LOCAL_NS have gone since `t0`. -/
def State.since (s : State) (t0 d : Nat) : State := s.elapse (t0 + d - s.tk.localNs)

end Sys2Proof.Machine
end

