-- ==== Sys2Proof/Machine/Memory.lean ====
section
/-! DEFINITION. Device memory: the local address map (Table POL-1), reads and writes of bytes, error correction (R143 to
R147), host windows (R478 to R480), and the BAR4, patrol-scrub and training events. -/

namespace Sys2Proof.Machine

/-- The ranges of Table POL-1. -/
inductive Region where
  | lane (n : Nat) | field | lp | window | tables | hole
deriving DecidableEq, Repr

/-- Usable LPDDR5X bytes: none while TRAINED is 0 (R149, R151). -/
def State.lpBytes (s : State) : Nat := if s.flag R.MEM_STAT_TRAINED then s.rg R.MEM_STAT_LP_MIB * 2 ^ 20 else 0

def lpBase : Nat := 0x10_0000_0000
def windowBase : Nat := 0x20_0000_0000

/-- The range an address lies in (R140, R151). -/
def State.region (s : State) (a : Nat) : Region :=
  if a < 0x0800_0000 then .lane (a / 0x0100_0000)
  else if a < 0x0C00_0000 then .field
  else if lpBase ≤ a ∧ a < lpBase + s.lpBytes then .lp
  else if windowBase ≤ a ∧ a < 0x30_0000_0000 then .window
  else if 0x3F_0000_0000 ≤ a ∧ a < 0x40_0000_0000 then .tables
  else .hole

/-- Whether [a, a + len) lies whole within the lane stores, the Field pool or LPDDR5X. -/
def State.inMem (s : State) (a len : Nat) : Bool :=
  decide (a + len ≤ 0x0C00_0000) || (decide (lpBase ≤ a) && decide (a + len ≤ lpBase + s.lpBytes))

/-- Whether [a, a + len) lies whole within the host windows. -/
def inWindows (a len : Nat) : Bool := decide (windowBase ≤ a) && decide (a + len ≤ 0x30_0000_0000)

/-- The canonical form of memory. -/
def Mem.wf (m : Mem) : Bool := Store.wf (0 : Byte) m.cells

/-- One byte of memory; a byte nothing has written reads 0 (notes/assumptions/3.md). -/
def Mem.byte (m : Mem) (a : Nat) : Byte := Store.get 0 m.cells a

/-- The byte of the machine's memory at a local address. -/
def State.byte (s : State) (a : Nat) : Byte := s.mem.byte a

/-- Bytes in address order. -/
def State.bytes (s : State) (a : Nat) : Nat → List Byte
  | 0 => []
  | n + 1 => s.byte a :: s.bytes (a + 1) n

/-- Cells with bytes stored from an address on. -/
def putCells (c : List Host.Cell) (a : Nat) : List Byte → List Host.Cell
  | [] => c
  | b :: bs => putCells (Store.put 0 c a b) (a + 1) bs

/-- The 64-bit words wholly, or partly, within [a, a + n). -/
def wholeWord (a n w : Nat) : Bool := decide (a ≤ 8 * w) && decide (8 * w + 8 ≤ a + n)
def touchesWord (a n w : Nat) : Bool := decide (8 * w < a + n) && decide (a < 8 * w + 8)

/-- A write of bytes (R146): a whole word clears its uncorrectable state, part of a failed word leaves it and is counted. -/
def State.write (s : State) (a : Nat) (bs : List Byte) : State :=
  let n := bs.length
  let m := s.mem
  let hit := (m.bad.filter (fun w => touchesWord a n w && !wholeWord a n w)).length
  { s with mem := { m with
    cells := putCells m.cells a bs
    bad := m.bad.filter (fun w => !wholeWord a n w)
    seen := m.seen.filter (fun w => !wholeWord a n w)
    soft := m.soft.filter (fun w => !wholeWord a n w)
    partialBad := m.partialBad + hit } }

/-- An uncorrectable read of a word (R145): counted, its address recorded, and logged. -/
def State.memUe (s : State) (w : Nat) : State :=
  let s := if 8 * w < lpBase then s.satRg R.MEM_UE_INF else s.satRg R.MEM_UE_LP
  (s.setRg R.MEM_UE_ADDR_ADDR (8 * w)).ev .MEM_UE

/-- A correctable read of a word (R144): corrected, written back and counted. -/
def State.memCe (s : State) (w : Nat) : State :=
  let s := if 8 * w < lpBase then s.satRg R.MEM_CE_INF else s.satRg R.MEM_CE_LP
  { s with mem := { s.mem with soft := s.mem.soft.filter (· != w) } }

/-- Words upset by the world: found uncorrectable. -/
def State.upset (s : State) (ws : List Nat) : State :=
  { s with mem := { s.mem with bad := s.mem.bad ++ ws.filter (fun w => !s.mem.bad.contains w) } }

/-- A read of memory by a requester (R144, R145): the bytes, or none where a word is uncorrectable. -/
def State.readMem (s : State) (a n : Nat) : Option (List Byte) × State :=
  let s := (s.mem.soft.filter (touchesWord a n)).foldl State.memCe s
  let ws := s.mem.bad.filter (touchesWord a n)
  if ws.isEmpty then (some (s.bytes a n), s)
  else (none, ws.foldl State.memUe s)

/-- Whether a range holds an uncorrectable word. -/
def State.hasBad (s : State) (a n : Nat) : Bool := s.mem.bad.any (touchesWord a n)

/-! ## Host windows (R478 to R480) -/

/-- The bus address that a local address in the windows of user `u` maps to, for `n` bytes. -/
def State.windowBus (s : State) (u a n : Nat) : Option Nat :=
  let base := windowBase + u * 0x2_0000_0000
  if base ≤ a ∧ a + n ≤ base + 0x2_0000_0000 then
    ((vget s.host.maps u).find? (fun m => decide (m.off ≤ a - base) && decide (a - base + n ≤ m.off + m.len))).map
      (fun m => m.bus + (a - base - m.off))
  else none

/-- Whether [a, a + n) lies in mapped pages of user `u`'s window, mapped for the direction (R472, R479). -/
def State.winOk (s : State) (u a n : Nat) (wr : Bool) : Bool :=
  let base := windowBase + u * 0x2_0000_0000
  decide (base ≤ a) && decide (a + n ≤ base + 0x2_0000_0000) &&
    (List.range (n / 4096 + 2)).all (fun k =>
      let p := if k = 0 then a else (a / 4096 + k) * 4096
      decide (a + n ≤ p) || (vget s.host.maps u).any (fun m =>
        decide (m.off ≤ p - base) && decide (p - base < m.off + m.len) && (if wr then m.wr else m.rd)))

/-- Bytes delivered to a local address on behalf of user `u`: to memory, or through its window to the host, page by page. -/
def State.deliver (s : State) (u a : Nat) (bs : List Byte) : State :=
  if s.inMem a bs.length then s.write a bs
  else match s.windowBus u a bs.length with
    | some bus => s.post u (.hostWrite u bus bs)
    | none =>
      (List.range bs.length).foldl (fun s i =>
        match s.windowBus u (a + i) 1 with
        | some bus => s.post u (.hostWrite u bus (slice bs i 1))
        | none => s) s

/-! ## Events -/

/-- BAR4_ACCESS (R439): closed, and above 0x0C00_0000, reads return 0 and writes are ignored; an uncorrectable word reads
0 for its bytes and is reported. -/
def State.bar4 (s : State) (off : Nat) (wr : Option (List Byte)) (len : Nat) (upsets : List Nat) : State :=
  let s := s.upset upsets
  let open_ := s.flag R.DBG_CTL_BAR4_EN && decide (off < 0x0C00_0000)
  match wr with
  | some bs => if open_ then s.write off (bs.take (0x0C00_0000 - off)) else s
  | none =>
    if open_ then
      let bs := (s.bytes off len).zipIdx.map (fun p =>
        if s.hasBad (off + p.2) 1 || decide (0x0C00_0000 ≤ off + p.2) then (0 : Byte) else p.1)
      let s := (s.readMem off len).2
      { s with lastRead := leNat bs }
    else { s with lastRead := 0 }

def execBar4Access (off len : Nat) (wr : Option (List Byte)) (upsets : List Nat) (s : State) :
    Host.Outcome State Fault Refusal :=
  .next (s.bar4 off wr len upsets)

/-- PATROL_SCRUB (R147): the scrubber visits a word and finds it clean (0), correctable (1) or uncorrectable (2). A word
found uncorrectable is reported once. -/
def execPatrolScrub (word : Nat) (found : Fin 3) (s : State) : Host.Outcome State Fault Refusal :=
  if s.inMem (8 * word) 8 then
    if s.mem.bad.contains word || found = 2 then
      let s := s.upset [word]
      .next (if s.mem.seen.contains word then s
        else { s with mem := { s.mem with seen := s.mem.seen ++ [word] } }.memUe word)
    else if s.mem.soft.contains word || found = 1 then .next (s.memCe word)
    else .next s
  else .next s

end Sys2Proof.Machine
end

