-- ==== Sys2Proof/Machine/Pool.lean ====
section
/-! DEFINITION. The Pool Manager (R152 to R172): its operations, buffer states and alerts, and the POOL_ events. -/

namespace Sys2Proof.Machine

/-- What an operation answers: a status, a value and the state. -/
structure Ans where
  status : Nat
  val : Nat
  st : State
deriving Repr

/-- Fields of a buffer handle (Table POL-4). -/
def hIndex (h : Nat) : Nat := bitsOf h 0 18
def hOwner (h : Nat) : Nat := bitsOf h 18 6
def hGen (h : Nat) : Nat := bitsOf h 24 8

/-- A handle (Table POL-4). -/
def handleOf (index owner gen : Nat) : Nat := index + owner * 2 ^ 18 + gen * 2 ^ 24

/-- The quota group of an owner (Table POL-5). -/
def groupOf (owner : Nat) : Nat := if owner < 32 then 0 else owner - 31

/-- The next generation, skipping 0 (R156). -/
def nextGen (g : Nat) : Nat := if g = 255 then 1 else g + 1

def State.pclass (s : State) (c : Nat) : PoolClass := vget s.pool.classes c
def State.modClass (s : State) (c : Nat) (f : PoolClass → PoolClass) : State :=
  { s with pool := { s.pool with classes := vmod s.pool.classes c f } }
def State.buf (s : State) (i : Nat) : Buf := Store.get {} s.pool.bufs i
def State.setBuf (s : State) (i : Nat) (b : Buf) : State :=
  { s with pool := { s.pool with bufs := Store.put {} s.pool.bufs i b } }
def State.gen (s : State) (i : Nat) : Nat := Store.get 1 s.pool.gens i
def State.setGen (s : State) (i g : Nat) : State :=
  { s with pool := { s.pool with gens := Store.put 1 s.pool.gens i g } }

/-- The configured class that holds a buffer index. -/
def State.classOf (s : State) (i : Nat) : Option Nat :=
  (List.range 32).find? (fun c =>
    let k := s.pclass c
    k.conf && decide (k.first ≤ i) && decide (i < k.first + k.count))

/-- The address of a buffer of a class (R153). -/
def PoolClass.addr (k : PoolClass) (i : Nat) : Nat := k.base + (i - k.first) * 2 ^ k.size

/-- Buffers of a class that a group is charged for. -/
def State.charged (s : State) (c g : Nat) : Nat :=
  (s.pool.bufs.filter (fun p => s.classOf p.1 == some c && p.2.st != .retired && p.2.group == g)).length

/-- The alert test after every operation on a class (R171). -/
def State.lowTest (s : State) (c : Nat) : State :=
  let k := s.pclass c
  if k.conf then
    if k.free.length < k.lowWater then
      if k.armed then
        ((s.modClass c (fun k => { k with armed := false })).ev .POOL_LOW c).cause R.INT_CAUSE_POOL 66
      else s
    else s.modClass c (fun k => { k with armed := true })
  else s

/-- A change in the count of buffers not FREE. -/
def State.setUse (s : State) (c n : Nat) : State :=
  let s := s.setRg R.POOL_USE_NOW n c
  if s.rg R.POOL_PEAK_PEAK c < n then s.setRg R.POOL_PEAK_PEAK n c else s

/-- ALLOC (Table POL-6). -/
def State.alloc (s : State) (req c : Nat) : Ans :=
  let k := s.pclass c
  if !k.conf || (k.refcount && decide (33 ≤ req) && decide (req ≤ 39)) then ⟨Sc.badField, 0, s.lowTest c⟩
  else if !k.firstCome && decide (k.quota.getD (groupOf req) 0 ≤ s.charged c (groupOf req)) then
    ⟨Sc.poolQuota, 0, (s.incRg R.POOL_FAIL_QUOTA c).lowTest c⟩
  else match k.free with
    | [] => ⟨Sc.poolEmpty, 0, (s.incRg R.POOL_FAIL_EMPTY c).lowTest c⟩
    | i :: rest =>
      let b : Buf := if k.refcount then ⟨.shared, req, 1, groupOf req⟩ else ⟨.owned, req, 0, groupOf req⟩
      let s := (s.modClass c (fun k => { k with free := rest })).setBuf i b
      let s := s.setUse c (s.rg R.POOL_USE_NOW c + 1)
      ⟨Sc.ok, handleOf i req (s.gen i), s.lowTest c⟩

/-- A buffer leaves use: to FREE, or RETIRED when a word of it is uncorrectable (R165). -/
def State.leave (s : State) (c i : Nat) : State :=
  let k := s.pclass c
  let s := s.setGen i (nextGen (s.gen i))
  if s.hasBad (k.addr i) (2 ^ k.size) then
    (s.setBuf i { s.buf i with st := .retired }).ev .POOL_RETIRE
  else
    let s := (s.setBuf i {}).modClass c (fun k => { k with free := k.free ++ [i] })
    s.setUse c (s.rg R.POOL_USE_NOW c - 1)

/-- A refusal that is logged with the handle and the requester (R160). -/
def State.misuse (s : State) (c req h : Nat) (f : Fld) (e : Ev) : State :=
  ((s.incRg f c).ev e 255 [h, req]).lowTest c

/-- Whether a handle names a buffer that is FREE or RETIRED, or is stale. -/
def State.stale (s : State) (h : Nat) : Bool :=
  let st := (s.buf (hIndex h)).st
  st = .free || st = .retired || hGen h != s.gen (hIndex h)

/-- Whether requester, OWNER field and recorded owner are all equal. -/
def State.owns (s : State) (req h : Nat) : Bool := hOwner h == req && (s.buf (hIndex h)).owner == req

/-- FREE (Table POL-6). -/
def State.pfree (s : State) (req h : Nat) : Ans :=
  match s.classOf (hIndex h) with
  | none => ⟨Sc.badField, 0, s⟩
  | some c =>
    if s.stale h then ⟨Sc.poolDoubleFree, 0, s.misuse c req h R.POOL_MISUSE_DOUBLE_FREE .POOL_DOUBLE_FREE⟩
    else if !s.owns req h then ⟨Sc.poolNotOwner, 0, s.misuse c req h R.POOL_MISUSE_NOT_OWNER .POOL_NOT_OWNER⟩
    else if (s.pclass c).refcount then ⟨Sc.badField, 0, s.lowTest c⟩
    else ⟨Sc.ok, 0, (s.leave c (hIndex h)).lowTest c⟩

/-- GIVE (Table POL-6): the new handle. -/
def State.pgive (s : State) (req h dst : Nat) : Ans :=
  match s.classOf (hIndex h) with
  | none => ⟨Sc.badField, 0, s⟩
  | some c =>
    if s.stale h then ⟨Sc.poolDoubleFree, 0, s.misuse c req h R.POOL_MISUSE_DOUBLE_FREE .POOL_DOUBLE_FREE⟩
    else if !s.owns req h then ⟨Sc.poolNotOwner, 0, s.misuse c req h R.POOL_MISUSE_NOT_OWNER .POOL_NOT_OWNER⟩
    else if (s.pclass c).refcount || decide (46 < dst) then ⟨Sc.badField, 0, s.lowTest c⟩
    else
      let i := hIndex h
      ⟨Sc.ok, handleOf i dst (hGen h), (s.setBuf i { s.buf i with owner := dst }).lowTest c⟩

/-- REF (Table POL-6). -/
def State.pref (s : State) (h : Nat) : Ans :=
  match s.classOf (hIndex h) with
  | none => ⟨Sc.badField, 0, s⟩
  | some c =>
    let b := s.buf (hIndex h)
    if !(s.pclass c).refcount || s.stale h || b.count == 255 then ⟨Sc.badField, 0, s.lowTest c⟩
    else ⟨Sc.ok, 0, (s.setBuf (hIndex h) { b with count := b.count + 1 }).lowTest c⟩

/-- UNREF (Table POL-6). -/
def State.punref (s : State) (req h : Nat) : Ans :=
  match s.classOf (hIndex h) with
  | none => ⟨Sc.badField, 0, s⟩
  | some c =>
    let b := s.buf (hIndex h)
    if s.stale h then ⟨Sc.poolDoubleFree, 0, s.misuse c req h R.POOL_MISUSE_DOUBLE_FREE .POOL_DOUBLE_FREE⟩
    else if !(s.pclass c).refcount then ⟨Sc.badField, 0, s.lowTest c⟩
    else if b.count ≤ 1 then ⟨Sc.ok, 0, (s.leave c (hIndex h)).lowTest c⟩
    else ⟨Sc.ok, 0, (s.setBuf (hIndex h) { b with count := b.count - 1 }).lowTest c⟩

/-- The code of a buffer state in a QUERY record (R485): 0 FREE, 1 OWNED, 2 SHARED, 3 RETIRED. -/
def BufSt.code : BufSt → Nat
  | .free => 0 | .owned => 1 | .shared => 2 | .retired => 3

/-- QUERY (Table POL-6): state, recorded owner, count, charge group, address, generation and class. -/
def State.pquery (s : State) (h : Nat) : Nat × List Nat × State :=
  match s.classOf (hIndex h) with
  | none => (Sc.badField, [], s)
  | some c =>
    let b := s.buf (hIndex h)
    (Sc.ok, [b.st.code, b.owner, b.count, b.group, (s.pclass c).addr (hIndex h), s.gen (hIndex h), c], s.lowTest c)

/-- The address and size of the buffer a live handle names. -/
def State.handleMem (s : State) (h : Nat) : Option (Nat × Nat) :=
  match s.classOf (hIndex h) with
  | none => none
  | some c => if s.stale h then none else some ((s.pclass c).addr (hIndex h), 2 ^ (s.pclass c).size)

/-- Whether [a, a + n) lies in the windows of user `u` (R472): its host-window mappings, the Pool buffers it owns, and for user 0
every memory range that streams reach. -/
def State.canReach (s : State) (u a n : Nat) (wr : Bool) : Bool :=
  (u == 0 && s.inMem a n) || s.winOk u a n wr ||
    s.pool.bufs.any (fun b => b.2.owner == 32 + u && (b.2.st == .owned || b.2.st == .shared) &&
      (match s.classOf b.1 with
        | some c =>
          let k := s.pclass c
          decide (k.addr b.1 ≤ a) && decide (a + n ≤ k.addr b.1 + 2 ^ k.size)
        | none => false))

/-- Every buffer that owner `o` holds leaves use, in ascending index order (R158, Table POL-7 FLR rows). -/
def State.freeOwned (s : State) (o : Nat) : State :=
  (s.pool.bufs.filter (fun p => p.2.st == .owned && p.2.owner == o)).foldl
    (fun s p => match s.classOf p.1 with
      | some c => (s.leave c p.1).lowTest c
      | none => s) s

/-- Every class unconfigured and every generation 1 (Table POL-7 last row, R157). -/
def State.poolClear (s : State) : State := { s with pool := {} }

/-- Free a list of handles as one of the device's own owners. -/
def State.freeAll (s : State) (req : Nat) (hs : List Nat) : State :=
  hs.foldl (fun s h => (s.pfree req h).st) s

/-- Allocate `n` buffers of a class; a refusal frees those granted and answers its status. -/
def State.allocN (s : State) (req c : Nat) : Nat → List Nat → Nat × List Nat × State
  | 0, acc => (Sc.ok, acc.reverse, s)
  | n + 1, acc =>
    let a := s.alloc req c
    if a.status = Sc.ok then State.allocN a.st req c n (a.val :: acc)
    else (a.status, [], a.st.freeAll req acc)

/-! ## Events: an operation of a requester, answered on its port -/

def execPoolAlloc (req : Fin 47) (c : Fin 32) (s : State) : Host.Outcome State Fault Refusal :=
  let a := s.alloc req c
  .next (a.st.emit (.port "pool" req [a.status, a.val]))

def execPoolFree (req : Fin 47) (handle : BitVec 32) (s : State) : Host.Outcome State Fault Refusal :=
  let a := s.pfree req handle.toNat
  .next (a.st.emit (.port "pool" req [a.status, 0]))

def execPoolGive (req : Fin 47) (handle : BitVec 32) (dst : Fin 64) (s : State) : Host.Outcome State Fault Refusal :=
  let a := s.pgive req handle.toNat dst
  .next (a.st.emit (.port "pool" req [a.status, a.val]))

def execPoolRef (req : Fin 47) (handle : BitVec 32) (s : State) : Host.Outcome State Fault Refusal :=
  let a := s.pref handle.toNat
  .next (a.st.emit (.port "pool" req [a.status, 0]))

def execPoolUnref (req : Fin 47) (handle : BitVec 32) (s : State) : Host.Outcome State Fault Refusal :=
  let a := s.punref req handle.toNat
  .next (a.st.emit (.port "pool" req [a.status, 0]))

def execPoolQuery (req : Fin 47) (handle : BitVec 32) (s : State) : Host.Outcome State Fault Refusal :=
  let a := s.pquery handle.toNat
  .next (a.2.2.emit (.port "pool" req (a.1 :: a.2.1)))

/-- POOL_RETIRE_SCRUB (R165): zeros to every word of a retired buffer, and its read-back; `still` are the words that read
uncorrectable again. With none, the buffer joins the free list. -/
def execPoolRetireScrub (index : Fin 262144) (still : List Nat) (s : State) : Host.Outcome State Fault Refusal :=
  match s.classOf index with
  | none => .next s
  | some c =>
    if (s.buf index).st = .retired then
      let a := (s.pclass c).addr index
      let n := 2 ^ (s.pclass c).size
      let s := s.write a (List.replicate n 0)
      let w := still.filter (wholeWord a n)
      let s := s.upset w
      let s := { s with mem := { s.mem with seen := s.mem.seen ++ w } }
      if w.isEmpty then
        let s := (s.setBuf index {}).modClass c (fun k => { k with free := k.free ++ [index.val] })
        .next ((s.setUse c (s.rg R.POOL_USE_NOW c - 1)).lowTest c)
      else .next s
    else .next s

end Sys2Proof.Machine
end

