-- ==== Sys2Proof/Machine/Cmd.lean ====
section
/-! DEFINITION. What the commands share (R19, R470 to R472, R501, R502): reserved bits of ARGS, records read, results written. -/

namespace Sys2Proof.Machine

/-- The bits of a field of ARGS at byte `off` of the submission entry. -/
def argMask (f : Nat × Nat × Nat) : Nat := (2 ^ f.2.2 - 1) <<< ((f.1 - 8) * 8 + f.2.1)

/-- Whether every bit of ARGS outside the given fields (byte offset, lowest bit, width) is 0 (R11). -/
def Cmd.only (c : Cmd) (fs : List (Nat × Nat × Nat)) : Bool :=
  let v := leNat c.args
  v &&& (fs.foldl (fun m f => m ||| argMask f) 0) == v

/-- The same for a record: every bit outside the given fields is 0. -/
def recOnly (r : List Byte) (fs : List (Nat × Nat × Nat)) : Bool :=
  let v := leNat r
  v &&& (fs.foldl (fun m f => m ||| (2 ^ f.2.2 - 1) <<< (f.1 * 8 + f.2.1)) 0) == v

/-- Whether the user of a command reaches an address field (R471, R472). -/
def State.fieldOk (s : State) (c : Cmd) (h : Bool) (addr n : Nat) (wr : Bool) : Bool :=
  h || n == 0 || (decide (addr < 2 ^ 46) && s.canReach c.user addr n wr)

/-- Exactly `n` bytes of what a read returned. -/
def fitBytes (n : Nat) (b : List Byte) : List Byte := (b ++ List.replicate n 0).take n

/-- Read `n` bytes at an address field and go on with them; until a read from the host has returned, the command stays unstarted. -/
def State.withRecord (s : State) (c : Cmd) (h : Bool) (addr n : Nat) (d : HostData) (k : List Byte → State → State) : State :=
  if !s.fieldOk c h addr n false then s.fin c Sc.badField
  else if h || inWindows addr n then
    let bus := if h then addr else (s.windowBus c.user addr 1).getD 0
    match s.hostRead c bus n d with
    | (some b, s) => k (fitBytes n b) s
    | (none, s) => s
  else match s.readMem addr n with
    | (some b, s) => k b s
    | (none, s) => s.fin c Sc.hostReadTimeout

/-- Write bytes at an address field. -/
def State.writeField (s : State) (c : Cmd) (h : Bool) (addr : Nat) (b : List Byte) : State :=
  if b.isEmpty then s
  else if h then s.post c.user (.hostWrite c.user addr b)
  else s.deliver c.user addr b

/-- A command that only user 0 may issue (R501). -/
def State.user0 (s : State) (c : Cmd) (k : State → State) : State := if c.user = 0 then k s else s.fin c 0x0100

/-- Complete with BAD_FIELD unless a check holds. -/
def State.check (s : State) (c : Cmd) (ok : Bool) (k : State → State) : State := if ok then k s else s.fin c Sc.badField

/-- The 32-bit word of BAR0 at an offset, as a read of function `u` returns it (R679 to R681): write-only fields read 0. -/
def State.regWord (s : State) (u off : Nat) : Nat :=
  R.table.foldl (fun v f =>
    let i := if f.stride = 0 then 0 else (off - f.off) / f.stride
    let at_ := f.off + f.stride * i
    if f.acc = .wo || decide (off < f.off) || decide (max 1 f.count ≤ i) then v
    else if at_ = off then v + (s.rg f i u <<< f.lsb) % 2 ^ 32
    else if at_ + 4 = off then v + (s.rg f i u <<< f.lsb) >>> 32
    else v) 0

/-- Words of BAR0 in order, as bytes. -/
def State.regBytes (s : State) (off words : Nat) : List Byte :=
  (List.range words).flatMap (fun k => leBytes 4 (s.regWord 0 (off + 4 * k)))

end Sys2Proof.Machine
end

