-- ==== Sys2Proof/Machine/Rings.lean ====
section
/-! DEFINITION. The host interface (R434 to R467): doorbells, the fetch of commands, reads from the host, interrupts, the link. -/

namespace Sys2Proof.Machine

/-! ## Doorbells (R449 to R451) -/

/-- Whether a doorbell page belongs to the function through which it is reached; other writes are only counted. -/
def State.ownPage (s : State) (fn n : Nat) : Bool :=
  (s.ring n).st != .absent && (s.ring n).owner == fn && s.fnUp fn

/-- SQ_TAIL_WRITE. -/
def State.sqTail (s : State) (fn n v : Nat) : State :=
  let r := s.ring n
  if !s.ownPage fn n then s.incRg R.HQ_STAT_DB_FOREIGN
  else if r.st = .active then
    if r.sqSize ≤ v then s.faultRing n 1 Sc.badField else s.modRing n (fun r => { r with sqTail := v })
  else s

def execSqTailWrite (fn : Fin 8) (n : Fin 64) (v : Fin 1024) (s : State) : Host.Outcome State Fault Refusal := .next (s.sqTail fn n v)

/-- Held entries of a ring written while it has free slots; commands leave flight with their entries (R452, R453). -/
def State.pumpCq (n : Nat) : Nat → State → State
  | 0, s => s
  | k + 1, s =>
    let r := s.ring n
    match r.waiting with
    | [] => s
    | e :: es =>
      if r.full then s
      else
        let s := s.modRing n (fun r => { r with waiting := es })
        let cid := bitsOf e.body 64 16
        let gone := if e.typ = 0 then s.host.cmds.find? (fun c => c.ring == n && c.cid == cid && c.done) else none
        let s := match gone with
          | some c => { s with host := { s.host with cmds := s.host.cmds.erase c } }
          | none => s
        (s.writeEntry n e).pumpCq n k

/-- CQ_HEAD_WRITE. -/
def State.cqHead (s : State) (fn n v : Nat) : State :=
  let r := s.ring n
  if !s.ownPage fn n then s.incRg R.HQ_STAT_DB_FOREIGN
  else if r.st = .held then s
  else if r.cqSize ≤ v || decide ((r.cqTail + r.cqSize - r.cqHead) % r.cqSize < (v + r.cqSize - r.cqHead) % r.cqSize) then
    s.faultRing n 2 Sc.badField
  else
    let s := s.modRing n (fun r => { r with cqHead := v })
    (State.pumpCq n r.waiting.length s).drainCheck n

def execCqHeadWrite (fn : Fin 8) (n : Fin 64) (v : Fin 1024) (s : State) : Host.Outcome State Fault Refusal := .next (s.cqHead fn n v)

/-! ## Fetch (R443, R444, R452) -/

/-- The opcodes of Tables CMA-1 and CMO-1. -/
def opcodes : List Nat :=
  (List.range 0x14).map (· + 1) ++ [0x40, 0x41, 0x42, 0x43, 0x44, 0x45] ++ (List.range 9).map (· + 0x50) ++
    [0x60, 0x61, 0x62, 0x70, 0x71, 0x80, 0x81, 0x82, 0x88, 0x89, 0x8A, 0x90, 0x91, 0x92]

/-- A submission entry that has been read: its command is in flight, or completes with BAD_OPCODE or BAD_FIELD. -/
def State.admitEntry (s : State) (n : Nat) (b : List Byte) : State :=
  let r := s.ring n
  let head := if r.sqHead + 1 = r.sqSize then 0 else r.sqHead + 1
  let s := s.modRing n (fun r => { r with sqHead := head, refetch := false })
  let op := rec8 b 0
  let cid := rec16 b 2
  if (s.host.cmds.any (fun c => c.ring == n && c.cid == cid)) then
    s.postEntry n ⟨entryBody 0 s.tk.ns cid (if opcodes.contains op then Sc.badField else Sc.badOpcode), 0, n, head⟩
  else
    let c : Cmd := { ring := n, cid := cid, user := r.owner, opcode := op, ord := recF b 1 0 1 == 1, args := b.drop 8, sqHead := head }
    let s : State := { s with host := { s.host with cmds := s.host.cmds ++ [c] } }
    if !opcodes.contains op then s.complete n cid Sc.badOpcode
    else if recF b 1 1 7 != 0 || rec32 b 4 != 0 then s.complete n cid Sc.badField
    else s

/-- Whether a ring has an entry that may be fetched now. -/
def State.fetchable (s : State) (n : Nat) : Bool :=
  let r := s.ring n
  let mine := (s.host.cmds.filter (fun c => c.ring == n)).length
  let others := (s.host.cmds.filter (fun c => c.ring != 0)).length
  r.st = .active && r.sqHead != r.sqTail && decide (s.host.cmds.length < 2048) && (n == 0 || decide (others < 2016)) &&
    decide (mine < if n = 0 then r.sqSize - 1 else r.maxInflight) && s.host.linkUp && (vget s.host.fns r.owner).bme &&
    !s.host.reads.any (fun x => x.for_ == .entry n && x.until_.isNone)

/-- The ring that is fetched next: ring 0 first, then round-robin with up to 8 entries a turn. -/
def State.nextRing (s : State) : Option Nat :=
  if s.fetchable 0 then some 0
  else if s.host.lastRing != 0 && decide (s.host.turn < 8) && s.fetchable s.host.lastRing then some s.host.lastRing
  else ((List.range 63).map (fun k => (s.host.lastRing + k) % 63 + 1)).find? s.fetchable

/-- Whether fetching is stopped on every ring: in a reset (R635), a fatal stop, and from the first step of a Bench entry on (R618). -/
def State.fetchStopped (s : State) : Bool :=
  s.flag R.RST_STAT_IN_RESET || s.boot.reset.isSome || s.boot.stop.isSome || s.pst.bench || s.pst.off ||
    (match s.pst.req with | some (3, _, _) => true | _ => false)

/-- COMMAND_FETCH: the next entry is read, within the step or as a request outstanding with a tag. Nothing is fetched in Bench or on the way to it (R618)
or once a fatal stop has begun. -/
def execCommandFetch (d : HostData) (s : State) : Host.Outcome State Fault Refusal :=
  if s.fetchStopped then .next s
  else match s.nextRing with
    | none => .next s
    | some n =>
      let r := s.ring n
      let s : State := if n = 0 then s
        else { s with host := { s.host with
          turn := if s.host.lastRing = n then s.host.turn + 1 else 1, lastRing := n } }
      match d with
      | .got b => .next (s.admitEntry n (fitBytes 64 b))
      | .pend tag =>
        if tag < 1024 ∧ !s.tagBusy tag then .next (s.issueRead tag r.owner (r.sqBase + 64 * r.sqHead) 64 (.entry n)) else .next s
      | .returned => .next s

/-! ## Completions of reads (R458 to R461) -/

/-- A read that failed: logged and counted; its command completes, or the fetch of its entry is made once more before the ring faults. -/
def State.readFailed (s : State) (r : HostRead) (causeCode : Nat) : State :=
  let s := ((s.incRg R.HQ_PCIE_CPL_FAIL).incRg R.FLT_CNT_COVERED).ev .PCIE_CPL_FAIL r.fn ([r.tag] ++ argsOf64 r.addr ++ [causeCode])
  match r.for_ with
  | .cmd ring cid => s.complete ring cid Sc.hostReadTimeout
  | .entry n =>
    let x := s.ring n
    if n < 64 ∧ x.st = .active then
      if x.refetch then s.faultRing n 3 Sc.hostReadTimeout
      else
        let s := s.modRing n (fun r => { r with refetch := true })
        match (List.range 1024).find? (fun t => !s.tagBusy t) with
        | some t => s.issueRead t r.fn r.addr r.len r.for_
        | none => s
    else s

/-- HOST_READ_COMPLETION: a completion with a tag. It is matched only by a read outstanding with that tag and byte count; others are late (R461). -/
def execHostReadCompletion (tag : Fin 1024) (status : CplStatus) (bytes : List Byte) (s : State) : Host.Outcome State Fault Refusal :=
  match s.host.reads.find? (fun r => r.tag == tag.val && r.until_.isNone) with
  | none => .next ((s.incRg R.HQ_PCIE_LATE_CPL).ev .PCIE_LATE_CPL)
  | some r =>
    if status = .ok ∧ bytes.length ≠ r.len then .next ((s.incRg R.HQ_PCIE_LATE_CPL).ev .PCIE_LATE_CPL)
    else
    let s := { s with host := { s.host with reads := s.host.reads.erase r } }
    match status with
    | .ok =>
      match r.for_ with
      | .cmd ring cid => .next (s.modCmd ring cid (fun c => { c with rdata := some (c.rdata.getD [] ++ bytes) }))
      | .entry n => .next (if (s.ring n).st = .active then s.admitEntry n (fitBytes 64 bytes) else s)
    | .ur => .next (s.readFailed r 2)
    | .ca => .next (s.readFailed r 3)
    | .poison => .next (s.readFailed r 4)

/-- HOST_READ_TIMEOUT: the interval has passed; the tag is quarantined for twice as long. -/
def execHostReadTimeout (tag : Fin 1024) (s : State) : Host.Outcome State Fault Refusal :=
  match s.host.reads.find? (fun r => r.tag == tag.val && r.until_.isNone) with
  | none => .next s
  | some r =>
    let t := ctoNs s.host.cto
    let s := s.since r.issued t
    let s := { s with host := { s.host with
      reads := s.host.reads.map (fun x => if x == r then { r with until_ := some (s.tk.localNs + 2 * t), for_ := .entry 64 } else x) } }
    .next (s.readFailed r 1)

/-- TAG_QUARANTINE_END. -/
def execTagQuarantineEnd (tag : Fin 1024) (s : State) : Host.Outcome State Fault Refusal :=
  match s.host.reads.find? (fun r => r.tag == tag.val && r.until_.isSome) with
  | none => .next s
  | some r =>
    let s := s.since (r.until_.getD 0) 0
    .next { s with host := { s.host with reads := s.host.reads.erase r } }

/-! ## Interrupts (R456, R457) -/

/-- MSIX_COALESCE_TIMEOUT: COAL_US has passed since the oldest unsignalled entry of a ring was posted. -/
def execMsixCoalesceTimeout (n : Fin 64) (s : State) : Host.Outcome State Fault Refusal :=
  let r := s.ring n
  let c := s.ringCoal n
  if r.st != .absent && c.2.2 && decide (0 < r.unsig) then
    .next ((s.since r.oldest (c.2.1 * 1000)).signalRing n)
  else .next s

/-- Vectors of a function whose pending bits are no longer masked are sent. -/
def State.sendPending (s : State) (fn : Nat) : State :=
  (List.range 72).foldl (fun s v =>
    let p := vget s.host.fns fn
    if p.pba.testBit v && p.msixEn && !p.fnMask && !p.mask.testBit v then
      let s := { s with host := { s.host with fns := vmod s.host.fns fn (fun p => { p with pba := clearBit p.pba v }) } }
      (s.post fn (.msix fn v)).incRg R.INT_CNT_SENT 0 fn
    else s) s

/-- MSIX_VECTOR_UNMASK: the host sets a function's mask bits, and its Function Mask. -/
def execMsixVectorUnmask (fn : Fin 8) (mask : BitVec 72) (fnMask : Bool) (s : State) : Host.Outcome State Fault Refusal :=
  .next ({ s with host := { s.host with
    fns := vmod s.host.fns fn (fun p => { p with mask := mask.toNat, fnMask := fnMask }) } }.sendPending fn)

/-! ## The link (R462 to R464) -/

/-- The last `k` posted writes of a function. -/
def lastWrites (out : List Output) (fn k : Nat) : List Output :=
  let ws := out.filter (fun o => match o with | .hostWrite f _ _ => f == fn | .msix f _ => f == fn | _ => false)
  ws.drop (ws.length - k)

/-- The link goes down: configuration space returns to its defaults, unacknowledged writes are kept to be sent again, reads are to be
issued again, and rings are HELD. -/
def State.dlDown (s : State) (unacked : List (Fin 8 × Nat)) : State :=
  let t := s.tk.localNs + 2 * ctoNs s.host.cto
  let s := unacked.foldl (fun s u => { s with host := { s.host with fns := vmod s.host.fns u.1 (fun p => { p with
    heldWrites := lastWrites s.out u.1 u.2 ++ p.heldWrites }) } }) s
  let vf := s.host.vfEn
  let fns := s.host.fns.map (fun p => { p with bme := false, msixEn := false, fnMask := false, downAt := some s.tk.localNs })
  let fns := if vf then fns else Vector.ofFn (fun (i : Fin 8) => if i = 0 then vget fns 0 else { vget fns i with downAt := none })
  let rings := s.host.rings.map (fun r =>
    if r.st = .active || r.st = .faulted || r.st = .draining then { r with before := r.st, st := .held } else r)
  let reads := s.host.reads.map (fun r => if r.until_.isSome then r else { r with until_ := some t, for_ := .entry 64 })
  ({ s with host := { s.host with
    fns := fns, rings := rings, reads := reads, linkUp := false, vfEn := false, mrrs := 512, cto := 0, l1 := 0 } }).setRg R.HQ_STAT_READY 0

/-- PCIE_DL_DOWN: `unacked` counts each function's posted writes that the link partner had not acknowledged. -/
def execPcieDlDown (unacked : List (Fin 8 × Nat)) (s : State) : Host.Outcome State Fault Refusal :=
  .next (if s.host.linkUp then (s.dlDown unacked).ev .PCIE_DOWN else s)

/-- PCIE_LINK_UP (R645): training has completed and configuration requests are answered. -/
def execPcieLinkUp (s : State) : Host.Outcome State Fault Refusal :=
  .next (if s.flag R.RST_STAT_IN_RESET || s.boot.perst then s else { s with host := { s.host with linkUp := true, crs := !s.boot.up } })

/-- BUS_MASTER_ENABLE_SET (R463): held writes are sent again in order, then the function's rings resume. -/
def execBusMasterEnableSet (fn : Fin 8) (cfg : PcieCfg) (s : State) : Host.Outcome State Fault Refusal :=
  if !s.host.linkUp || (vget s.host.fns fn).bme then .next s
  else
    let p := vget s.host.fns fn
    let s := { s with host := { s.host with
      fns := vmod s.host.fns fn (fun p => { p with bme := true, msixEn := cfg.msixEn, heldWrites := [], downAt := none })
      vfEn := if fn = 0 then cfg.vfEn else s.host.vfEn, mrrs := if fn = 0 then cfg.mrrs else s.host.mrrs
      cto := if fn = 0 then cfg.cto else s.host.cto } }
    let s := p.heldWrites.foldl State.emit s
    let was := s.host.rings.toList.any (fun r => r.st = .held && r.owner == fn.val)
    let s := { s with host := { s.host with
      rings := s.host.rings.map (fun r => if r.st = .held && r.owner == fn.val then { r with st := r.before, before := .absent } else r) } }
    let s := if fn = 0 && (s.ring 0).st = .active then s.setRg R.HQ_STAT_READY 1 else s
    let s := if was || (fn = 0 && p.downAt.isSome) then s.ev .PCIE_RESUME else s
    let s := if fn = 0 && p.downAt.isSome then s.incRg R.FLT_CNT_COVERED else s
    .next (((List.range 64).foldl State.drainCheck s).sendPending fn)

/-- BUS_MASTER_ENABLE_CLEAR (R458): the function's reads stop and its writes are held. -/
def execBusMasterEnableClear (fn : Fin 8) (s : State) : Host.Outcome State Fault Refusal :=
  .next { s with host := { s.host with fns := vmod s.host.fns fn (fun p => { p with bme := false }) } }

/-! ## Ring 0 (R466) -/

/-- A write of HQ_CTL.EN. -/
def State.hqEn (s : State) (v : Bool) : State :=
  let st := (s.ring 0).st
  if v then
    if st = .absent then (s.setRg R.HQ_CTL_EN 1).hqUp else s.setRg R.HQ_CTL_EN 1
  else
    let s := s.setRg R.HQ_CTL_EN 0
    if st = .active || st = .faulted then
      (((s.modRing 0 (fun r => { r with st := .draining })).setRg R.HQ_STAT_READY 0)).drainCheck 0
    else if st = .held then s.modRing 0 (fun r => { r with before := .draining })
    else s

def execHqEnSet (s : State) : Host.Outcome State Fault Refusal := .next (s.hqEn true)
def execHqEnClear (s : State) : Host.Outcome State Fault Refusal := .next (s.hqEn false)

end Sys2Proof.Machine
end

