-- ==== Sys2Proof/Machine/Link.lean ====
section
/-! DEFINITION. Byklink as an initiator sees it (R559 to R577): the installation and its routes, messages, tagged operations under
their limits, remote reads, and the forwarding of blocks. -/

namespace Sys2Proof.Machine

/-! ## The installation (R559 to R562) -/

def State.dev (s : State) : Nat := s.rg R.BYK_STAT_DEV
def State.topo (s : State) : Nat := s.rg R.BYK_CTL_TOPO

/-- The x and y sizes (Table BYK-2): code 0 is 64 for a chain or ring. -/
def State.dimX (s : State) : Nat := if s.rg R.BYK_CTL_DIM_X = 0 && s.topo != 3 then 64 else s.rg R.BYK_CTL_DIM_X
def State.dimY (s : State) : Nat := if s.topo = 3 then s.rg R.BYK_CTL_DIM_Y else 1

/-- Whether a device identifier lies in the installation (R562). -/
def State.inSite (s : State) (d : Nat) : Bool :=
  if s.topo = 0 then d == s.dev else decide (d < s.dimX * s.dimY)

/-- The ports that a way along one dimension of size `n` may take from `a` to `b`, preferred first (R560, R561). -/
def waysAlong (n a b lo hi : Nat) (wrap : Bool) : List Nat :=
  if wrap then if (a + n - b) % n < (b + n - a) % n then [lo, hi] else [hi, lo]
  else if b < a then [lo] else [hi]

/-- The ports that a route to a device may start on, preferred first. -/
def State.ways (s : State) (d : Nat) : List Nat :=
  if s.topo = 0 || d == s.dev then []
  else if s.topo = 1 then waysAlong s.dimX s.dev d 0 1 false
  else if s.topo = 2 then waysAlong s.dimX s.dev d 0 1 true
  else if d % s.dimX ≠ s.dev % s.dimX then waysAlong s.dimX (s.dev % s.dimX) (d % s.dimX) 0 1 true
  else waysAlong s.dimY (s.dev / s.dimX) (d / s.dimX) 2 3 true

/-- The neighbour that Table BYK-2 names for a port. -/
def State.neighbour (s : State) (q : Nat) : Option Nat :=
  let v := s.dev
  let n := s.dimX
  match s.topo, q with
  | 1, 0 => if 0 < v then some (v - 1) else none
  | 1, 1 => if v + 1 < n then some (v + 1) else none
  | 2, 0 => some ((v + n - 1) % n)
  | 2, 1 => some ((v + 1) % n)
  | 3, 0 => some (v / n * n + (v % n + n - 1) % n)
  | 3, 1 => some (v / n * n + (v % n + 1) % n)
  | 3, 2 => some ((v / n + s.dimY - 1) % s.dimY * n + v % n)
  | 3, 3 => some ((v / n + 1) % s.dimY * n + v % n)
  | _, _ => none

def State.portUp (s : State) (q : Nat) : Bool := s.rg R.BYK_PORT_STATE q == 4

/-- The port on which a route to a device now starts: none when it is unreachable. A neighbour that is not ready forwards
nothing (R561). -/
def State.route (s : State) (d : Nat) : Option Nat :=
  (s.ways d).find? (fun q => s.portUp q && (s.neighbour q == some d || s.flag R.BYK_PORT_PEER_READY q))

def State.peer (s : State) (d : Nat) : Peer := vget s.byk.peers d
def State.modPeer (s : State) (d : Nat) (f : Peer → Peer) : State :=
  { s with byk := { s.byk with peers := vmod s.byk.peers d f } }
def State.bport (s : State) (q : Nat) : BykPort := vget s.byk.ports q
def State.modBport (s : State) (q : Nat) (f : BykPort → BykPort) : State :=
  { s with byk := { s.byk with ports := vmod s.byk.ports q f } }

/-- Vector 71 and its cause. -/
def State.bykIrq (s : State) : State := s.cause R.INT_CAUSE_BYKLINK 71

/-! ## Sending (R563 to R566) -/

/-- Parcels that a message of `n` data bytes fills; every message starts a parcel of its own (notes/assumptions/20.md). -/
def parcelsOf (n : Nat) : Nat := ceilDiv (1 + ceilDiv n 64) 16

/-- A message put on a port, in parcels that the replay buffer keeps until they are acknowledged. -/
def State.bykOut (s : State) (q op : Nat) (body : List Nat) (bytes : Nat) : State :=
  let k := parcelsOf bytes
  (s.modBport q (fun p => { p with
    tx := (p.tx + k) % 4096, unacked := p.unacked + k, sentAt := if p.unacked = 0 then s.tk.localNs else p.sentAt })).emit
    (.port "byk" q (op :: body))

/-- A message sent to a device on its route; lost where there is none. -/
def State.bykSend (s : State) (d op : Nat) (body : List Nat) (bytes : Nat) : State :=
  match s.route d with
  | some q => s.bykOut q op (d :: s.dev :: body) bytes
  | none => s

/-- A peer known not to be ready (R571). -/
def State.bykNotReady (s : State) (d : Nat) : Bool := !(s.peer d).heard || !(s.peer d).ready

/-- A request refused with NOT_READY: the hint is recorded in the port's RETRY and in the log. -/
def State.noteNotReady (s : State) (d : Nat) : State :=
  let us := if (s.peer d).heard then (s.peer d).retryUs else 1000
  let q := (s.ways d).headD 0
  ((s.setRg R.BYK_PORT_RETRY us q).incRg R.BYK_PORT_NOT_READY q).ev .BYK_NOT_READY q [d, us]

/-! ## HELLO (R568) -/

/-- What this device's HELLO says on a port: ROM edition, DEV, TOPO, DIM_X, DIM_Y, epoch, READY, RETRY_US, TIME_OFFER, STATE, HOPS. The estimate of the
time left before the device is ready is a free value (notes/assumptions/2.md). -/
def State.helloBody (s : State) (q : Nat) : List Nat :=
  let ready := s.rg R.BYK_CFG_READY
  [s.rg R.ID_REV_ROM_EDITION, s.dev, s.topo, s.rg R.BYK_CTL_DIM_X, s.rg R.BYK_CTL_DIM_Y, s.rg R.BYK_STAT_EPOCH, ready,
    if ready = 1 then 0 else s.freeVal 5 65536, s.rg R.BYK_CTL_TIME_OFFER / 2 ^ q % 2, s.rg R.TK_STAT_STATE, s.byk.hops]

/-- HELLO sent on a port, to the neighbour. -/
def State.sendHello (s : State) (q : Nat) : State :=
  (s.bykOut q 10 ([(s.neighbour q).getD s.dev, s.dev, 1] ++ s.helloBody q) 0).spent

/-- HELLO resent when one of its values changes: on every port that is in HELLO (of a retraining too) or UP, and along its route to every other
device of the installation. -/
def State.helloAll (s : State) : State :=
  let s := (List.range 4).foldl (fun s q =>
    if s.rg R.BYK_PORT_STATE q = 3 || (s.rg R.BYK_PORT_STATE q = 5 && (s.bport q).sub = 3) || s.portUp q then s.sendHello q else s) s
  ((List.range 64).filter (fun d => s.inSite d && d != s.dev && !(List.range 4).any (fun q => s.neighbour q == some d))).foldl (fun s d =>
    (s.bykSend d 10 (1 :: s.helloBody 4) 0).spent) s

/-! ## Tagged operations (R573, R574) -/

/-- A tagged operation sent, with the target's epoch. -/
def State.sendTag (s : State) (d : Nat) (o : TagOp) : State :=
  s.bykSend d (if o.op < 16 then o.op else 10)
    ([if o.op < 16 then 0 else o.op - 16, o.seq, o.addr, (s.peer d).epoch] ++ o.data.map (·.toNat)) o.data.length

/-- Waiting operations sent while a route exists and the limits allow (R573): 256 for a target, 1,024 in all; the count bounds the
recursion. -/
def State.tagPump (d : Nat) : Nat → State → State
  | 0, s => s
  | n + 1, s =>
    let p := s.peer d
    match p.waiting with
    | [] => s
    | o :: rest =>
      if (s.route d).isSome && !p.resync && decide (p.ops.length < 256) &&
          decide ((s.byk.peers.toList.map (fun x => x.ops.length)).sum < 1024) then
        let o := { o with seq := p.nextSeq }
        let s := s.modPeer d (fun p => { p with waiting := rest, ops := p.ops ++ [o], nextSeq := seqNext p.nextSeq })
        State.tagPump d n (s.sendTag d o)
      else s

/-- Waiting operations to a device sent as far as the limits allow. -/
def State.tagFlow (s : State) (d : Nat) : State := State.tagPump d (s.peer d).waiting.length s

/-- A tagged operation issued to a device. -/
def State.tagIssue (s : State) (d : Nat) (o : TagOp) : State :=
  let noRoute := (s.route d).isNone
  (s.modPeer d (fun p => { p with
    waiting := p.waiting ++ [o]
    lost := if noRoute && p.lost.isNone then some s.tk.localNs else p.lost })).tagFlow d

/-! ## Pieces of remote transfers -/

/-- Elements of `w` bytes at ascending places joined where they touch. -/
def runsOf (w : Nat) : List Int → List (Int × Nat)
  | [] => []
  | o :: os =>
    match runsOf w os with
    | (a, n) :: r => if o + (w : Int) = a then (o, n + w) :: r else (o, w) :: (a, n) :: r
    | [] => [(o, w)]

/-- A run cut into messages of at most 4,096 bytes; the length bounds the recursion. -/
def cutRun (a : Int) (n : Nat) : List (Int × Nat) :=
  (List.range (ceilDiv n 4096)).map (fun (i : Nat) => (a + 4096 * (i : Int), min 4096 (n - 4096 * i)))

/-- Tagged WRITEs of bytes to places of a device's local memory, for a waiter. -/
def State.tagWrites (s : State) (d : Nat) (who : TagFor) (runs : List (Int × Nat)) (bs : List Byte) : State :=
  ((runs.flatMap (fun r => cutRun r.1 r.2)).foldl (fun (x : State × List Byte) r =>
    (x.1.tagIssue d { op := 3, addr := r.1.toNat, data := x.2.take r.2, for_ := who }, x.2.drop r.2)) (s, bs)).1

/-- READ_REQs for places of a device's local memory, for a transfer (R572). -/
def State.readReqs (s : State) (d xfer : Nat) (runs : List (Int × Nat)) : State :=
  (runs.flatMap (fun r => cutRun r.1 r.2)).foldl (fun (s : State) (r : Int × Nat) =>
    let id := s.byk.xidNext
    let s := { s with byk := { s.byk with
      reads := s.byk.reads ++ [({ xid := id, dev := d, xfer := xfer, addr := r.1.toNat, len := r.2 } : RemoteRead)], xidNext := (id + 1) % 65536 } }
    s.bykSend d 1 [id, r.1.toNat, r.2, (s.peer d).epoch] 0) s

/-! ## Data of buffers -/

/-- Bytes that cannot be read as they were stored: free values (notes/assumptions/2.md). -/
def State.lostBytes (s : State) (n : Nat) : List Byte × State :=
  ((List.range n).map (fun i => BitVec.ofNat 8 (Config.freeValue 3 (s.free + i))), s.spent n)

/-- The bytes of memory at an address, with free values where a word is uncorrectable. -/
def State.readOrLost (s : State) (a n : Nat) : List Byte × State :=
  match s.readMem a n with
  | (some b, s) => (b, s)
  | (none, s) => s.lostBytes n

/-- The first `len` bytes held in a list of buffers. -/
def State.bufData (s : State) : List Nat → Nat → List Byte × State
  | [], _ => ([], s)
  | b :: bs, len =>
    match s.handleMem b with
    | some (a, n) =>
      let x := s.readOrLost a (min n len)
      let y := x.2.bufData bs (len - n)
      (x.1 ++ y.1, y.2)
    | none => s.bufData bs len

/-! ## Forwarding (R578) -/

/-- A block header with its OFFSET (Table PON-3). -/
def hdrAt (hdr : List Byte) (off : Nat) : List Byte := hdr.take 12 ++ leBytes 3 off ++ leBytes 1 0

/-- A decoded block given to Byklink and sent to a device as BLOCK messages of 4,096 bytes; its buffers have OWNER 45. A block for
a device that is not ready is refused (R571). -/
def State.forwardBlock (s : State) (d carrier : Nat) (hdr : List Byte) (bufs : List Nat) (len : Nat) : State :=
  if s.bykNotReady d then
    (((s.noteNotReady d).freeAll 45 bufs).ev .BYK_BLOCK_REFUSED carrier [d, rec16 hdr 2])
  else
    let x := s.bufData bufs len
    let s := x.2
    let id := s.byk.blockNext
    let n := ceilDiv len 4096
    let s := { s with byk := { s.byk with
      blocks := s.byk.blocks ++ [⟨id, d, carrier, hdr, bufs, n⟩], blockNext := id + 1 } }
    (List.range n).foldl (fun s i =>
      s.tagIssue d { op := 7, addr := 0, data := hdrAt hdr (4096 * i) ++ slice x.1 (4096 * i) 4096, for_ := .block id }) s

end Sys2Proof.Machine
end

