-- ==== Sys2Proof/Machine/Coding.lean ====
section
/-! DEFINITION. LDPC coding as pure functions (R283 to R294): checksums, segmentation, rate recovery, scrambling, and the layered
min-sum decoder of R288. The base graphs of TS 38.212 are constants of Config. -/

namespace Sys2Proof.Machine

/-! ## Fields of the coding part (Table COD-2) and of a job record (Table TRK-1) -/

def jKind (r : List Byte) : Nat := recF r 0 0 2
def jStart (r : List Byte) : Nat := recF r 1 0 4
def jNsym (r : List Byte) : Nat := recF r 1 4 4
def jPrb0 (r : List Byte) : Nat := rec16 r 2
def jPrbs (r : List Byte) : Nat := rec16 r 4
def jDmrs (r : List Byte) : Nat := recF r 6 0 14
def jPorts (r : List Byte) : Nat := rec8 r 8
def jQm (r : List Byte) : Nat := recF r 9 0 4
def jCinit (r : List Byte) : Nat := recF r 12 0 31
def jHandle (r : List Byte) : Nat := rec32 r 16
def jPrecoder (r : List Byte) : Nat := rec8 r 20
def jTbs (r : List Byte) : Nat := rec32 r 32
def jBg2 (r : List Byte) : Bool := recF r 36 0 1 == 1
def jRv (r : List Byte) : Nat := recF r 36 1 2
def jNew (r : List Byte) : Bool := recF r 36 3 1 == 1
def jEt (r : List Byte) : Bool := recF r 36 4 1 == 1
def jIterMax (r : List Byte) : Nat := if recF r 36 5 5 = 0 then 8 else recF r 36 5 5
def jLbrm (r : List Byte) : Nat := rec32 r 40
def jKey (r : List Byte) : Nat := recF r 44 0 24

/-- Whether symbol `s` belongs to a job, and whether it carries the job's DMRS. -/
def jHas (r : List Byte) (s : Nat) : Bool := decide (jStart r ≤ s) && decide (s < jStart r + jNsym r)
def jIsDmrs (r : List Byte) (s : Nat) : Bool := (jDmrs r).testBit s

/-- The number of set bits below `n` of a mask. -/
def popCount (v : Nat) : Nat → Nat
  | 0 => 0
  | n + 1 => popCount v n + (if v.testBit n then 1 else 0)

def jLayers (r : List Byte) : Nat := popCount (jPorts r) 8

/-- The data symbols of a job, ascending: its symbols that are not DMRS symbols. -/
def jData (r : List Byte) : List Nat := (List.range 14).filter (fun s => jHas r s && !jIsDmrs r s)

/-! ## Derived quantities (R284) -/

/-- G: the coded bits of a job. -/
def jG (r : List Byte) : Nat := jPrbs r * 12 * (jData r).length * jLayers r * jQm r

/-- Information columns, and all columns, of the job's base graph; the rows of the whole graph. -/
def jKb (r : List Byte) : Nat := if jBg2 r then 10 else 22
def jRows (r : List Byte) : Nat := if jBg2 r then 42 else 46

/-- B: the block with its CRC (TS 38.212 7.2.1). -/
def jB (r : List Byte) : Nat := jTbs r + (if jTbs r ≤ 3824 then 16 else 24)

/-- C: the codewords of a block (TS 38.212 5.2.2). -/
def jC (r : List Byte) : Nat :=
  let kcb := if jBg2 r then 3840 else 8448
  if jB r ≤ kcb then 1 else ceilDiv (jB r) (kcb - 24)

/-- K′: the bits of one codeword with its CRC; rounded up (notes/assumptions/10.md). -/
def jK' (r : List Byte) : Nat := if jC r = 1 then jB r else ceilDiv (jB r + 24 * jC r) (jC r)

/-- The lifting sizes of TS 38.212 Table 5.3.2-1, ascending. -/
def liftSizes : List Nat :=
  (List.range 385).filter (fun z => 2 ≤ z && [2, 3, 5, 7, 9, 11, 13, 15].any (fun a =>
    (List.range 8).any (fun j => a * 2 ^ j == z)))

/-- Z: the smallest lifting size with K_b × Z ≥ K′ (notes/assumptions/10.md). -/
def jZ (r : List Byte) : Nat := (liftSizes.find? (fun z => decide (jK' r ≤ jKb r * z))).getD 384

def jK (r : List Byte) : Nat := jKb r * jZ r

/-- N_cb: the circular buffer, limited by TBS_LBRM with R_LBRM = 2/3. -/
def jNcb (r : List Byte) : Nat :=
  let n := (if jBg2 r then 50 else 66) * jZ r
  if jLbrm r = 0 then n else min n (jLbrm r * 3 / (jC r * 2))

/-- k0 for the job's RV (TS 38.212 Table 5.4.2.1-2). -/
def jK0 (r : List Byte) : Nat :=
  let z := jZ r
  let f := if jBg2 r then [0, 13, 25, 43] else [0, 17, 33, 56]
  f.getD (jRv r) 0 * jNcb r / ((if jBg2 r then 50 else 66) * z) * z

/-- E_r: the rate-matched bits of codeword `i`. -/
def jE (r : List Byte) (i : Nat) : Nat :=
  let u := jLayers r * jQm r
  let g := jG r / u
  if i + g % jC r < jC r then u * (g / jC r) else u * ceilDiv g (jC r)

/-- Where the bits of codeword `i` begin among the G. -/
def jEoff (r : List Byte) (i : Nat) : Nat := ((List.range i).map (jE r)).sum

/-- Whether circular-buffer position `j` is a filler bit. -/
def jFiller (r : List Byte) (j : Nat) : Bool := decide (jK' r ≤ j + 2 * jZ r) && decide (j + 2 * jZ r < jK r)

/-! ## Checksums (TS 38.212 5.1) -/

/-- The remainder of a division by a generator polynomial of degree `w`, over bits in order. -/
def crcBits (w poly : Nat) (bs : List Bool) : Nat :=
  bs.foldl (fun c b =>
    let top := c.testBit (w - 1) != b
    let c := (c * 2) % 2 ^ w
    if top then c ^^^ poly else c) 0

def crc24a (bs : List Bool) : Nat := crcBits 24 0x864CFB bs
def crc24b (bs : List Bool) : Nat := crcBits 24 0x800063 bs
def crc16 (bs : List Bool) : Nat := crcBits 16 0x1021 bs

/-! ## Scrambling (TS 38.211 5.2.1) -/

/-- One step of the two shift registers. -/
def goldStep (x : Nat × Nat) : Nat × Nat :=
  let a := x.1
  let b := x.2
  let fa := (a.testBit 3) != (a.testBit 0)
  let fb := ((b.testBit 3) != (b.testBit 2)) != ((b.testBit 1) != (b.testBit 0))
  (a / 2 + (if fa then 2 ^ 30 else 0), b / 2 + (if fb then 2 ^ 30 else 0))

def goldRun : Nat → Nat × Nat → Nat × Nat
  | 0, x => x
  | n + 1, x => goldRun n (goldStep x)

def goldBits : Nat → Nat × Nat → List Bool
  | 0, _ => []
  | n + 1, x => (x.1.testBit 0 != x.2.testBit 0) :: goldBits n (goldStep x)

/-- The first `n` bits of the pseudo-random sequence of c_init. -/
def gold (cinit n : Nat) : List Bool := goldBits n (goldRun 1600 (1, cinit))

/-! ## Rate recovery (TS 38.212 5.4.2) -/

/-- A soft value as the decoders take it: −128 reads as −127. -/
def llr8 (v : Int) : Int := max (-127) (min 127 v)

/-- Soft values of one codeword put back in bit-selection order: position i of interleaver column j holds bit i + j·Q_m. -/
def deinterleave (qm : Nat) (f : Array Int) : List Int :=
  let n := f.size / max 1 qm
  (List.range qm).flatMap (fun j => (List.range n).map (fun i => f.getD (j + i * qm) 0))

/-- The circular buffer of a codeword filled from its soft values: repeated positions add, saturating to ±127. -/
def recover (r : List Byte) (e : List Int) : Array Int :=
  let ncb := jNcb r
  let rec go : Nat → Nat → List Int → Array Int → Array Int
    | 0, _, _, a => a
    | _, _, [], a => a
    | n + 1, j, x :: xs, a =>
      if jFiller r j then go n ((j + 1) % ncb) (x :: xs) a
      else go n ((j + 1) % ncb) xs (a.setIfInBounds j (llr8 (a.getD j 0 + x)))
  go (e.length * 2 + 2 * ncb * (e.length / max 1 (ncb - jK r + jK' r) + 1)) (jK0 r % max 1 ncb) e (Array.replicate ncb 0)

/-! ## The decoder (R288 to R290) -/

def clip8 (v : Int) : Int := max (-127) (min 127 v)
def sat10 (v : Int) : Int := max (-511) (min 511 v)

/-- The variables of one lifted check: for each entry (column, shift) of its row, column × Z + (z + shift) mod Z. -/
def checkVars (row : List (Nat × Nat)) (zz z : Nat) : List Nat := row.map (fun e => e.1 * zz + (z + e.2) % zz)

/-- The new message to each variable of a check, from the Q values. -/
def checkMsgs (q : List Int) : List Int :=
  q.zipIdx.map (fun x =>
    let o := (q.zipIdx.filter (fun y => y.2 != x.2)).map (·.1)
    let mn := o.foldl (fun m v => min m v.natAbs) 127
    let neg := o.foldl (fun b v => b != decide (v < 0)) false
    let v : Int := (3 * mn / 4 : Nat)
    if neg then -v else v)

/-- Posteriors and the check messages of one row. -/
abbrev LdpcSt := Array Int × Array (Array (List Int))

/-- One lifted check updated. -/
def checkStep (row : List (Nat × Nat)) (zz ri : Nat) (s : LdpcSt) (z : Nat) : LdpcSt :=
  let vs := checkVars row zz z
  let old := (s.2.getD ri #[]).getD z []
  let q := vs.zipIdx.map (fun x => clip8 (s.1.getD x.1 0 - old.getD x.2 0))
  let m := checkMsgs q
  let p := (vs.zip (q.zip m)).foldl (fun (p : Array Int) x => p.setIfInBounds x.1 (sat10 (x.2.1 + x.2.2))) s.1
  (p, s.2.modify ri (fun a => a.setIfInBounds z m))

/-- One iteration over rows 0 to m − 1. -/
def ldpcIter (rows : List (List (Nat × Nat))) (zz : Nat) (s : LdpcSt) : LdpcSt :=
  rows.zipIdx.foldl (fun s r => (List.range zz).foldl (checkStep r.1 zz r.2) s) s

def hardBits (p : Array Int) (n : Nat) : List Bool := (List.range n).map (fun v => decide (p.getD v 0 < 0))

/-- Whether every check of the rows holds. -/
def checksHold (rows : List (List (Nat × Nat))) (zz : Nat) (p : Array Int) : Bool :=
  rows.all (fun r => (List.range zz).all (fun z =>
    (checkVars r zz z).foldl (fun b v => b != decide (p.getD v 0 < 0)) false == false))

/-- Iterations until early termination or the limit: the iteration count and the bits. -/
def ldpcRun (rows : List (List (Nat × Nat))) (zz k' : Nat) (et single : Bool) : Nat → Nat → LdpcSt → Nat × List Bool
  | 0, it, s => (it, hardBits s.1 k')
  | n + 1, it, s =>
    let s := ldpcIter rows zz s
    let h := hardBits s.1 k'
    if et && checksHold rows zz s.1 && (single || crc24b h == 0) then (it + 1, h)
    else ldpcRun rows zz k' et single n (it + 1) s

/-- m: the active layers (R289) for a circular buffer. -/
def ldpcM (r : List Byte) (buf : Array Int) : Nat :=
  let c := (List.range buf.size).foldl (fun c j => if buf.getD j 0 != 0 then max c (2 + j / jZ r) else c) 0
  min (max 4 (c + 1 - jKb r)) (jRows r)

/-- The rows that are processed. -/
def ldpcRows (r : List Byte) (m : Nat) : List (List (Nat × Nat)) := (List.range m).map (Config.ldpcRow (jBg2 r) (jZ r))

/-- A codeword decoded from its circular buffer: the iteration count and its K′ bits. -/
def ldpcDecode (r : List Byte) (buf : Array Int) : Nat × List Bool :=
  let z := jZ r
  let m := ldpcM r buf
  let n := (jKb r + jRows r) * z
  let p : Array Int := ((List.range n).map (fun v =>
    if jK' r ≤ v && v < jK r then (511 : Int) else if v < 2 * z then 0 else buf.getD (v - 2 * z) 0)).toArray
  ldpcRun (ldpcRows r m) z (jK' r) (jEt r) (jC r == 1) (jIterMax r) 0 (p, Array.replicate m (Array.replicate z []))

/-- The beats a codeword costs (R290). -/
def decodeCost (iters m z e k ncb : Nat) (combining : Bool) : Nat :=
  iters * m * (ceilDiv z 16 + 1) + ceilDiv e 128 + ceilDiv k 128 + 6 + (if combining then ceilDiv ncb 128 else 0)

/-- The beats a PON codeword costs (R294). -/
def ponCost (iters : Nat) : Nat := iters * 72 + 40

/-- The beats a codeword costs to encode (R305). -/
def encodeCost (kb m z : Nat) : Nat := ceilDiv ((kb + m) * z) 128 + 24

/-! ## Transport blocks (R286, R291) -/

/-- The block of a job joined from its codewords' bits: the bits, and whether the TB CRC passes. -/
def joinBlock (r : List Byte) (cws : List (List Bool)) : List Bool × Bool :=
  let bs := (if jC r = 1 then cws.flatten else (cws.map (fun c => c.take (jK' r - 24))).flatten).take (jB r)
  (bs.take (jTbs r), (if jTbs r ≤ 3824 then crc16 bs else crc24a bs) == 0)

/-- Bits as bytes, the first bit the most significant. -/
def packBits : Nat → List Bool → List Byte
  | 0, _ => []
  | n + 1, bs =>
    BitVec.ofNat 8 ((List.range 8).foldl (fun v i => v * 2 + (if bs.getD i false then 1 else 0)) 0) :: packBits n (bs.drop 8)

/-- Buffers of a class that a block of `tbs` bits occupies. -/
def blockBufs (tbs size : Nat) : Nat := ceilDiv tbs (8 * 2 ^ size)

/-! ## The carrier record (Table CMO-3) -/

def cScs (r : List Byte) : Nat := recF r 0 0 2
def cModeB (r : List Byte) : Bool := recF r 0 2 1 == 1
def cBlank (r : List Byte) : Nat := recF r 0 4 1
def cFft (r : List Byte) : Nat := 256 * 2 ^ recF r 1 0 3
def cPrb (r : List Byte) : Nat := rec16 r 2
def cRxAnt (r : List Byte) : Nat := recF r 4 0 5
def cTxAnt (r : List Byte) : Nat := recF r 4 8 5
def cRx0 (r : List Byte) : Nat := recF r 6 0 4
def cTx0 (r : List Byte) : Nat := recF r 6 4 4
def cRxSet (r : List Byte) : Nat := recF r 7 0 4
def cTxSet (r : List Byte) : Nat := recF r 7 4 4
def cRxLane0 (r : List Byte) : Nat := recF r 8 0 4
def cTxLane0 (r : List Byte) : Nat := recF r 8 4 4
def cUlPorts (r : List Byte) : Nat := recF r 9 0 4
def cRbd (r : List Byte) : Nat := rec16 r 10
def cTxAdv (r : List Byte) : Nat := rec32 r 12
def cPeriod (r : List Byte) : Nat := rec8 r 16
def cTxLead (r : List Byte) : Nat := rec16 r 18
def cTapClass (r : List Byte) (t : Nat) : Nat := recF r (20 + t) 0 5
def cTbClass (r : List Byte) : Nat := recF r 23 0 5
def cHarqClass (r : List Byte) : Nat := recF r 24 0 5
def cBlankAddr (r : List Byte) : Nat := recF r 32 0 46

/-- The sample rate in kilosamples per second: SCS × N_FFT. -/
def cRate (r : List Byte) : Nat := 15 * 2 ^ cScs r * cFft r

/-! ## Job lists -/

/-- Records of a fixed size in a run of bytes. -/
def recordsOf (sz : Nat) (b : List Byte) : List (List Byte) :=
  (List.range (b.length / sz)).map (fun i => slice b (sz * i) sz)

/-- The job records of a list (R255). -/
def jobRecs (b : List Byte) : List (List Byte) := recordsOf 48 (slice b 16 (48 * rec16 b 0))

/-- Bytes of a grid job's region: [symbol][subcarrier][antenna] CQ16. -/
def gridBytes (r : List Byte) (ants : Nat) : Nat := jNsym r * jPrbs r * 12 * ants * 4

/-- Bytes of a job's source block or grid in the TB class. -/
def srcBytes (r cr : List Byte) : Nat := if jKind r = 0 then jTbs r / 8 else gridBytes r (cTxAnt cr)

/-- The handles of each downlink job's source (R286): the job's HANDLE, then its share of the continuation table. -/
def srcHandles (cr : List Byte) (size : Nat) (b : List Byte) : List (List Nat) :=
  let recs := jobRecs b
  let start := (16 + 48 * recs.length + 63) / 64 * 64
  (recs.foldl (fun (a : Nat × List (List Nat)) r =>
    let n := ceilDiv (srcBytes r cr) (2 ^ size) - 1
    (a.1 + 4 * n, a.2 ++ [jHandle r :: (List.range n).map (fun i => rec32 b (a.1 + 4 * i))])) (start, [])).2

end Sys2Proof.Machine
end

