-- ==== Sys2Proof/Machine/Numeric.lean ====
section
/-! DEFINITION. Number formats and arithmetic (chapter Number Formats and Arithmetic Rules): exact dyadic values, one
rounding to nearest even per operation, conversions, requantisation and saturation counts. -/

namespace Sys2Proof.Machine

/-- A floating value: NaN, an infinity, or sign × m × 2^e. -/
inductive FVal where
  | nan
  | inf (neg : Bool)
  | fin (neg : Bool) (m : Nat) (e : Int)
deriving DecidableEq, Repr, Inhabited

/-- An element: an integer or a floating value. -/
inductive Val where
  | int (v : Int)
  | flt (v : FVal)
deriving DecidableEq, Repr

/-- m / 2^k rounded to nearest, ties to even (R102). -/
def rneNat (m k : Nat) : Nat :=
  let q := m / 2 ^ k
  let r := 2 * (m % 2 ^ k)
  if r > 2 ^ k || (r == 2 ^ k && q % 2 == 1) then q + 1 else q

/-- p / 2^k rounded to nearest, ties to even, for an integer (R102, R105). -/
def rneInt (p : Int) (k : Nat) : Int :=
  if p < 0 then -(rneNat p.natAbs k : Int) else rneNat p.natAbs k

/-- m × 2^e rounded to p significant bits with least exponent emin. -/
def roundDyadic (p : Nat) (emin : Int) (m : Nat) (e : Int) : Nat × Int :=
  if m = 0 then (0, emin)
  else
    let e' := max emin (e + (Nat.log2 m + 1 : Nat) - p)
    if e' ≤ e then (m * 2 ^ (e - e').toNat, e')
    else
      let m' := rneNat m (e' - e).toNat
      if m' = 2 ^ p then (2 ^ (p - 1), e' + 1) else (m', e')

/-- A binary format: exponent bits, mantissa bits, bias, whether E all ones encodes infinity and NaN (Table NUM-1). -/
structure FFmt where
  eb : Nat
  mb : Nat
  bias : Nat
  ieee : Bool
deriving DecidableEq, Repr

def fE4M3 : FFmt := ⟨4, 3, 7, false⟩
def fE5M2 : FFmt := ⟨5, 2, 15, true⟩
def fFP16 : FFmt := ⟨5, 10, 15, true⟩
def fBF16 : FFmt := ⟨8, 7, 127, true⟩
def fFP32 : FFmt := ⟨8, 23, 127, true⟩
def fE2M1 : FFmt := ⟨2, 1, 1, false⟩

/-- The exponent of the least subnormal. -/
def FFmt.emin (f : FFmt) : Int := 1 - (f.bias : Int) - f.mb

/-- The largest finite magnitude as (m, e): E4M3 and E2M1 use the top exponent for values. -/
def FFmt.top (f : FFmt) : Nat × Int :=
  if f.ieee then (2 ^ (f.mb + 1) - 1, (2 ^ f.eb - 2 : Nat) - (f.bias : Int) - f.mb)
  else if f.mb = 3 then (14, 8 - 3)
  else (3, 1)

/-- The value of a bit pattern (Table NUM-1, R91, R99). -/
def FFmt.dec (f : FFmt) (b : Nat) : FVal :=
  let neg := b.testBit (f.eb + f.mb)
  let e := bitsOf b f.mb f.eb
  let m := bitsOf b 0 f.mb
  if f.ieee && e == 2 ^ f.eb - 1 then (if m = 0 then .inf neg else .nan)
  else if f.mb = 3 && e == 15 && m == 7 then .nan
  else if e = 0 then .fin neg m f.emin
  else .fin neg (2 ^ f.mb + m) (f.emin + (e - 1 : Nat))

/-- The canonical NaN (R91). -/
def FFmt.nanBits (f : FFmt) : Nat :=
  if f.ieee then (2 ^ f.eb - 1) * 2 ^ f.mb + 2 ^ (f.mb - 1) else 2 ^ (f.eb + f.mb) - 1

/-- Whether m × 2^e is beyond (m', e'). -/
def dyGt (m : Nat) (e : Int) (m' : Nat) (e' : Int) : Bool :=
  if e ≤ e' then decide (m > m' * 2 ^ (e' - e).toNat) else decide (m * 2 ^ (e - e').toNat > m')

/-- Round a value to a format, as a value; overflow becomes an infinity. -/
def FFmt.round (f : FFmt) : FVal → FVal
  | .fin neg m e =>
    let r := roundDyadic (f.mb + 1) f.emin m e
    if dyGt r.1 r.2 f.top.1 f.top.2 then .inf neg else .fin neg r.1 r.2
  | v => v

/-- The bits of a value already rounded to the format. -/
def FFmt.enc (f : FFmt) : FVal → Nat
  | .nan => f.nanBits
  | .inf neg => (if neg then 2 ^ (f.eb + f.mb) else 0) + (2 ^ f.eb - 1) * 2 ^ f.mb
  | .fin neg m e =>
    let s := if neg then 2 ^ (f.eb + f.mb) else 0
    let r := roundDyadic (f.mb + 1) f.emin m e
    if r.1 < 2 ^ f.mb then s + r.1
    else s + ((r.2 - f.emin).toNat + 1) * 2 ^ f.mb + (r.1 - 2 ^ f.mb)

/-- Round to FP32. -/
def f32 (v : FVal) : FVal := fFP32.round v

/-- A dyadic integer value n × 2^e; an exact 0 is +0 (R98). -/
def FVal.ofInt (n : Int) (e : Int := 0) : FVal := .fin (decide (n < 0)) n.natAbs e

/-- Signed mantissa. -/
def sgn (neg : Bool) (m : Nat) : Int := if neg then -(m : Int) else m

def FVal.neg : FVal → FVal
  | .nan => .nan
  | .inf n => .inf (!n)
  | .fin n m e => .fin (!n) m e

/-- The exact sum of two finite values. -/
def dySum (a : Int) (ea : Int) (b : Int) (eb : Int) : Int × Int :=
  let e := min ea eb
  (a * (2 ^ (ea - e).toNat : Nat) + b * (2 ^ (eb - e).toNat : Nat), e)

/-- The exact product (R97). -/
def FVal.mulX : FVal → FVal → FVal
  | .nan, _ => .nan
  | _, .nan => .nan
  | .inf a, .inf b => .inf (a != b)
  | .inf a, .fin b m _ => if m = 0 then .nan else .inf (a != b)
  | .fin a m _, .inf b => if m = 0 then .nan else .inf (a != b)
  | .fin a m e, .fin b n k => .fin (a != b) (m * n) (e + k)

/-- The exact sum, IEEE signs of zero under rounding to nearest. -/
def FVal.addX : FVal → FVal → FVal
  | .nan, _ => .nan
  | _, .nan => .nan
  | .inf a, .inf b => if a = b then .inf a else .nan
  | .inf a, .fin .. => .inf a
  | .fin .., .inf b => .inf b
  | .fin a m e, .fin b n k =>
    if m = 0 && n = 0 then .fin (a && b) 0 0
    else
      let r := dySum (sgn a m) e (sgn b n) k
      FVal.ofInt r.1 r.2

/-- FP32 operations, one rounding each (R110). -/
def fadd (a b : FVal) : FVal := f32 (a.addX b)
def fsub (a b : FVal) : FVal := f32 (a.addX b.neg)
def fmul (a b : FVal) : FVal := f32 (a.mulX b)
def fma (a b c : FVal) : FVal := f32 ((a.mulX b).addX c)

/-- Order of two values that are not NaN; −0.0 below +0.0 only in `fltZ`. -/
def FVal.lt : FVal → FVal → Bool
  | .inf a, .inf b => a && !b
  | .inf a, .fin .. => a
  | .fin .., .inf b => !b
  | .fin a m e, .fin b n k => let r := dySum (sgn a m) e (-(sgn b n)) k; decide (r.1 < 0)
  | _, _ => false

def FVal.isNan : FVal → Bool
  | .nan => true
  | _ => false

def FVal.isZero : FVal → Bool
  | .fin _ m _ => m == 0
  | _ => false

def FVal.sign : FVal → Bool
  | .nan => false
  | .inf n => n
  | .fin n _ _ => n

/-- Equal as numbers. -/
def FVal.eqv (a b : FVal) : Bool := !a.isNan && !b.isNan && !a.lt b && !b.lt a

/-- min and max of R110: NaN for any NaN, −0.0 below +0.0. -/
def fmin (a b : FVal) : FVal :=
  if a.isNan || b.isNan then .nan
  else if a.lt b then a else if b.lt a then b
  else if a.sign then a else b

def fmax (a b : FVal) : FVal :=
  if a.isNan || b.isNan then .nan
  else if a.lt b then b else if b.lt a then a
  else if a.sign then b else a

/-- ReLU (R110). -/
def frelu (x : FVal) : FVal :=
  if x.isNan then .nan else if (FVal.fin false 0 0).lt x then x else .fin false 0 0

/-- The predicates of a compare (Table HEA-13 CMP, R110). -/
def fcmp (cmp : Nat) (a b : FVal) : Bool :=
  match cmp with
  | 0 => a.eqv b
  | 1 => !a.eqv b
  | 2 => !a.isNan && !b.isNan && a.lt b
  | 3 => !a.isNan && !b.isNan && !b.lt a
  | 4 => !a.isNan && !b.isNan && b.lt a
  | _ => !a.isNan && !b.isNan && !a.lt b

def icmp (cmp : Nat) (a b : Int) : Bool :=
  match cmp with
  | 0 => decide (a = b)
  | 1 => decide (a ≠ b)
  | 2 => decide (a < b)
  | 3 => decide (a ≤ b)
  | 4 => decide (b < a)
  | _ => decide (b ≤ a)

/-- An integer wrapped to a signed width (R100, R111). -/
def wrapInt (v : Int) (w : Nat) : Int := sext (toBits v w) w

/-! ## Element formats (Table STR-2) -/

/-- Width of an element in bits. -/
def fmtBits (fmt : Nat) : Nat :=
  match fmt with
  | 0 => 4 | 1 => 8 | 2 => 16 | 3 => 8 | 4 => 8 | 5 => 16 | 6 => 16 | 7 => 32 | 8 => 4 | 9 => 8
  | 10 => 32 | 11 => 16 | 12 => 32 | 13 => 64 | _ => 8

/-- Whether a format is floating, a real integer, or complex in one word. -/
def fmtFloat (fmt : Nat) : Bool := decide (3 ≤ fmt) && decide (fmt ≤ 8)
def fmtInt (fmt : Nat) : Bool := decide (fmt ≤ 2) || fmt == 12 || fmt == 13
def fmtCplx (fmt : Nat) : Bool := fmt == 10 || fmt == 11

/-- The binary format of a floating code. -/
def fmtOf (fmt : Nat) : FFmt :=
  match fmt with
  | 3 => fE4M3 | 4 => fE5M2 | 5 => fFP16 | 6 => fBF16 | 8 => fE2M1 | _ => fFP32

/-- A real element from its bits. -/
def decEl (fmt bits : Nat) : Val :=
  if fmtFloat fmt then .flt ((fmtOf fmt).dec bits) else .int (sext bits (fmtBits fmt))

/-- The real and imaginary parts of a complex word (R94). -/
def cplxParts (fmt bits : Nat) : Int × Int :=
  let w := fmtBits fmt / 2
  (sext (bitsOf bits 0 w) w, sext (bitsOf bits w w) w)

/-- Bits of element (r, c) of a dense tensor with `cols` elements a row; a row of 4-bit elements is padded to whole bytes
(R90, R705). -/
def elBits (a : Array Byte) (fmt cols r c : Nat) : Nat :=
  let w := fmtBits fmt
  if w = 4 then
    let b := (a.getD (r * ((cols + 1) / 2) + c / 2) 0).toNat
    if c % 2 = 0 then b % 16 else b / 16
  else
    let o := (r * cols + c) * (w / 8)
    leNat ((List.range (w / 8)).map (fun i => a.getD (o + i) 0))

/-- Bytes of a tensor of rows × cols elements. -/
def tensorBytes (fmt rows cols : Nat) : Nat := rows * ((cols * fmtBits fmt + 7) / 8)

/-- Bytes of a row-major list of element bits. -/
def packEls (fmt cols : Nat) (els : List Nat) : List Byte :=
  let w := fmtBits fmt
  if w = 4 then
    let row (l : List Nat) : List Byte :=
      (List.range ((cols + 1) / 2)).map (fun i => BitVec.ofNat 8 (l.getD (2 * i) 0 % 16 + 16 * (l.getD (2 * i + 1) 0 % 16)))
    (List.range (if cols = 0 then 0 else els.length / cols)).flatMap (fun r => row ((els.drop (r * cols)).take cols))
  else els.flatMap (leBytes (w / 8))

/-! ## Conversion, requantisation and saturation -/

/-- Parameters of a conversion: M, S, Z, the FP32 scale bits, SAT and SYM. -/
structure QPar where
  m : Int
  s : Nat
  z : Int
  scale : Nat
  sat : Bool
  sym : Bool
deriving DecidableEq, Repr

/-- The identity parameters of R105. -/
def QPar.id (sat sym : Bool) : QPar := ⟨1, 0, 0, 0, sat, sym⟩

/-- Clamp to a signed width (R105): the value and whether it was clamped. -/
def clampW (y : Int) (w : Nat) (sym : Bool) : Int × Bool :=
  let hi : Int := (2 ^ (w - 1) : Nat) - 1
  let lo : Int := if sym then -hi else -hi - 1
  if y < lo then (lo, true) else if y > hi then (hi, true) else (y, false)

/-- Integer requantisation (R105). -/
def reqInt (acc : Int) (q : QPar) (w : Nat) : Int × Bool := clampW (rneInt (acc * q.m) q.s + q.z) w q.sym

/-- A floating value to an integer format (R104): NaN becomes 0 and counts. -/
def floatToInt (v : FVal) (w : Nat) : Int × Bool :=
  let hi : Int := (2 ^ (w - 1) : Nat) - 1
  match v with
  | .nan => (0, true)
  | .inf n => (if n then -hi - 1 else hi, true)
  | .fin n m e =>
    let r := if 0 ≤ e then m * 2 ^ e.toNat else rneNat m (-e).toNat
    clampW (sgn n r) w false

/-- The value as FP32 after the scale of R106. -/
def scaled (v : Val) (scale : Nat) : FVal :=
  let f := match v with
    | .int n => f32 (FVal.ofInt n)
    | .flt f => f
  if scale = 0 then f else fmul f (fFP32.dec scale)

/-- A value to a floating format (R103): the bits and whether it counts as a saturation (R109). -/
def narrow (fmt : Nat) (v : FVal) (sat : Bool) : Nat × Bool :=
  let f := fmtOf fmt
  let top (n : Bool) : Nat := f.enc (.fin n f.top.1 f.top.2)
  match v with
  | .nan => (f.nanBits, false)
  | .inf n =>
    if fmt = 7 then (f.enc v, false)
    else if sat then (top n, true)
    else if fmt = 3 then (f.nanBits, false) else (f.enc (.inf n), false)
  | .fin n _ _ =>
    match f.round v with
    | .inf _ => (if sat || fmt == 3 then top n else f.enc (.inf n), true)
    | r => (f.enc r, false)

/-- A value to an output format other than MXFP4 (R105, R106): the bits and the saturations (0 or 1). -/
def convEl (fmt : Nat) (v : Val) (q : QPar) : Nat × Nat :=
  if fmtFloat fmt then
    let r := narrow fmt (scaled v q.scale) q.sat
    (r.1, if r.2 then 1 else 0)
  else
    let w := if fmtCplx fmt then fmtBits fmt / 2 else fmtBits fmt
    match v with
    | .int n =>
      if q.scale = 0 then
        let r := reqInt n q w
        (toBits r.1 w, if r.2 then 1 else 0)
      else
        let a := floatToInt (scaled v q.scale) w
        let b := clampW (a.1 + q.z) w q.sym
        (toBits b.1 w, if a.2 || b.2 then 1 else 0)
    | .flt _ =>
      let a := floatToInt (scaled v q.scale) w
      let b := clampW (a.1 + q.z) w q.sym
      (toBits b.1 w, if a.2 || b.2 then 1 else 0)

/-- The nearest E2M1 code of a finite value, ties to even, saturated to 6 (R108): code and whether it was clamped. -/
def e2m1 (v : FVal) : Nat × Bool :=
  match v with
  | .fin n _ _ =>
    match fE2M1.round v with
    | .inf _ => ((if n then 8 else 0) + 7, true)
    | r => (fE2M1.enc r, false)
  | _ => (0, false)

/-- floor(log2) of a finite nonzero magnitude. -/
def floorLog2 (m : Nat) (e : Int) : Int := e + (Nat.log2 m : Nat)

/-- Quantise a block of 32 FP32 values to MXFP4 (R108): scale byte, element codes, saturations. -/
def mxBlock (vs : List FVal) : Nat × List Nat × Nat :=
  if vs.any (fun v => match v with | .fin .. => false | _ => true) then (255, vs.map (fun _ => 0), 0)
  else
    let logs := vs.filterMap (fun v => match v with
      | .fin _ m e => if m = 0 then none else some (floorLog2 m e)
      | _ => none)
    match logs with
    | [] => (0, vs.map (fun _ => 0), 0)
    | l :: ls =>
      let x := (min 254 (max 0 (ls.foldl max l - 2 + 127))).toNat
      let cs := vs.map (fun v => match v with
        | .fin n m e => e2m1 (.fin n m (e + 127 - (x : Int)))
        | _ => (0, false))
      (x, cs.map (·.1), (cs.filter (·.2)).length)

/-! ## Cube step sums (R95, R97) -/

/-- The exact sum of a step's products. -/
def sumX (ps : List FVal) : FVal :=
  if ps.any (·.isNan) then .nan
  else
    let pos := ps.any (fun v => v == .inf false)
    let neg := ps.any (fun v => v == .inf true)
    if pos && neg then .nan else if pos then .inf false else if neg then .inf true
    else
      let r := ps.foldl (fun (a : Int × Int) v => match v with
        | .fin n m e => dySum a.1 a.2 (sgn n m) e
        | _ => a) (0, 0)
      FVal.ofInt r.1 r.2

/-- A floating step sum rounded once to FP32. -/
def stepSum (ps : List FVal) : FVal := f32 (sumX ps)

/-- An MXFP4 step: the element sum scaled by the two block scales, rounded once (R95, R97). -/
def mxStep (ps : List FVal) (xa xb : Nat) : FVal :=
  if xa = 255 || xb = 255 then .nan
  else match sumX ps with
    | .fin n m e => f32 (.fin n m (e + xa + xb - 254))
    | v => v

/-- The BF16 parts of an FP32 value (R77). -/
def splitHi (a : FVal) : FVal :=
  match a with
  | .fin n _ _ => match fBF16.round a with
    | .inf _ => .fin n fBF16.top.1 fBF16.top.2
    | v => v
  | v => v

def splitLo (a : FVal) : FVal :=
  match a with
  | .fin .. => fBF16.round (a.addX (splitHi a).neg)
  | _ => .fin false 0 0

/-! ## Lookup (R71, R707) and reductions (R72) -/

/-- Whether x ≤ n, x ≥ n for an integer n. -/
def leN (x : FVal) (n : Nat) : Bool := !(FVal.ofInt n).lt x
def geN (x : FVal) (n : Nat) : Bool := !x.lt (FVal.ofInt n)

/-- floor of a finite nonnegative value. -/
def floorNat : FVal → Nat
  | .fin _ m e => if 0 ≤ e then m * 2 ^ e.toNat else m / 2 ^ (-e).toNat
  | _ => 0

/-- The lookup of R71 on a table of 1,025 FP32 words, base and inv_step. -/
def lookup (t : Array Nat) (base inv : Nat) (x : FVal) : FVal :=
  let at_ (i : Nat) : FVal := fFP32.dec (t.getD i 0)
  if x.isNan then .nan
  else
    let x1 := fmul (fsub x (fFP32.dec base)) (fFP32.dec inv)
    if x1.isNan then .nan
    else if leN x1 0 then at_ 0
    else if geN x1 1024 then at_ 1024
    else
      let i := floorNat x1
      let f := x1.addX (FVal.ofInt i).neg
      fma (fsub (at_ (i + 1)) (at_ i)) f (at_ i)

def fOne : FVal := .fin false 1 0
def fHalf : FVal := .fin false 1 (-1)

/-- Reciprocal (R707). -/
def recip (t : Array Nat) (base inv : Nat) (x : FVal) : FVal :=
  match x with
  | .nan => .nan
  | .inf n => .fin n 0 0
  | .fin n m _ =>
    if m = 0 then .inf n
    else
      let y0 := lookup t base inv x
      let e := fma x.neg y0 fOne
      fma y0 e y0

/-- Reciprocal square root (R707). -/
def rsqrt (t : Array Nat) (base inv : Nat) (x : FVal) : FVal :=
  match x with
  | .nan => .nan
  | .inf n => if n then .nan else .fin false 0 0
  | .fin n m _ =>
    if m = 0 then .inf n
    else if n then .nan
    else
      let y0 := lookup t base inv x
      let tt := fmul y0 y0
      let e := fma x.neg tt fOne
      fma (fmul fHalf y0) e y0

/-- One level of the pairwise tree. -/
def pairLevel : List FVal → List FVal
  | a :: b :: r => fadd a b :: pairLevel r
  | l => l

/-- The pairwise sum of one group of 32 (R72). -/
def groupSum (l : List FVal) : FVal :=
  let p := l ++ List.replicate (32 - l.length) (FVal.fin false 0 0)
  (pairLevel (pairLevel (pairLevel (pairLevel (pairLevel p))))).headD (.fin false 0 0)

/-- Groups of 32 consecutive elements; the count bounds the recursion. -/
def groups32 : Nat → List FVal → List (List FVal)
  | 0, _ => []
  | n + 1, l => if l.isEmpty then [] else l.take 32 :: groups32 n (l.drop 32)

/-- The floating sum of R72. -/
def floatSum (l : List FVal) : FVal :=
  match (groups32 l.length l).map groupSum with
  | [] => .fin false 0 0
  | g :: gs => gs.foldl fadd g

end Sys2Proof.Machine
end

