-- ==== Sys2Proof/Machine/Program.lean ====
section
/-! DEFINITION. The Lemrel container and the Heat descriptor read field by field (Tables HEA-1 to HEA-9), and where a tensor
of a Heat lies. -/

namespace Sys2Proof.Machine

/-! ## The container -/

/-- The section table: TYPE, OFFSET, SIZE of each entry (R175). -/
def sections (img : List Byte) : List (Nat × Nat × Nat) :=
  (List.range (rec16 img 12)).map (fun i =>
    let e := slice img (rec32 img 32 + 16 * i) 16
    (rec16 e 0, rec32 e 4, rec32 e 8))

/-- The bytes of the section of a type; none where the container has no such section. -/
def secBytes (img : List Byte) (t : Nat) : Option (List Byte) :=
  ((sections img).find? (fun x => x.1 == t)).map (fun x => slice img x.2.1 x.2.2)

def sectionOf (img : List Byte) (t : Nat) : List Byte := (secBytes img t).getD []

def progOps (img : List Byte) : List (List Byte) := recordsOf 64 (sectionOf img 1)
def progTensors (img : List Byte) : List (List Byte) := recordsOf 16 (sectionOf img 2)
def progTemplates (img : List Byte) : List (List Byte) := recordsOf 64 (sectionOf img 5)
def progSegs (img : List Byte) : List (List Byte) := recordsOf 16 (sectionOf img 6)
def progTaps (img : List Byte) : List (List Byte) := recordsOf 16 (sectionOf img 7)

/-- The entries of one virtual Lane, in table order (R179). -/
def laneOps (img : List Byte) (v : Nat) : List (List Byte) :=
  (progOps img).filter (fun e => recF e 1 0 3 == v)

def progLanes (img : List Byte) : Nat := recF img 24 0 4

/-- The relay plans: each a hop count and its hops of four bytes (R134); the count bounds the recursion. -/
def relayPlansFrom : Nat → List Byte → List (List (List Byte))
  | 0, _ => []
  | n + 1, b => if b.length < 2 then []
    else recordsOf 4 (slice b 2 (4 * rec16 b 0)) :: relayPlansFrom n (b.drop (2 + 4 * rec16 b 0))

def relayPlans (img : List Byte) : List (List (List Byte)) :=
  relayPlansFrom (sectionOf img 8).length (sectionOf img 8)

/-- Lookup tables per virtual Lane, and one of them: 1,025 FP32 words, base and inv_step (R71, R176). -/
def lutCount (img : List Byte) : Nat := (sectionOf img 4).length / (4108 * max 1 (progLanes img))

def lutOf (img : List Byte) (v t : Nat) : Array Nat × Nat × Nat :=
  let b := slice (sectionOf img 4) ((v * lutCount img + t) * 4108) 4108
  (((List.range 1025).map (fun i => rec32 b (4 * i))).toArray, rec32 b 4100, rec32 b 4104)

/-! ## Fields of a lane-operation entry (Table HEA-4) -/

def eOp (e : List Byte) : Nat := rec8 e 0
def eVl (e : List Byte) : Nat := recF e 1 0 3
def eFlag (e : List Byte) (b : Nat) : Bool := recF e 2 b 1 == 1
def eLastK (e : List Byte) : Bool := eFlag e 0
def eRel (e : List Byte) : Bool := eFlag e 1
def eSat (e : List Byte) : Bool := eFlag e 2
def eSym (e : List Byte) : Bool := eFlag e 3
def ePercol (e : List Byte) : Bool := eFlag e 4
def eBias (e : List Byte) : Bool := eFlag e 5
def ePlan (e : List Byte) : Nat := recF e 4 0 4
def eFn (e : List Byte) : Nat := recF e 4 4 4
def eFmtA (e : List Byte) : Nat := recF e 5 0 4
def eFmtB (e : List Byte) : Nat := recF e 5 4 4
def eFmtO (e : List Byte) : Nat := recF e 6 0 4
def eLut (e : List Byte) : Nat := recF e 6 4 2
def eCmp (e : List Byte) : Nat := recF e 7 0 3
def eM (e : List Byte) : Nat := rec16 e 8
def eN (e : List Byte) : Nat := rec16 e 10
def eK (e : List Byte) : Nat := rec32 e 12
def eTA (e : List Byte) : Nat := rec16 e 16
def eTB (e : List Byte) : Nat := rec16 e 18
def eTO (e : List Byte) : Nat := rec16 e 20
def eTC (e : List Byte) : Nat := rec16 e 22
def ePT (e : List Byte) : Nat := rec16 e 36
def eDesc (e : List Byte) : Nat := rec16 e 38
def eTok (e : List Byte) : Nat := rec16 e 40
def eSeg (e : List Byte) : Nat := rec8 e 42

/-- The per-tensor conversion parameters of an entry. -/
def eQ (e : List Byte) : QPar :=
  ⟨sext (rec32 e 24) 32, recF e 28 0 6, sext (rec16 e 30) 16, rec32 e 32, eSat e, eSym e⟩

/-- The parameters of column `n` from the per-column records of R705. -/
def colQ (e : List Byte) (p : List Byte) (n : Nat) : QPar :=
  let r := slice p (16 * n) 16
  ⟨sext (rec32 r 0) 32, rec8 r 4 % 64, sext (rec16 r 8) 16, rec32 r 12, eSat e, eSym e⟩

/-! ## The Heat descriptor (Table HEA-9) -/

def Heat.finish (h : Heat) : Nat := rec64 h.desc 8
def Heat.splitAt (h : Heat) (t : Nat) : Nat := rec64 h.desc (16 + 8 * t)
def Heat.report (h : Heat) : Nat := rec64 h.desc 40
def Heat.sfn (h : Heat) : Nat := recF h.desc 48 0 10
def Heat.subframe (h : Heat) : Nat := recF h.desc 48 10 4
def Heat.nrSlot (h : Heat) : Nat := recF h.desc 48 14 3
def Heat.carrier (h : Heat) : Nat := recF h.desc 48 17 2
def Heat.radio (h : Heat) : Bool := recF h.desc 48 19 1 == 1
def Heat.downlink (h : Heat) : Bool := recF h.desc 48 20 1 == 1
def Heat.wdUs (h : Heat) : Nat := if rec32 h.desc 52 = 0 then 2000 else rec32 h.desc 52
def Heat.uplinkRadio (h : Heat) : Bool := h.radio && !h.downlink

/-- The split time of a tap; the finish line when the descriptor gives 0 (R266). -/
def Heat.split (h : Heat) (t : Nat) : Nat := if h.splitAt t = 0 then h.finish else h.splitAt t

/-- The order of R193: the earliest finish line first, then Heats without one in admission order. -/
def before (a b : Heat) : Bool :=
  if a.finish = 0 then b.finish == 0 && decide (a.seq < b.seq)
  else b.finish == 0 || decide (a.finish < b.finish) || (a.finish == b.finish && decide (a.seq < b.seq))

def State.heat (s : State) (slot : Nat) : Option Heat := vget s.heats slot

def State.setHeat (s : State) (slot : Nat) (h : Heat) : State := { s with heats := vset s.heats slot (some h) }

def State.modHeat (s : State) (slot : Nat) (f : Heat → Heat) : State :=
  match s.heat slot with
  | some h => s.setHeat slot (f h)
  | none => s

/-- A Heat in flight, from admission until its slot is free (R192), with its slot. -/
def State.heatList (s : State) : List (Nat × Heat) :=
  (List.range 32).filterMap (fun i => (s.heat i).map (fun h => (i, h)))

def State.prog? (s : State) (handle : Nat) : Option Prog := s.progs.find? (fun p => p.handle == handle)

/-- Whether a Heat is admitted and not yet committed. -/
def Heat.live (h : Heat) : Bool := h.st = .admitted || h.st = .running

/-- The image of a Heat's program. -/
def State.imageOf (s : State) (h : Heat) : List Byte := ((s.prog? h.prog).map (·.image)).getD []

/-- The physical Lane of a virtual Lane. -/
def State.laneOf (s : State) (h : Heat) (v : Nat) : Nat :=
  ((s.prog? h.prog).bind (fun p => p.lanes[v]?)).getD 8

/-- Where a tensor of a Heat lies at admission: address and length of each piece in order (R178, R263). -/
def State.resolveTensor (s : State) (h : Heat) (idx : Nat) : List (Nat × Nat) :=
  match s.prog? h.prog with
  | none => []
  | some p =>
    let t := (progTensors p.image).getD idx []
    let size := rec32 t 4
    let off := rec64 t 8
    let v := recF t 1 0 4
    let mems (hs : List Nat) : List (Nat × Nat) := hs.filterMap s.handleMem
    match recF t 0 0 3 with
    | 0 => [((if v = 15 then p.fieldBase else p.resBase.getD v 0) + off, size)]
    | 1 => (mems ((h.acts.filter (fun a => a.1 == idx)).map (·.2))).map (fun x => (x.1, min size x.2))
    | 2 =>
      match h.binds.find? (fun b => rec16 b 0 == rec16 t 2) with
      | none => []
      | some b => if rec8 b 2 = 0 then (mems [rec32 b 8]).map (fun x => (x.1, min size x.2))
        else [(recF b 8 0 46, size)]
    | 3 => mems ((h.taps.getD (recF ((progTaps p.image).getD (rec16 t 2) []) 0 0 2) {}).inBufs)
    | 4 => mems ((h.taps.getD (recF ((progTaps p.image).getD (rec16 t 2) []) 0 0 2) {}).outBufs)
    | _ => []

/-- Where a tensor of a Heat lies, as resolved when the Heat was admitted (R178). -/
def Heat.tensorLoc (h : Heat) (idx : Nat) : List (Nat × Nat) := h.locs.getD idx []

/-- Read the first `n` bytes of a tensor; none where a word is uncorrectable (R145). -/
def State.readLoc (s : State) : List (Nat × Nat) → Nat → Option (List Byte) × State
  | [], n => (some (List.replicate n 0), s)
  | (a, l) :: r, n =>
    let k := min n l
    let x := s.readMem a k
    if n ≤ k then x
    else
      let y := x.2.readLoc r (n - k)
      match x.1, y.1 with
      | some p, some q => (some (p ++ q), y.2)
      | _, _ => (none, y.2)

/-- Write bytes from the start of a tensor. -/
def State.writeLoc (s : State) (user : Nat) : List (Nat × Nat) → List Byte → State
  | [], _ => s
  | (a, l) :: r, bs =>
    let s := s.deliver user a (bs.take l)
    if bs.length ≤ l then s else s.writeLoc user r (bs.drop l)

end Sys2Proof.Machine
end

