-- ==== Sys2Proof/Machine/Stream.lean ====
section
/-! DEFINITION. Streams, double buffering and the Baton chain (R112 to R139): descriptors, admission checks, transfers and
their tokens. -/

namespace Sys2Proof.Machine

/-! ## Descriptor fields (Tables STR-1 and STR-3) -/

def dSrc (d : List Byte) : Nat := recF d 0 0 52
def dSrcGlobal (d : List Byte) : Bool := recF d 0 52 1 == 1
def dDst (d : List Byte) : Nat := recF d 8 0 52
def dDstGlobal (d : List Byte) : Bool := recF d 8 52 1 == 1
def dStride (d : List Byte) (n : Nat) : Int := sext (rec32 d (16 + 8 * n)) 32
def dCount (d : List Byte) (n : Nat) : Nat := rec16 d (20 + 8 * n) + 1
def dKind (d : List Byte) : Nat := recF d 56 0 2
def dFmt (d : List Byte) : Nat := recF d 56 2 4
def dOrd (d : List Byte) : Bool := recF d 56 10 1 == 1
def dPair (d : List Byte) : Bool := recF d 56 11 1 == 1
def dMirror (d : List Byte) : Bool := recF d 56 12 1 == 1
def dToken (d : List Byte) : Nat := rec16 d 58
def dPairOff (d : List Byte) : Nat := recF d 60 0 24
def dMembers (d : List Byte) : Nat := recF d 60 0 8
def dHead (d : List Byte) : Nat := recF d 60 8 3
def dRelayEn (d : List Byte) : Bool := recF d 60 11 1 == 1
def dRelayPlan (d : List Byte) : Nat := recF d 60 12 8

/-- The bytes an element of dimension 0 moves: 1 for the 4-bit formats, whose counts count bytes (R117). -/
def dWidth (d : List Byte) : Nat := max 1 (fmtBits (dFmt d) / 8)

/-- Reserved fields hold 0 (R11). -/
def dReservedOk (d : List Byte) : Bool :=
  recF d 0 53 11 == 0 && recF d 8 53 11 == 0 &&
  (List.range 5).all (fun n => rec16 d (22 + 8 * n) == 0) && recF d 56 13 3 == 0 &&
  (if dKind d = 0 then rec8 d 63 == 0 && (dPair d || dPairOff d == 0) else rec8 d 63 / 16 == 0) &&
  (dSrcGlobal d || decide (dSrc d < 2 ^ 46)) && (dDstGlobal d || decide (dDst d < 2 ^ 46))

/-- The dimension that pairing splits into chunks: the outermost whose count exceeds 1. -/
def dChunkDim (d : List Byte) : Nat :=
  ((List.range 5).reverse.find? (fun n => decide (1 < dCount d n))).getD 0

/-- Bytes moved in all. -/
def dTotal (d : List Byte) : Nat := dWidth d * dCount d 0 * dCount d 1 * dCount d 2 * dCount d 3 * dCount d 4

/-- Byte offsets of the elements in iteration order, dimension 0 innermost. -/
def offsOf (d : List Byte) : Nat → List Int
  | 0 => [0]
  | n + 1 =>
    let inner := offsOf d n
    (List.range (dCount d n)).flatMap (fun (i : Nat) => inner.map (fun o => o + (i : Int) * dStride d n))

/-- Least and greatest byte offset that the strides of dimensions below `n` reach, beyond the element's own width. -/
def spanOf (d : List Byte) : Nat → Int × Int
  | 0 => (0, (dWidth d : Int) - 1)
  | n + 1 =>
    let r := spanOf d n
    let k : Int := (dCount d n - 1 : Nat) * dStride d n
    (r.1 + min 0 k, r.2 + max 0 k)

/-- A span of the pair halves under mirror mode: the chunk dimension counted once. -/
def spanInner (d : List Byte) : Nat → Int × Int
  | 0 => (0, (dWidth d : Int) - 1)
  | n + 1 =>
    let r := spanInner d n
    if n = dChunkDim d then r
    else
      let k : Int := (dCount d n - 1 : Nat) * dStride d n
      (r.1 + min 0 k, r.2 + max 0 k)

/-- Number of chunks and bytes of one chunk. -/
def dChunks (d : List Byte) : Nat := dCount d (dChunkDim d)
def dChunkBytes (d : List Byte) : Nat := dTotal d / dChunks d

/-- The extent of one destination half, or of the whole destination: offsets of its lowest and highest byte. -/
def dstSpan (d : List Byte) : Int × Int :=
  if dMirror d then (if dPair d then spanInner d 5 else spanOf d 5)
  else (0, (if dPair d then dChunkBytes d else dTotal d : Nat) - 1)

/-- The source extent: least and greatest local address. -/
def srcExtent (d : List Byte) : Int × Int :=
  let b : Int := dSrc d % 2 ^ 46
  let s := spanOf d 5
  (b + s.1, b + s.2)

/-- The destination extents: one, or one for each half. -/
def dstExtents (d : List Byte) : List (Int × Int) :=
  let b : Int := dDst d % 2 ^ 46
  let s := dstSpan d
  if dPair d then [(b + s.1, b + s.2), (b + dPairOff d + s.1, b + dPairOff d + s.2)] else [(b + s.1, b + s.2)]

def disjoint (x y : Int × Int) : Bool := decide (x.2 < y.1) || decide (y.2 < x.1)

/-- Whether an extent lies in one of a list of regions (address and length). -/
def within (e : Int × Int) (rs : List (Nat × Nat)) : Bool :=
  rs.any (fun r => decide ((r.1 : Int) ≤ e.1) && decide (e.2 < (r.1 + r.2 : Nat)))

/-- The checks of R117 that need only the descriptor. -/
def dFormOk (d : List Byte) : Bool :=
  let dims := List.range 5
  let used := dims.filter (fun n => decide (1 < dCount d n))
  let w := dWidth d
  dReservedOk d && dFmt d != 15 && decide (dKind d ≤ 1) &&
  (!(dFmt d == 0 || dFmt d == 8) || dStride d 0 == 1) &&
  (!dMirror d || used.all (fun n => dStride d n != 0)) &&
  decide (dTotal d ≤ 2 ^ 32) &&
  !(dKind d == 1 && dPair d) &&
  !(dKind d == 1 && (dDstGlobal d || decide (2 ^ 24 ≤ dDst d))) &&
  !(dKind d == 1 && !(dMembers d).testBit (dHead d)) &&
  (decide (w < 2) || (dSrc d % w == 0 && dDst d % w == 0 && (dKind d == 1 || dPairOff d % w == 0) &&
    used.all (fun n => dStride d n % (w : Int) == 0))) &&
  (!dPair d || (dPairOff d % 64 == 0 && (match dstExtents d with | [a, b] => disjoint a b | _ => true)))

/-- The windows of a command's issuer: any local memory that exists (its mapped host windows are checked page by page). -/
def State.extentMapped (s : State) (u : Nat) (wr : Bool) (e : Int × Int) : Bool :=
  decide (0 ≤ e.1) && s.canReach u e.1.toNat (e.2 - e.1 + 1).toNat wr

/-- The regions that a Heat's transfers may read, or may write: bindings, activations, resident tensors, taps. -/
def State.heatRegions (s : State) (h : Heat) (wr : Bool) : List (List (Nat × Nat)) :=
  let img := s.imageOf h
  (List.range (progTensors img).length).filterMap (fun i =>
    let t := (progTensors img).getD i []
    let k := recF t 0 0 3
    let out := k == 1 || k == 4 || (k == 2 && h.binds.any (fun b => rec16 b 0 == rec16 t 2 && rec8 b 3 == 1))
    let inp := k == 0 || k == 1 || k == 3 || k == 2 || k == 4
    if (if wr then out || k == 0 else inp) then some (h.tensorLoc i) else none)

/-- Whether an address names this device (R562): its identifier in [51:46]. -/
def State.devHere (s : State) (a : Nat) : Bool := a / 2 ^ 46 == s.rg R.BYK_STAT_DEV

/-- The admission checks of R117 and R141 on a transfer. -/
def State.xferOk (s : State) (x : Xfer) : Bool :=
  if (match x.issuer with | .relay _ _ => true | _ => false) then true else
  let d := x.desc
  let src := srcExtent d
  let dsts := dstExtents d
  let okRegion (wr : Bool) (e : Int × Int) : Bool :=
    match x.issuer with
    | .heat slot _ => match s.heat slot with
      | some h => (s.heatRegions h wr).any (within e) && s.inMem e.1.toNat (e.2 - e.1 + 1).toNat ||
          decide (0 ≤ e.1) && s.winOk x.user e.1.toNat (e.2 - e.1 + 1).toNat wr
      | none => false
    | _ => s.extentMapped x.user wr e
  let srcOk := dSrcGlobal d && !s.devHere (dSrc d) && s.inSite (dSrc d / 2 ^ 46) || okRegion false src
  let dstOk := dDstGlobal d && !s.devHere (dDst d) && s.inSite (dDst d / 2 ^ 46) || dsts.all (okRegion true)
  let dev (g : Bool) (a : Nat) : Nat := if g then a / 2 ^ 46 else s.rg R.BYK_STAT_DEV
  let overlap := dev (dSrcGlobal d) (dSrc d) == dev (dDstGlobal d) (dDst d) && dsts.any (fun e => !disjoint src e)
  dFormOk d && srcOk && dstOk && !overlap

/-! ## Transfers -/

def State.modXfer (s : State) (id : Nat) (f : Xfer → Xfer) : State :=
  { s with xfers := s.xfers.map (fun x => if x.id == id then f x else x) }

def State.xfer? (s : State) (id : Nat) : Option Xfer := s.xfers.find? (fun x => x.id == id)

/-- Transfers that hold an in-flight entry (R124). -/
def State.inflight (s : State) : List Xfer := s.xfers.filter (fun x => x.st != .queued)

/-- Whether an in-flight entry is free for a transfer (R124). -/
def State.entryFree (s : State) (reserved : Bool) : Bool :=
  let n := s.inflight.length
  decide (n < 4096) && (reserved || decide ((s.inflight.filter (fun x => !x.reserved)).length < 3072))

/-- The counters of Table STR-6 after a change. -/
def State.strCount (s : State) : State :=
  let n := s.inflight.length
  let s := s.setRg R.STR_INFLIGHT_NOW n
  if s.rg R.STR_INFLIGHT_PEAK < n then s.setRg R.STR_INFLIGHT_PEAK n else s

/-- Write a token record: in the Heat's token window, or for a host command at its token address, local or of the host; of a pair, each chunk record in
its half's place and the final one after them (R121, R491). -/
def State.putToken (s : State) (x : Xfer) (t : Token) : State :=
  let s := match x.issuer with
    | .heat slot _ => s.modHeat slot (fun h => { h with
        tokens := (h.tokens.filter (fun p => p.1 != dToken x.desc)) ++ [(dToken x.desc, t)] })
    | .cmd ring cid => { s with cmdTokens := (s.cmdTokens.filter (fun p => p.1 != ring * 65536 + cid)) ++
        [(ring * 65536 + cid, t)] }
    | .relay _ p => match s.heatList.find? (fun q => q.2.prog == p) with
      | some q => s.modHeat q.1 (fun h => { h with
          tokens := (h.tokens.filter (fun p => p.1 != dToken x.desc)) ++ [(dToken x.desc, t)] })
      | none => s
  match x.tokenAddr with
  | some (host, a) =>
    let a := a + if dPair x.desc then (if t.final then 32 else 16 * t.half) else 0
    let b := leBytes 8 t.tk ++ leBytes 2 t.status ++ leBytes 2 t.relayStatus ++
      leBytes 1 t.doneMask ++ leBytes 1 ((if t.final then 1 else 0) + 2 * t.half + 4 * t.relayHop) ++ leBytes 2 t.chunk
    if host then s.post x.user (.hostWrite x.user a b) else s.deliver x.user a b
  | none => s

/-- The final token record of a transfer. -/
def State.finalToken (s : State) (x : Xfer) (status : Nat) : Token :=
  ⟨s.tk.ns, status, x.relayStatus, if dKind x.desc = 1 then x.doneMask else 0, true,
    if dPair x.desc then x.chunk % 2 else 0, x.relayHop, x.chunk % 65536⟩

/-- Bytes put at a base: packed, or at the source's offsets (DST_MODE). -/
def State.scatter (s : State) (d : List Byte) (user : Nat) (base : Nat) (offs : List Int) (bs : List Byte) : State :=
  if dMirror d then
    let w := dWidth d
    offs.zipIdx.foldl (fun s p => s.deliver user ((base : Int) + p.1).toNat (slice bs (p.2 * w) w)) s
  else s.deliver user base bs

/-- Offsets of one chunk: on the source side with the chunk dimension, on the destination side without it (R126). -/
def chunkOffs (d : List Byte) (c : Nat) : List Int × List Int :=
  let k := dChunkDim d
  let inner := offsOf d k
  (inner.map (fun o => o + (c : Int) * dStride d k), inner)

/-- Destination bytes of a plain transfer that moved and did not end OK are not defined (R123): free values in memory; of a pair, in the half
of the chunk that moved. -/
def State.loseDst (s : State) (x : Xfer) : State :=
  let base := dDst x.desc % 2 ^ 46
  if x.st != .moving || dKind x.desc != 0 || (dDstGlobal x.desc && !s.devHere (dDst x.desc)) || decide (windowBase ≤ base) then s
  else
    let n := if dPair x.desc then dChunkBytes x.desc else dTotal x.desc
    let y := s.lostBytes n
    if dPair x.desc then y.2.scatter x.desc x.user (base + x.chunk % 2 * dPairOff x.desc) (chunkOffs x.desc x.chunk).2 y.1
    else y.2.scatter x.desc x.user base (offsOf x.desc 5) y.1

/-- A transfer ends (DONE): its final token is written, it leaves the list, a command waiting for it completes (R491), and a
Baton chain's slot is freed. -/
def State.endXfer (s : State) (id status : Nat) : State :=
  match s.xfer? id with
  | none => s
  | some x =>
    let s := s.putToken x (s.finalToken x status)
    let s := if status = Sc.dataLost then s.incRg R.FLT_CNT_DATA_LOST else s
    let s := if status = Sc.ok then s else s.loseDst x
    let s := { s with xfers := s.xfers.filter (fun y => y.id != id), byk := { s.byk with
      reads := s.byk.reads.filter (fun r => r.xfer != id) } }
    let s := if dKind x.desc = 1 && x.running then
        let s := s.setRg R.BATON_STAT_ACTIVE (s.rg R.BATON_STAT_ACTIVE - 1)
        if status = Sc.ok then s else s.incRg R.BATON_STAT_ABORTS
      else s
    let s := match x.issuer with
      | .cmd ring cid => s.complete ring cid status
      | .relay src _ =>
        let report := leBytes 1 (dRelayPlan x.desc) ++ leBytes 1 x.hop ++ leBytes 2 status ++ leBytes 1 x.doneMask ++
          leBytes 2 x.relayStatus ++ leBytes 1 x.relayHop
        s.tagIssue src ⟨0, 27, 0, report, .nobody⟩
      | .heat _ _ => s
    s.strCount

/-- A transfer has made its last write: it ends once every remote write has been acknowledged (R121), with the status of the first
that failed. -/
def State.finishXfer (s : State) (id status : Nat) : State :=
  match s.xfer? id with
  | some x =>
    if x.acks = 0 then s.endXfer id (if x.ackFail = 0 then status else x.ackFail)
    else s.modXfer id (fun x => { x with ended := some status })
  | none => s

/-- Admission (Table STR-4): the entry is taken, and failed checks end the transfer with BAD_FIELD. -/
def State.admitXfer (s : State) (id : Nat) : State :=
  match s.xfer? id with
  | none => s
  | some x =>
    let s := (s.modXfer id (fun x => { x with st := .admitted })).strCount
    if s.xferOk x then
      if dKind x.desc = 1 then
        -- R130: a member masked or held at admission is a non-member; a gated one is ungated
        let out := (List.range 8).filter (fun n => !s.rgBit R.LANE_CTL_MASK n || s.flag R.LANE_STAT_HELD n)
        let s := s.modXfer id (fun x => { x with
          members := out.foldl (fun m n => clearBit m n) (dMembers x.desc) })
        (List.range 8).foldl (fun s n =>
          if (dMembers x.desc).testBit n && !out.contains n && s.rg R.LANE_STAT_STATE n == 0 then
            s.setRg R.LANE_STAT_STATE 1 n |>.setRg R.SPLIT_STAT_VALID 0 n
          else s) s
      else s
    else s.endXfer id Sc.badField

/-- A transfer issued (R119, R125): admitted when an entry is free and nothing of its class waits ahead, else QUEUED. -/
def State.issueXfer (s : State) (engine user : Nat) (iss : Issuer) (reserved : Bool) (desc : List Byte)
    (tokenAddr : Option (Bool × Nat)) : State :=
  let id := s.xferNext
  let x : Xfer := { id := id, engine := engine, issuer := iss, user := user, desc := desc, st := .queued,
                    reserved := reserved, tokenAddr := tokenAddr }
  let s := { s with xfers := s.xfers ++ [x], xferNext := id + 1 }
  let ahead := s.xfers.any (fun y => y.st = .queued && y.id != id && (y.reserved || !reserved))
  if s.entryFree reserved && !ahead then s.admitXfer id else s

/-- Whether an engine is free for its next admitted transfer (R120): every earlier one has issued its last source read or
is in PAIR_WAIT; an ordered one waits for all earlier transfers of the engine. -/
def State.mayMove (s : State) (x : Xfer) : Bool :=
  let before := (s.xfers.filter (fun y => y.engine == x.engine && decide (y.id < x.id) && y.st != .queued))
  s.coreRuns && before.all (fun y => (y.st = .moving && y.readsDone) || y.st = .pairWait) && (!dOrd x.desc || before.isEmpty)

/-- The bytes of a local source, element by element; none where a word is uncorrectable. `src` gives the bytes of a source
that lies in a host window or on another device. -/
def State.gather (s : State) (d : List Byte) (offs : List Int) (src : Option (List Byte)) : Option (List Byte) × State :=
  match src with
  | some b => (some b, s)
  | none =>
    let base : Int := dSrc d % 2 ^ 46
    let w := dWidth d
    let ws := s.mem.bad.filter (fun k => offs.any (fun o => touchesWord (base + o).toNat w k))
    let soft := s.mem.soft.filter (fun k => offs.any (fun o => touchesWord (base + o).toNat w k))
    let s := soft.foldl State.memCe s
    if ws.isEmpty then (some (offs.flatMap (fun o => s.bytes (base + o).toNat w)), s)
    else (none, ws.foldl State.memUe s)

/-- A transfer stopped with ABORTED (lane reset, head fault, cancel): nothing more is written. -/
def State.abortXfer (s : State) (id : Nat) : State :=
  let s := s.modXfer id (fun x => { x with doneMask := 0 })
  s.endXfer id Sc.aborted

/-- Abort every transfer that an engine's Lane has issued (R84). -/
def State.abortEngine (s : State) (n : Nat) : State :=
  (s.xfers.filter (fun x => x.engine == n)).foldl (fun s x => s.abortXfer x.id) s

/-- A member Lane faults or is reset during a chain (R132, R133): HEAD ends the chain, any other member loses its bit. -/
def State.batonFault (s : State) (n : Nat) : State :=
  (s.xfers.filter (fun x => dKind x.desc == 1 && x.st != .queued)).foldl (fun s x =>
    if dHead x.desc = n then s.abortXfer x.id
    else s.modXfer x.id (fun x => { x with failed := setBit x.failed n })) s

/-- A half of a pair released (R126): the transfer goes on; with no outstanding chunk in the half nothing happens. -/
def State.releaseHalf (s : State) (id half : Nat) : Bool × State :=
  match s.xfer? id with
  | none => (false, s)
  | some x =>
    if x.free.getD half true then (false, s)
    else (true, s.modXfer id (fun x => { x with
      free := x.free.set half true
      st := if x.st = .pairWait && x.chunk % 2 == half then .moving else x.st }))

/-! ## Events -/

/-- TRANSFER_ENTRY_FREED (R125): the next QUEUED transfer, reserved class first, then in issue order. -/
def execTransferEntryFreed (s : State) : Host.Outcome State Fault Refusal :=
  let q := s.xfers.filter (fun x => x.st = .queued)
  let nxt := match q.find? (·.reserved) with
    | some x => some x
    | none => q.head?
  match nxt with
  | some x => .next (if s.entryFree x.reserved then s.admitXfer x.id else s)
  | none => .next s

/-- Stop a transfer on an uncorrectable source (Table STR-4): EV_STR_ECC and DATA_LOST; a chain keeps no copy (edge). -/
def State.srcEcc (s : State) (id : Nat) : State :=
  ((s.modXfer id (fun x => { x with doneMask := 0 })).ev .STR_ECC).endXfer id Sc.dataLost

/-- Ask another device for the bytes of a source that lies there (R571, R572). -/
def State.askRemote (s : State) (x : Xfer) : State :=
  let d := dSrc x.desc / 2 ^ 46
  let b : Int := dSrc x.desc % 2 ^ 46
  if s.bykNotReady d then (s.noteNotReady d).endXfer x.id Sc.notReady
  else if (s.route d).isNone then s.endXfer x.id Sc.linkLost
  else s.readReqs d x.id (runsOf (dWidth x.desc) ((offsOf x.desc 5).map (b + ·)))

/-- TRANSFER_START (R120): an admitted plain transfer starts its source reads; words in `upsets` read uncorrectable. -/
def execTransferStart (id : Nat) (upsets : List Nat) (s : State) : Host.Outcome State Fault Refusal :=
  match s.xfer? id with
  | none => .next s
  | some x =>
    if x.st = .admitted && dKind x.desc == 0 && s.mayMove x then
      let s := (s.upset upsets).modXfer id (fun x => { x with st := .moving, readsDone := !dPair x.desc })
      let b : Int := dSrc x.desc % 2 ^ 46
      let offs := if dPair x.desc then (chunkOffs x.desc 0).1 else offsOf x.desc 5
      if dSrcGlobal x.desc && !s.devHere (dSrc x.desc) then
        .next (s.askRemote x)
      else if s.mem.bad.any (fun k => offs.any (fun o => touchesWord (b + o).toNat (dWidth x.desc) k)) then
        .next ((s.gather x.desc offs none).2.srcEcc id)
      else .next s
    else .next s

/-- Whether the source of a transfer lies on another device (R562). -/
def State.remoteSrc (s : State) (d : List Byte) : Bool := dSrcGlobal d && !s.devHere (dSrc d)

/-- Whether the source of a transfer lies in a host window, and so is supplied from outside. -/
def State.foreignSrc (s : State) (d : List Byte) : Bool := !s.remoteSrc d && decide (windowBase ≤ dSrc d % 2 ^ 46)

/-- The bytes of a remote source, once every read has been answered (R572). -/
def State.remoteData (s : State) (id : Nat) : Option (List Byte) :=
  (s.byk.reads.filter (fun r => r.xfer == id)).foldl (fun x r =>
    match x, r.got with
    | some a, some b => some (a ++ b)
    | _, _ => none) (some [])

/-- Whether the data of a transfer is there: local memory, the bytes `src` of a host window, or the answers to all remote reads. -/
def State.srcReady (s : State) (x : Xfer) (src : Option (List Byte)) : Bool :=
  s.foreignSrc x.desc == src.isSome && (!s.remoteSrc x.desc || (s.remoteData x.id).isSome)

/-- Source bytes given from outside local memory: `n` bytes from offset `off` of a remote source's answers, or `src`. -/
def State.outside (s : State) (x : Xfer) (src : Option (List Byte)) (off n : Nat) : Option (List Byte) :=
  if s.remoteSrc x.desc then (s.remoteData x.id).map (fun b => slice b off n) else src

/-- Whether the destination is on another device: its writes leave on Byklink (R562). -/
def State.foreignDst (s : State) (d : List Byte) : Bool := dDstGlobal d && !s.devHere (dDst d)

/-- Whether a transfer's writes to a host window cannot be sent now, so that its final token waits (R121). -/
def State.windowShut (s : State) (x : Xfer) : Bool :=
  !s.foreignDst x.desc && decide (windowBase ≤ dDst x.desc % 2 ^ 46) &&
    !(s.host.linkUp && (vget s.host.fns x.user).bme)

/-- Put the bytes of a piece at the destination, here or by tagged writes on another device (R573). -/
def State.place (s : State) (x : Xfer) (base : Nat) (offs : List Int) (bs : List Byte) : State :=
  if s.foreignDst x.desc then
    let d := dDst x.desc / 2 ^ 46
    if s.bykNotReady d then (s.noteNotReady d).modXfer x.id (fun x => { x with ackFail := Sc.notReady })
    else
      let runs := if dMirror x.desc then runsOf (dWidth x.desc) (offs.map ((base : Int) + ·)) else [((base : Int), bs.length)]
      (s.modXfer x.id (fun x => { x with
        acks := x.acks + (runs.map (fun r => ceilDiv r.2 4096)).sum })).tagWrites d (.xfer x.id) runs bs
  else s.scatter x.desc x.user base offs bs

/-- TRANSFER_CHUNK_DONE (R126): the next chunk of a paired transfer is written and its token record too; the transfer waits
when the half of the next chunk has not been released. `src` holds the chunk's bytes of a source outside. -/
def execTransferChunkDone (id : Nat) (src : Option (List Byte)) (s : State) : Host.Outcome State Fault Refusal :=
  match s.xfer? id with
  | none => .next s
  | some x =>
    if s.coreRuns && x.st = .moving && x.ended.isNone && dPair x.desc && decide (x.chunk < dChunks x.desc) && x.free.getD (x.chunk % 2) true &&
        s.srcReady x src then
      let o := chunkOffs x.desc x.chunk
      let g := s.gather x.desc o.1 (s.outside x src (x.chunk * dChunkBytes x.desc) (dChunkBytes x.desc))
      match g.1 with
      | none => .next (g.2.srcEcc id)
      | some bs =>
        let half := x.chunk % 2
        let s := g.2.place x (dDst x.desc % 2 ^ 46 + half * dPairOff x.desc) o.2 (bs.take (dChunkBytes x.desc))
        if x.chunk + 1 = dChunks x.desc then .next (s.finishXfer id Sc.ok)
        else
          let s := s.putToken x ⟨s.tk.ns, Sc.ok, 0, 0, false, half, 0, x.chunk % 65536⟩
          .next (s.modXfer id (fun x => { x with
            chunk := x.chunk + 1
            free := x.free.set half false
            st := if x.free.getD ((x.chunk + 1) % 2) true then .moving else .pairWait }))
    else .next s

/-- TRANSFER_DONE (R121): the last write of a plain transfer takes effect and the final token is written. `src` holds the
bytes of a source outside; `none` with a foreign source is a failed read (R459). -/
def execTransferDone (id : Nat) (src : Option (List Byte)) (s : State) : Host.Outcome State Fault Refusal :=
  match s.xfer? id with
  | none => .next s
  | some x =>
    if s.coreRuns && x.st = .moving && !dPair x.desc && dKind x.desc == 0 && !s.windowShut x && x.ended.isNone then
      if s.foreignSrc x.desc && src.isNone then .next (s.endXfer id Sc.hostReadTimeout)
      else if s.remoteSrc x.desc && (s.remoteData id).isNone then .next s
      else
        let offs := offsOf x.desc 5
        let g := s.gather x.desc offs (if s.foreignSrc x.desc || s.remoteSrc x.desc then
          s.outside x src 0 (dTotal x.desc) else none)
        match g.1 with
        | none => .next (g.2.srcEcc id)
        | some bs => .next ((g.2.place x (dDst x.desc % 2 ^ 46) offs (bs.take (dTotal x.desc))).finishXfer id Sc.ok)
    else .next s

/-- BATON_CHAIN_START (R129, R130): an admitted chain starts once every member is IDLE or BUSY and fewer than four run. -/
def execBatonChainStart (id : Nat) (s : State) : Host.Outcome State Fault Refusal :=
  match s.xfer? id with
  | none => .next s
  | some x =>
    let ready := (List.range 8).all (fun n => !x.members.testBit n || s.rg R.LANE_STAT_STATE n == 1 ||
      s.rg R.LANE_STAT_STATE n == 2)
    if x.st = .admitted && dKind x.desc == 1 && ready && decide (s.rg R.BATON_STAT_ACTIVE < 4) && s.mayMove x then
      let s := (s.modXfer id (fun x => { x with st := .moving, running := true, readsDone := true })).setRg
        R.BATON_STAT_ACTIVE (s.rg R.BATON_STAT_ACTIVE + 1)
      .next (if s.remoteSrc x.desc && x.inbound == [] then s.askRemote x else s)
    else .next s

/-- The writes of a chain (R127): each member writes the data at the same offset of its own store. -/
def State.batonWrite (s : State) (x : Xfer) (mask : Nat) (bs : List Byte) : State :=
  (List.range 8).foldl (fun s n =>
    if mask.testBit n then s.scatter x.desc x.user (n * 0x0100_0000 + dDst x.desc % 2 ^ 24) (offsOf x.desc 5) bs else s) s

/-- The hops of a chain's relay: the plan of its program. -/
def State.relayOf (s : State) (x : Xfer) : List (List Byte) :=
  match x.issuer with
  | .heat slot _ => match s.heat slot with
    | some h => (relayPlans (s.imageOf h)).getD (dRelayPlan x.desc) []
    | none => []
  | .relay _ p => match s.prog? p with
    | some p => (relayPlans p.image).getD (dRelayPlan x.desc) []
    | none => []
  | .cmd _ _ => []

/-- The status of a chain (R131): OK when every member named has the data. -/
def chainStatus (x : Xfer) : Nat := if x.doneMask = dMembers x.desc then Sc.ok else Sc.aborted

/-- The end of a running chain (R131, R134): the members write the data; without a relay the final token is written, with one the data
goes on to the next hop and the token waits for its report (R137). -/
def State.batonEnd (s : State) (id : Nat) (src : Option (List Byte)) : State :=
  match s.xfer? id with
  | none => s
  | some x =>
    if x.st = .moving && dKind x.desc == 1 && !x.relayWait &&
        (x.inbound != [] || s.srcReady x src) then
      let g := s.gather x.desc (offsOf x.desc 5) (if x.inbound != [] then some x.inbound else s.outside x src 0 (dTotal x.desc))
      match g.1 with
      | none => (g.2.srcEcc id)
      | some bs =>
        let got := (List.range 8).foldl (fun m n => if x.failed.testBit n then clearBit m n else m) x.members
        let s := (g.2.batonWrite x got bs).modXfer id (fun x => { x with doneMask := got })
        let x := { x with doneMask := got }
        if dRelayEn x.desc then
          match (s.relayOf x)[x.hop]? with
          | some hop =>
            let d := recF hop 0 0 6
            let cut (s : State) (status : Nat) :=
              (s.modXfer id (fun x => { x with relayStatus := status, relayHop := x.hop + 1 })).endXfer id (chainStatus x)
            if s.bykNotReady d then cut (s.noteNotReady d) Sc.notReady
            else if (s.route d).isNone then cut s Sc.linkLost
            else
              (s.modXfer id (fun x => { x with relayWait := true })).bykSend d 8
                ([dRelayPlan x.desc, x.hop + 1, rec8 hop 1, recF hop 2 0 3, recF hop 3 0 1] ++
                  (x.desc ++ bs).map (·.toNat)) bs.length
          | none => (s.endXfer id (chainStatus x))
        else (s.endXfer id (chainStatus x))
    else s

end Sys2Proof.Machine
end

