-- ==== Sys2Proof/Machine/Admin.lean ====
section
/-! DEFINITION. The administration, window and Pool commands (R473 to R485, R494). -/

namespace Sys2Proof.Machine

/-- A command that only ring 0 may carry (R470). -/
def State.ring0 (s : State) (c : Cmd) (k : State → State) : State := if c.ring = 0 then k s else s.fin c 0x0100

/-! ## IDENTIFY, features, PATCH_STATUS -/

/-- Patch entries that are active (R676). -/
def State.patchesActive (s : State) : Nat := (s.patches.filter (fun e => recF e 0 2 1 == 1)).length

/-- The record of Table CMA-3. -/
def State.identify (s : State) (user : Nat) : List Byte :=
  let lanes := ((List.range 8).filter (fun n => s.rgBit R.LANE_CTL_MASK n && !s.flag R.LANE_STAT_HELD n)).length
  fitBytes 256 (leBytes 8 0x384B422D525052 ++ leBytes 1 (s.rg R.ID_REV_ORDER) ++ leBytes 1 (s.rg R.ID_REV_STEPPING) ++
    leBytes 2 (s.rg R.ID_REV_ROM_EDITION) ++ leBytes 2 (s.rg R.ID_FMT_CONTAINER_FORMAT) ++ leBytes 2 s.dev ++
    leBytes 8 (s.rg R.ID_DIE_DIE_ID) ++ leBytes 2 2048 ++ leBytes 2 4096 ++ leBytes 1 32 ++ leBytes 1 64 ++ leBytes 1 32 ++
    leBytes 1 128 ++ leBytes 4 262144 ++ leBytes 1 lanes ++ leBytes 1 user ++ leBytes 2 16 ++ leBytes 4 (s.rg R.MEM_STAT_LP_MIB) ++
    leBytes 1 16 ++ leBytes 1 4 ++ leBytes 2 1024 ++ leBytes 2 64 ++ leBytes 1 s.patchesActive ++ leBytes 1 0 ++
    leBytes 4 (s.rg R.RST_STRAP_STRAPS))

/-- Bytes written at ADDR (offset 8) with its H bit at offset 16, and the command completed with `result`. -/
def State.replyAt8 (s : State) (c : Cmd) (b : List Byte) (result : Nat) : State :=
  let h := c.arg 16 0 1 == 1
  s.check c (c.only [(8, 0, 64), (16, 0, 1)] && s.fieldOk c h (c.arg 8 0 64) b.length true) (fun s =>
    (s.writeField c h (c.arg 8 0 64) b).fin c Sc.ok result)

/-- IDENTIFY. -/
def execIdentify (ring : Fin 64) (cid : Fin 65536) (s : State) : Host.Outcome State Fault Refusal :=
  .next (s.start ring cid 0x01 (fun c s => s.replyAt8 c (s.identify c.user) 256))

/-- PATCH_STATUS (R494). -/
def execPatchStatus (ring : Fin 64) (cid : Fin 65536) (s : State) : Host.Outcome State Fault Refusal :=
  .next (s.start ring cid 0x14 (fun c s =>
    s.replyAt8 c (fitBytes 528 (leBytes 1 64 ++ leBytes 1 s.patchesActive ++ leBytes 2 (s.rg R.ID_REV_ROM_EDITION) ++
      leBytes 12 s.patchSlot ++ s.patches.flatMap (fitBytes 8 ·))) s.patchesActive))

/-- The value of a feature (Table CMA-4), and its bits. -/
def State.feature (s : State) (fid : Nat) : Option (Nat × Nat) :=
  match fid with
  | 1 => some (if s.coding.lendEn then 1 else 0, 1)
  | 2 => some (s.rg R.DBG_CTL_BAR4_EN, 1)
  | 3 => some (s.rg R.LANE_CTL_MASK, 8)
  | 4 => some (s.rg R.LANE_CTL_IDLE_GATE, 1)
  | _ => none

/-- FEATURE_GET. -/
def execFeatureGet (ring : Fin 64) (cid : Fin 65536) (s : State) : Host.Outcome State Fault Refusal :=
  .next (s.start ring cid 0x02 (fun c s =>
    match s.feature (c.arg 8 0 16) with
    | some f => s.check c (c.only [(8, 0, 16), (12, 0, 32)]) (fun s => s.fin c Sc.ok f.1)
    | none => s.fin c Sc.badField))

/-- FEATURE_SET. -/
def execFeatureSet (ring : Fin 64) (cid : Fin 65536) (s : State) : Host.Outcome State Fault Refusal :=
  .next (s.start ring cid 0x03 (fun c s =>
    let v := c.arg 12 0 32
    match s.feature (c.arg 8 0 16) with
    | some f =>
      s.check c (c.only [(8, 0, 16), (12, 0, 32)] && decide (v < 2 ^ f.2)) (fun s =>
        s.ring0 c (fun s =>
          let s : State := match c.arg 8 0 16 with
            | 1 => { s with coding := { s.coding with lendEn := v == 1 } }
            | 2 => s.setRg R.DBG_CTL_BAR4_EN v
            | 3 => s.setRg R.LANE_CTL_MASK v
            | _ => s.setRg R.LANE_CTL_IDLE_GATE v
          s.fin c Sc.ok))
    | none => s.fin c Sc.badField))

/-! ## Rings (R475 to R477) -/

/-- RING_CREATE. -/
def execRingCreate (ring : Fin 64) (cid : Fin 65536) (s : State) : Host.Outcome State Fault Refusal :=
  .next (s.start ring cid 0x04 (fun c s =>
    let n := c.arg 8 0 6
    let x : Ring := {
      owner := c.arg 9 0 3, irqEn := c.arg 9 3 1, coalN := c.arg 10 0 8, coalUs := c.arg 12 0 16, maxInflight := c.arg 14 0 16
      sqBase := c.arg 16 0 64, cqBase := c.arg 24 0 64, sqSize := c.arg 32 0 16, cqSize := c.arg 34 0 16 }
    let size (k : Nat) := decide (2 ≤ k) && decide (k ≤ 1024)
    s.check c (c.only [(8, 0, 6), (9, 0, 4), (10, 0, 8), (12, 0, 16), (14, 0, 16), (16, 0, 64), (24, 0, 64), (32, 0, 16), (34, 0, 16)] &&
        n != 0 && (n != 1 || x.owner == 0) && decide (1 ≤ x.coalN) && decide (x.coalUs ≤ 1000) && x.cqBase % 4096 == 0 && size x.cqSize &&
        (if x.sqBase = 0 then x.sqSize == 0 && x.maxInflight == 0
          else x.sqBase % 4096 == 0 && size x.sqSize && decide (1 ≤ x.maxInflight) && decide (x.maxInflight < x.sqSize))) (fun s =>
      let r := s.ring n
      if r.st = .absent then s.ring0 c (fun s => (s.modRing n (fun _ => x.fresh)).fin c Sc.ok)
      else if r.owner = x.owner && r.sqBase = x.sqBase && r.sqSize = x.sqSize && r.cqBase = x.cqBase && r.cqSize = x.cqSize &&
          r.maxInflight = x.maxInflight then
        s.ring0 c (fun s => (s.modRing n (fun r => { r with irqEn := x.irqEn, coalN := x.coalN, coalUs := x.coalUs })).fin c Sc.ok 1)
      else s.fin c Sc.cfgBusy)))

/-- Whether a valid downstream entry of a port names a ring (R442). -/
def State.ringNamed (s : State) (n : Nat) : Bool :=
  s.ports.toList.any (fun p => p.xgem.any (fun e => e.2.valid && !e.2.up && e.2.ring == n))

/-- RING_DELETE: the ring drains, and the command completes when it is ABSENT. -/
def execRingDelete (ring : Fin 64) (cid : Fin 65536) (s : State) : Host.Outcome State Fault Refusal :=
  .next (s.start ring cid 0x05 (fun c s =>
    let n := c.arg 8 0 6
    s.check c (c.only [(8, 0, 6)] && n != 0) (fun s =>
      if (s.ring n).st != .absent && s.ringNamed n then s.fin c Sc.cfgBusy
      else s.ring0 c (fun s =>
        if (s.ring n).st = .absent then s.fin c Sc.ok 1
        else
          (s.modRing n (fun r => { r with
            st := if r.st = .active || r.st = .faulted then .draining else r.st
            before := if r.st = .held then .draining else r.before
            deleters := r.deleters ++ [(c.ring, c.cid)] })).drainCheck n))))

/-! ## Host windows (R478 to R480) -/

/-- MEM_MAP. -/
def execMemMap (ring : Fin 64) (cid : Fin 65536) (s : State) : Host.Outcome State Fault Refusal :=
  .next (s.start ring cid 0x06 (fun c s =>
    let pages := c.arg 24 0 32
    let m : Mapping := ⟨c.arg 16 0 33, pages * 4096, c.arg 8 0 64, c.arg 28 0 1 == 1, c.arg 28 1 1 == 1⟩
    let mine := vget s.host.maps c.user
    s.check c (c.only [(8, 0, 64), (16, 0, 33), (24, 0, 32), (28, 0, 2)] && m.bus % 4096 == 0 && m.off % 4096 == 0 &&
        decide (1 ≤ pages) && decide (pages ≤ 262144) && decide (m.off + m.len ≤ 2 ^ 33) && (m.rd || m.wr) &&
        mine.all (fun x => x == m || decide (x.off + x.len ≤ m.off) || decide (m.off + m.len ≤ x.off))) (fun s =>
      if mine.contains m then s.fin c Sc.ok 1
      else if 512 ≤ mine.length then s.fin c 0x0101
      else ({ s with host := { s.host with maps := vmod s.host.maps c.user (fun l => l ++ [m]) } }).fin c Sc.ok)))

/-- Whether a local range of a user is in use by an admitted transfer, or by a Heat in flight (R480). -/
def State.rangeBusy (s : State) (u lo hi : Nat) : Bool :=
  let hit (e : Int × Int) := decide (e.1 < (hi : Int)) && decide ((lo : Int) ≤ e.2)
  s.xfers.any (fun x => x.st != .queued && x.user == u && (srcExtent x.desc :: dstExtents x.desc).any hit) ||
    s.heatList.any (fun p =>
      let h := p.2
      h.user == u && (hit ((rec64 h.desc 40 : Int), (rec64 h.desc 40 : Int) + 63) ||
        h.binds.any (fun b => rec8 b 2 == 1 && hit ((recF b 8 0 46 : Int), (recF b 8 0 46 : Int))) ||
        ((s.heatRegions h false) ++ (s.heatRegions h true)).any (fun rs => rs.any (fun r => hit ((r.1 : Int), (r.1 : Int) + r.2 - 1))) ||
        (match s.cmd? h.ring h.cid with
          | some c => c.arg 16 0 1 == 0 && hit ((c.arg 8 0 64 : Int), (c.arg 8 0 64 : Int) + 63 + 16 * h.binds.length)
          | none => false)))

/-- MEM_UNMAP. -/
def execMemUnmap (ring : Fin 64) (cid : Fin 65536) (s : State) : Host.Outcome State Fault Refusal :=
  .next (s.start ring cid 0x07 (fun c s =>
    let off := c.arg 16 0 33
    s.check c (c.only [(16, 0, 33)]) (fun s =>
      match (vget s.host.maps c.user).find? (fun m => m.off == off) with
      | none => s.fin c Sc.ok 1
      | some m =>
        let lo := windowBase + c.user * 0x2_0000_0000 + m.off
        if s.rangeBusy c.user lo (lo + m.len) then s.fin c Sc.cfgBusy
        else ({ s with host := { s.host with maps := vmod s.host.maps c.user (fun l => l.filter (fun x => x.off != off)) } }).fin c Sc.ok)))

/-! ## The Pool (R481 to R485) -/

/-- Whether any buffer of a class is not FREE (R170). -/
def State.classUsed (s : State) (c : Nat) : Bool := decide ((s.pclass c).free.length < (s.pclass c).count)

/-- The rules of R153 for a new configuration of a class. -/
def State.classOk (s : State) (k user : Nat) (x : PoolClass) : Bool :=
  let bytes (y : PoolClass) := y.count * 2 ^ y.size
  decide (8 ≤ x.size) && decide (x.size ≤ 16) && decide (1 ≤ x.count) && decide (x.first + x.count ≤ 262144) &&
    x.base % 2 ^ x.size == 0 && s.inMem x.base (bytes x) && (!x.refcount || user == 0) && decide (x.lowWater ≤ x.count) &&
    (List.range 32).all (fun j =>
      let y := s.pclass j
      j == k || !y.conf || ((decide (x.first + x.count ≤ y.first) || decide (y.first + y.count ≤ x.first)) &&
        (decide (x.base + bytes x ≤ y.base) || decide (y.base + bytes y ≤ x.base))))

/-- A class deleted (R157): the generation of each of its buffers advances. -/
def State.classGone (s : State) (k : Nat) : State :=
  let x := s.pclass k
  let s := (List.range x.count).foldl (fun s i => s.setGen (x.first + i) (nextGen (s.gen (x.first + i)))) s
  (s.modClass k (fun _ => {})).setRg R.POOL_USE_NOW 0 k

/-- POOL_CLASS_SET. -/
def execPoolClassSet (ring : Fin 64) (cid : Fin 65536) (s : State) : Host.Outcome State Fault Refusal :=
  .next (s.start ring cid 0x08 (fun c s =>
    let k := c.arg 8 0 5
    let x : PoolClass := {
      conf := true, size := c.arg 9 0 8, refcount := c.arg 10 0 1 == 1, firstCome := c.arg 10 1 1 == 1, first := c.arg 12 0 18
      count := c.arg 16 0 19, lowWater := c.arg 20 0 32, base := c.arg 24 0 46, user := c.user, quota := List.replicate 16 0 }
    let x := { x with free := (List.range x.count).map (fun i => x.first + i) }
    let y := s.pclass k
    let same := y.conf && y.size = x.size && y.first = x.first && y.count = x.count && y.base = x.base && y.refcount = x.refcount &&
      y.firstCome = x.firstCome
    s.check c (c.only [(8, 0, 5), (9, 0, 8), (10, 0, 2), (12, 0, 18), (16, 0, 19), (20, 0, 32), (24, 0, 46)] &&
        (if same then decide (x.lowWater ≤ x.count) else s.classOk k c.user x)) (fun s =>
      if y.conf && !same && s.classUsed k then s.fin c Sc.cfgBusy
      else if y.conf && c.user ≠ 0 && c.user ≠ y.user then s.fin c 0x0100
      else if same then (s.modClass k (fun z => { z with lowWater := x.lowWater })).fin c Sc.ok 1
      else ((if y.conf then s.classGone k else s).modClass k (fun _ => x)).fin c Sc.ok)))

/-- POOL_QUOTA_SET. -/
def execPoolQuotaSet (ring : Fin 64) (cid : Fin 65536) (s : State) : Host.Outcome State Fault Refusal :=
  .next (s.start ring cid 0x09 (fun c s =>
    let k := c.arg 8 0 8
    let g := c.arg 9 0 8
    let n := c.arg 10 0 8
    let y := s.pclass k
    let q := (List.range n).foldl (fun q i => modAt q (g + i) (fun _ => c.arg (16 + 4 * i) 0 32)) y.quota
    s.check c (c.only ([(8, 0, 8), (9, 0, 8), (10, 0, 8)] ++ (List.range (min n 12)).map (fun i => (16 + 4 * i, 0, 32))) &&
        decide (k < 32) && y.conf && decide (1 ≤ n) && decide (n ≤ 12) && decide (g + n ≤ 16) && !y.firstCome && decide (q.sum ≤ y.count))
      (fun s =>
        if c.user ≠ 0 && c.user ≠ y.user then s.fin c 0x0100
        else (s.modClass k (fun z => { z with quota := q })).fin c Sc.ok)))

/-- POOL_CLASS_DELETE. -/
def execPoolClassDelete (ring : Fin 64) (cid : Fin 65536) (s : State) : Host.Outcome State Fault Refusal :=
  .next (s.start ring cid 0x0A (fun c s =>
    let k := c.arg 8 0 8
    s.check c (c.only [(8, 0, 8)] && decide (k < 32)) (fun s =>
      let y := s.pclass k
      if !y.conf then s.fin c Sc.ok 1
      else if s.classUsed k then s.fin c Sc.cfgBusy
      else if c.user ≠ 0 && c.user ≠ y.user then s.fin c 0x0100
      else (s.classGone k).fin c Sc.ok)))

/-- The 16-byte QUERY record (R485). -/
def queryRecord (h : Nat) (q : List Nat) : List Byte :=
  let st := q.getD 0 0
  let live := st = 1 || st = 2
  let owner := if live then q.getD 1 0 else 0
  leBytes 4 (handleOf (hIndex h) owner (q.getD 5 0)) ++ leBytes 1 st ++ leBytes 1 owner ++ leBytes 1 (if st = 2 then q.getD 2 0 else 0) ++
    leBytes 1 (if live then q.getD 3 0 else 0) ++ leBytes 8 (q.getD 4 0)

/-- POOL_OP. -/
def execPoolOp (ring : Fin 64) (cid : Fin 65536) (s : State) : Host.Outcome State Fault Refusal :=
  .next (s.start ring cid 0x0B (fun c s =>
    let op := c.arg 8 0 8
    let cls := c.arg 9 0 5
    let dst := c.arg 10 0 6
    let hb := c.arg 11 0 1
    let h := c.arg 12 0 32
    let a := c.arg 16 0 64
    let req := 32 + c.user
    let ans (x : Ans) (v : Nat) : State := x.st.fin c x.status (if x.status = Sc.ok then v else 0)
    s.check c (c.only [(8, 0, 8), (9, 0, 5), (10, 0, 6), (11, 0, 1), (12, 0, 32), (16, 0, 64)] && decide (op ≤ 5) &&
        (op == 0 || cls == 0) && (op == 2 || dst == 0) && (op != 0 || h == 0) && (op == 5 || (a == 0 && hb == 0)) &&
        (op != 5 || s.fieldOk c (hb == 1) a 16 true)) (fun s =>
      match op with
      | 0 => let x := s.alloc req cls; ans x x.val
      | 1 => ans (s.pfree req h) 0
      | 2 => let x := s.pgive req h dst; ans x x.val
      | 3 => let x := s.pref h; ans x (x.st.buf (hIndex h)).count
      | 4 => let x := s.punref req h; ans x (x.st.buf (hIndex h)).count
      | _ =>
        let x := s.pquery h
        if x.1 = Sc.ok then (x.2.2.writeField c (hb == 1) a (queryRecord h x.2.1)).fin c Sc.ok 16 else x.2.2.fin c x.1)))

end Sys2Proof.Machine
end

