-- ==== Sys2Proof/Machine/Pm.lean ====
section
/-! DEFINITION. The performance-monitoring engine (R359 to R367): latching, bins, history and threshold alerts. -/

namespace Sys2Proof.Machine

/-- A bin opened now. -/
def State.openBin (s : State) (partial_ : Bool) : Bin :=
  { start := s.tk.ns, partial_ := partial_, localStart := s.tk.localNs }

/-- The engine restarted after a loss (R367): its bins are PARTIAL. -/
def State.pmRestart (s : State) : State :=
  { s with pm := { mark := s.tk.ns, markLocal := s.tk.localNs, quarter := s.openBin true, day := s.openBin true } }

/-- The whole second of TAI at an instant. -/
def State.secAt (s : State) (t : Nat) : Nat := s.taiAt t / 1000000000

/-- A closed bin of a current one (Table DEF-7, R364). -/
def State.closeBin (s : State) (b : Bin) (day : Bool) (stop : Nat) : ClosedBin :=
  let ms := (s.tk.localNs - b.localStart) / 1000000
  let nominal := if day then 86400000 else 900000
  let off := decide (10000 < max ms nominal - min ms nominal)
  ⟨b.start, stop, (if b.partial_ then 1 else 0) + (if b.suspect || off then 2 else 0) + (if day then 4 else 0),
    if day then 0 else s.pm.closed % 65536, ms % 2 ^ 32, b.vals⟩

/-- The 2,080 bytes of a bin (R363). -/
def ClosedBin.bytes (b : ClosedBin) : List Byte :=
  leBytes 8 b.start ++ leBytes 8 b.stop ++ leBytes 2 b.flags ++ leBytes 2 b.seq ++ leBytes 4 b.localMs ++ leBytes 8 0 ++
    (List.range 256).flatMap (fun p => leBytes 8 (Store.get 0 b.vals p))

/-- Vector 66 for an alert. -/
def State.pmIrq (s : State) : State := s.cause R.INT_CAUSE_PM 66

/-- A value added to a bin, saturating at 64 bits (R362). -/
def Bin.add (b : Bin) (deltas : List (Nat × Nat)) : Bin :=
  { b with vals := deltas.foldl (fun v d => Store.put 0 v d.1 (min (Store.get 0 v d.1 + d.2) (2 ^ 64 - 1))) b.vals }

/-- Alerts of a current bin (R365, R366): each threshold reached for the first time in the bin. -/
def State.alerts (s : State) (day : Bool) : State :=
  let thr := if day then s.pm.thrD else s.pm.thrQ
  thr.foldl (fun s t =>
    let b := if day then s.pm.day else s.pm.quarter
    let v := Store.get 0 b.vals t.1
    if t.2 ≤ v && !b.raised.contains t.1 then
      let b := { b with raised := b.raised ++ [t.1] }
      let s := if day then { s with pm := { s.pm with day := b } } else { s with pm := { s.pm with quarter := b } }
      (s.ev .PM_TCA 255 ([t.1, if day then 1 else 0] ++ argsOf64 v)).pmIrq
    else s) s

/-- Alerts of earlier bins cleared when a bin closes below the threshold (R365). -/
def State.clearAlerts (s : State) (day : Bool) : State :=
  let b := if day then s.pm.day else s.pm.quarter
  let open_ := if day then s.pm.alertD else s.pm.alertQ
  let thr := if day then s.pm.thrD else s.pm.thrQ
  let done := open_.filter (fun p => !b.raised.contains p && decide (Store.get 0 b.vals p < Store.get 0 thr p))
  let s := done.foldl (fun s p =>
    (s.ev .PM_TCA_CLR 255 ([p, if day then 1 else 0] ++ argsOf64 (Store.get 0 b.vals p))).pmIrq) s
  let left := open_.filter (fun p => !done.contains p && !b.raised.contains p) ++ b.raised
  if day then { s with pm := { s.pm with alertD := left } } else { s with pm := { s.pm with alertQ := left } }

/-- The 15-minute bin closed into history and a new one opened. -/
def State.closeQuarter (s : State) (stop : Nat) : State :=
  let s := s.clearAlerts false
  let c := s.closeBin s.pm.quarter false stop
  { s with pm := { s.pm with
    hist := (c :: s.pm.hist).take 96, closed := s.pm.closed + 1, quarter := s.openBin false } }

/-- The day bin closed and a new one opened. -/
def State.closeDay (s : State) (stop : Nat) : State :=
  let s := s.clearAlerts true
  { s with pm := { s.pm with prevDay := some (s.closeBin s.pm.day true stop), day := s.openBin false } }

/-- Both current bins marked SUSPECT (R364). -/
def State.pmSuspect (s : State) : State :=
  { s with pm := { s.pm with quarter := { s.pm.quarter with suspect := true }, day := { s.pm.day with suspect := true } } }

/-- A step of TK_NS from `old` to now (R364): the bins are SUSPECT, and marks stepped over close each bin once. -/
def State.pmStep (s : State) (old : Nat) : State :=
  let s := s.pmSuspect
  let a := s.secAt old
  let b := s.secAt s.tk.ns
  let s := if a / 900 < b / 900 then s.closeQuarter s.tk.ns else s
  let s := if a / 86400 < b / 86400 then s.closeDay s.tk.ns else s
  { s with pm := { s.pm with mark := s.tk.ns, markLocal := s.tk.localNs } }

/-- What each accumulator has gained since the last mark. -/
def State.pmDeltas (s : State) : List (Nat × Nat) :=
  s.pm.acc.filterMap (fun p =>
    let d := (p.2 + 2 ^ 48 - Store.get 0 s.pm.last p.1) % 2 ^ 48
    if d = 0 then none else some (p.1, d))

/-- The engine's own steps at a second mark (R362): image, bins, alerts, and the 15-minute and day marks that fall in the second. -/
def State.pmLatch (s : State) (secFrom secTo : Nat) : State :=
  let ds := s.pmDeltas
  let img : ClosedBin := ⟨s.pm.mark, s.tk.ns, 0, 0, (s.tk.localNs - s.pm.markLocal) / 1000000, ds⟩
  let s := { s with pm := { s.pm with
    image := some img, last := s.pm.acc, mark := s.tk.ns, markLocal := s.tk.localNs, quarter := s.pm.quarter.add ds, day := s.pm.day.add ds } }
  let s := (s.alerts false).alerts true
  let s := if secFrom / 900 < secTo / 900 then s.closeQuarter s.tk.ns else s
  if secFrom / 86400 < secTo / 86400 then s.closeDay s.tk.ns else s

end Sys2Proof.Machine
end

