-- ==== Sys2Proof/Machine/Timekeeper.lean ====
section
/-! DEFINITION. The Timekeeper (R202 to R225): sources, comparisons, steps and slews, states, NR time, SYSREF and 1PPS. -/

namespace Sys2Proof.Machine

/-! ## Conditions -/

/-- Whether any carrier is active; an activation that has not taken effect does not count (notes/assumptions/7.md). -/
def State.anyCarrier (s : State) : Bool := s.radio.carriers.toList.any (·.active)

/-- Whether a Heat with a finish line is in flight. -/
def State.anyFinish (s : State) : Bool := s.heatList.any (fun p => p.2.finish != 0)

/-- Whether a step is permitted (R216). -/
def State.stepOk (s : State) : Bool := s.flag R.TK_CTL_STEP_EN && !s.anyCarrier && !s.anyFinish

/-- Whether the radio is muted (R356). -/
def State.muted (s : State) : Bool := s.flag R.DEF_CTL_HOLD_TX && s.rg R.TK_STAT_STATE == 4

/-- Vector 70 and its cause. -/
def State.timeIrq (s : State) : State := s.cause R.INT_CAUSE_TIME 70

/-- Muting of the radio begun or ended since it was `was` (R356). -/
def State.muteChange (s : State) (was : Bool) : State :=
  if !was && s.muted then (s.ev .TX_MUTE).timeIrq
  else if was && !s.muted then (s.ev .TX_UNMUTE).timeIrq
  else s

/-- The Timekeeper enters a state: a change is reported by vector 70, HELLO is resent (R568), and muting begins or ends with
HOLD_EXPIRED (R356). -/
def State.tkState (s : State) (v : Nat) : State :=
  let was := s.rg R.TK_STAT_STATE
  if was = v then s
  else
    ((s.setRg R.TK_STAT_STATE v).timeIrq.helloAll).muteChange s.muted

/-! ## NR time (R207) -/

/-- The start of symbol `l` of a subframe at numerology `mu`, in units of 1 / (30.72 MHz × 2^mu) (TS 38.211 5.3.1, normal
cyclic prefix): symbols 0 and 7 × 2^mu have the longer prefix. -/
def symUnits (mu l : Nat) : Nat :=
  2192 * l + 16 * 2 ^ mu * ((if 0 < l then 1 else 0) + (if 7 * 2 ^ mu < l then 1 else 0))

/-- The same in nanoseconds, rounded up. -/
def symNs (mu l : Nat) : Nat := ceilDiv (symUnits mu l * 1000000) (30720 * 2 ^ mu)

/-- The phase in the hyperframe at which a symbol of a slot begins. -/
def slotPhase (mu sfn subframe slot sym : Nat) : Nat := sfn * 10000000 + subframe * 1000000 + symNs mu (14 * slot + sym)

/-- The TK_NS instant with a phase that is nearest to `t` (notes/assumptions/8.md). -/
def State.phaseNear (s : State) (ph t : Nat) : Nat :=
  let d : Int := (((ph : Int) - (s.nrPhase t : Int)) + 5120000000) % 10240000000 - 5120000000
  ((t : Int) + d).toNat

/-- The first TK_NS instant at or after `t` with a phase. -/
def State.phaseNext (s : State) (ph t : Nat) : Nat := t + (ph + 10240000000 - s.nrPhase t) % 10240000000

/-- The SFN, subframe and slot at an instant, with slots of 1 ms / 2^mu. -/
def State.nrAt (s : State) (mu t : Nat) : Nat × Nat × Nat :=
  let p := s.nrPhase t
  (p / 10000000, p / 1000000 % 10, p % 1000000 * 2 ^ mu / 1000000)

/-! ## Sources -/

/-- The first qualified source in the order SRC1, SRC2, SRC3 (R211). -/
def State.bestSource (s : State) : Option Nat :=
  [s.rg R.TK_CTL_SRC1, s.rg R.TK_CTL_SRC2, s.rg R.TK_CTL_SRC3].find? (fun c => c != 0 && s.tk.qual.testBit c)

/-- The place of a source in that order. -/
def State.rank (s : State) (c : Nat) : Nat :=
  ([s.rg R.TK_CTL_SRC1, s.rg R.TK_CTL_SRC2, s.rg R.TK_CTL_SRC3].findIdx? (· == c)).getD 3

/-- A source selected: its comparisons start afresh, in ACQUIRING. -/
def State.select (s : State) (c : Nat) : State :=
  let s := { s with tk := { s.tk with run := 0 } }
  (s.setRg R.TK_STAT_SRC c).tkState 1

/-- A source qualifies (R211, Table TKP-3). -/
def State.srcQualified (s : State) (c : Nat) : State :=
  let s := { s with tk := { s.tk with qual := setBit s.tk.qual c } }
  let st := s.rg R.TK_STAT_STATE
  if st = 0 || st = 3 || st = 4 then
    match s.bestSource with
    | some b => s.select b
    | none => s
  else if s.flag R.TK_CTL_REVERT && s.rank c < s.rank (s.rg R.TK_STAT_SRC) then (s.ev .TK_SRC).select c
  else s

/-- A source is lost (R209, Table TKP-3). -/
def State.srcLost (s : State) (c : Nat) : State :=
  let s := { s with tk := { s.tk with qual := clearBit s.tk.qual c } }
  let st := s.rg R.TK_STAT_STATE
  if (st = 1 || st = 2) && s.rg R.TK_STAT_SRC = c then
    match s.bestSource with
    | some b => (s.ev .TK_SRC).select b
    | none =>
      let s := s.setRg R.TK_STAT_SRC 0
      if s.flag R.TK_STAT_EPOCH_VALID then
        ({ s with tk := { s.tk with holdFrom := s.tk.localNs } }.ev .TK_HOLDOVER).tkState 3
      else if st = 1 then s.tkState 0
      else s
  else s

/-! ## Comparisons (R204, R205, R208, R216) -/

/-- The epoch set by a first comparison, and NR_BASE with it while NR_ALIGN is 0. -/
def State.setEpoch (s : State) (epoch : Nat) : State :=
  let s := ((s.setRg R.EPOCH_TAI_TAI epoch).setRg R.TK_STAT_EPOCH_VALID 1).pmSuspect
  if s.flag R.TK_CTL_NR_ALIGN then s
  else s.setRg R.NR_BASE_BASE ((((315964819000000000 : Int) - (s.rg R.EPOCH_TAI_TAI : Int)) % 10240000000).toNat)

/-- A step of TK_NS by −e, applied at one edge (R216, R217). -/
def State.stepBy (s : State) (e : Int) : State :=
  let old := s.tk.ns
  let new := ((old : Int) - e).toNat
  let s := { s with tk := { s.tk with ns := new, slewLeft := 0 } }
  ((s.setRg R.TK_STAT_STEP_PEND 0).pmStep old).ev .TK_STEP 255 (argsOf64 old ++ argsOf64 new)

/-- The phase error removed: slewed, stepped, or slewed while a step waits (R216). -/
def State.correct (s : State) (e : Int) : State :=
  let lim := s.rg R.TK_LIMITS_STEP * 100
  let slew (s : State) : State := { s with tk := { s.tk with slewLeft := e * 2 ^ 32 } }
  if e.natAbs ≤ lim then (slew s).setRg R.TK_STAT_STEP_PEND 0
  else if s.stepOk then s.stepBy e
  else ((slew s).setRg R.TK_STAT_STEP_PEND 1).ev .TK_STEP_PEND

/-- The state's count of comparisons (Table TKP-3). -/
def State.judge (s : State) (e : Int) : State :=
  let lock := s.rg R.TK_LIMITS_LOCK_NS
  let run (n : Nat) (s : State) : State := { s with tk := { s.tk with run := n } }
  match s.rg R.TK_STAT_STATE with
  | 1 =>
    if e.natAbs ≤ lock then
      if s.tk.run + 1 = 8 then (run 0 (s.ev .TK_LOCK)).tkState 2 else run (s.tk.run + 1) s
    else run 0 s
  | 2 =>
    if 4 * lock < e.natAbs then
      if s.tk.run + 1 = 3 then (run 0 (s.ev .TK_UNLOCK)).tkState 1 else run (s.tk.run + 1) s
    else run 0 s
  | _ => s

/-- A comparison with phase error e. -/
def State.compare (s : State) (e : Int) : State :=
  ((s.setRg R.TK_PHASE_ERR_E (satBits e 32)).correct e).judge e

/-- A comparison of a PON or 1PPS source: its TAI at the reference instant, now. -/
def State.compareTai (s : State) (tai : Nat) : State :=
  let s := if s.flag R.TK_STAT_EPOCH_VALID then s else s.setEpoch ((((tai : Int) - s.tk.ns) % 2 ^ 64).toNat)
  s.compare (sext (toBits ((s.taiAt s.tk.ns : Int) - tai) 64) 64)

/-- A comparison with a Byklink master's TK_NS; the first copies its EPOCH_TAI (R205). -/
def State.compareMaster (s : State) (tkNs : Nat) (epoch : Option Nat) : State :=
  let s := if s.flag R.TK_STAT_EPOCH_VALID then s else match epoch with
    | some v => s.setEpoch v
    | none => s
  s.compare ((s.tk.ns : Int) - tkNs)

/-! ## Events -/

/-- TK_COMPARISON (R216): the source in use is compared. For a PON or 1PPS source `t` is its TAI; for Byklink it is the
master's TK_NS, and `epoch` the master's EPOCH_TAI when that is valid. -/
def execTkComparison (t : Nat) (epoch : Option Nat) (s : State) : Host.Outcome State Fault Refusal :=
  .next (match s.rg R.TK_STAT_SRC with
    | 0 => s
    | 4 => s.compareMaster t epoch
    | _ => s.compareTai t)

/-- PPS_IN_EDGE (R209, R210): a labelled edge is a comparison when source 3 is in use; the second of two unlabelled edges
loses the source. -/
def execPpsInEdge (s : State) : Host.Outcome State Fault Refusal :=
  let lab := s.tk.label
  let s := { s with tk := { s.tk with
    edge := some s.tk.localNs, label := none, unlabelled := if lab.isSome then 0 else s.tk.unlabelled + 1 } }
  match lab with
  | some sec => .next (if s.rg R.TK_STAT_SRC = 3 then s.compareTai (sec * 1000000000) else s)
  | none => .next (if 2 ≤ s.tk.unlabelled then s.srcLost 3 else s)

/-- TOD_RX_MESSAGE (R210): a message that ends `after` nanoseconds after the preceding edge labels the next one when it is
timely and its CHECK is right. -/
def execTodRxMessage (msg : List Byte) (after : Nat) (s : State) : Host.Outcome State Fault Refusal :=
  match s.tk.edge with
  | none => .next s
  | some e =>
    let s := s.since e after
    let sum := ((msg.take 8).map (·.toNat)).sum % 256
    if msg.length = 9 && rec8 msg 0 = 0xA5 && decide (100000000 ≤ after) && decide (after ≤ 900000000) && rec8 msg 8 = sum then
      .next { s with tk := { s.tk with label := some (recF msg 1 0 48) } }
    else .next s

/-- TK_SOURCE_QUALIFIED (R211): a source has been valid for QUAL_S seconds. -/
def execTkSourceQualified (src : Fin 5) (s : State) : Host.Outcome State Fault Refusal :=
  .next (if src.val = 0 then s else s.srcQualified src)

/-- TK_SOURCE_LOST (R213). -/
def execTkSourceLost (src : Fin 5) (s : State) : Host.Outcome State Fault Refusal :=
  .next (if src.val = 0 then s else s.srcLost src)

/-- TK_HOLDOVER_EXPIRED (R214): the budget is HOLD_SEC seconds, or 10 s while REF10M_OK is 0. -/
def execTkHoldoverExpired (s : State) : Host.Outcome State Fault Refusal :=
  if s.rg R.TK_STAT_STATE = 3 then
    let sec := if s.flag R.TK_STAT_REF10M_OK then s.rg R.TK_HOLD_HOLD_SEC else 10
    .next (((s.since s.tk.holdFrom (sec * 1000000000)).ev .TK_HOLD_EXPIRED).tkState 4)
  else .next s

/-- TK_STEP_APPLY (R216): the error that remains is stepped once the conditions hold and it still exceeds STEP_NS. -/
def execTkStepApply (s : State) : Host.Outcome State Fault Refusal :=
  let e : Int := s.tk.slewLeft.tdiv (2 ^ 32)
  .next (if s.flag R.TK_STAT_STEP_PEND && s.stepOk && decide (s.rg R.TK_LIMITS_STEP * 100 < e.natAbs) then s.stepBy e else s)

/-- REF10M_LOSS and REF10M_QUALIFIED (R215). -/
def execRef10mLoss (s : State) : Host.Outcome State Fault Refusal := .next (s.setRg R.TK_STAT_REF10M_OK 0)
def execRef10mQualified (s : State) : Host.Outcome State Fault Refusal := .next (s.setRg R.TK_STAT_REF10M_OK 1)

/-- TK_NS_LO_READ (R206): the read answers TK_NS [31:0] and latches the other three registers. -/
def execTkNsLoRead (s : State) : Host.Outcome State Fault Refusal :=
  let p := s.nrPhase s.tk.ns
  let s := (s.setRg R.TK_NS_HI_NS (s.tk.ns / 2 ^ 32)).setRg R.TK_FRAC_FRAC s.tk.frac
  let s := ((s.setRg R.TK_NR_SFN (p / 10000000)).setRg R.TK_NR_SUBFRAME (p / 1000000 % 10)).setRg R.TK_NR_SUB_NS (p % 1000000)
  .next { s with lastRead := s.tk.ns % 2 ^ 32 }

/-- A write of 1 to ARM of SYSREF output `n` (R222). -/
def State.sysrefArm (s : State) (n : Nat) : State :=
  let k := match s.rg R.SYSREF_CTL_MODE n with
    | 2 => s.rg R.SYSREF_CTL_COUNT n
    | 3 => 1
    | _ => 0
  if k = 0 then s else { s with tk := { s.tk with sysArm := vset s.tk.sysArm n k } }

/-- SYSREF_ARM (R222). -/
def execSysrefArm (n : Fin 4) (s : State) : Host.Outcome State Fault Refusal := .next (s.sysrefArm n)

/-- The next SYSREF edge after the last one of output `n` (R221), rounded up to a nanosecond: PER periods of 983.04 MHz each,
from the start of the 10 ms frame. -/
def State.sysrefNext (s : State) (n : Nat) : Nat :=
  let t := max s.tk.ns ((vget s.tk.sysLast n).elim 0 (· + 1))
  let per := s.rg R.SYSREF_PER_PER
  let ph := s.nrPhase t % 10000000
  let k := ceilDiv (ph * 9830400) (10000000 * per)
  t - ph + ceilDiv (k * per * 10000000) 9830400

/-- SYSREF_PULSE (R221, R222): a pulse of WIDTH periods on output `n`. -/
def execSysrefPulse (n : Fin 4) (s : State) : Host.Outcome State Fault Refusal :=
  let mode := s.rg R.SYSREF_CTL_MODE n
  let left := vget s.tk.sysArm n
  if mode = 1 || ((mode = 2 || mode = 3) && 0 < left) then
    let t := s.sysrefNext n
    let s := s.reach t
    let s := { s with tk := { s.tk with
      sysLast := vset s.tk.sysLast n (some t), sysArm := if mode = 1 then s.tk.sysArm else vset s.tk.sysArm n (left - 1) } }
    .next (s.emit (.port "sysref" n [t, s.rg R.SYSREF_CTL_WIDTH n]))
  else .next s

/-- PPS_OUT_PULSE (R223): PPS_OUT rises PPS_ADV before the next whole TAI second that has not been pulsed, at least 500 ms
after the last pulse. -/
def execPpsOutPulse (s : State) : Host.Outcome State Fault Refusal :=
  if s.flag R.TK_HOLD_PPS_EN && s.flag R.TK_STAT_EPOCH_VALID &&
      !(s.flag R.TK_HOLD_PPS_SQUELCH && s.rg R.TK_STAT_STATE == 4) then
    let adv := sext (s.rg R.PPS_ADV_ADV) 32
    let s := match s.tk.ppsSec with
      | some _ => s.since s.tk.ppsAt 500000000
      | none => s
    let now : Int := (s.taiAt s.tk.ns : Int) + adv
    let sec := max ((now + 999999999) / 1000000000).toNat (s.tk.ppsSec.elim 0 (· + 1))
    let s := s.reach (s.tk.ns + ((sec : Int) * 1000000000 - now).toNat)
    .next ({ s with tk := { s.tk with ppsSec := some sec, ppsAt := s.tk.localNs } }.emit (.port "pps" 0 [sec]))
  else .next s

end Sys2Proof.Machine
end

