-- ==== Sys2Proof/Machine/PortBase.lean ====
section
/-! DEFINITION. The PON ports' shared parts (R321, R325, R369): the record, the XGEM table, notices. -/

namespace Sys2Proof.Machine

def State.port (s : State) (p : Nat) : Port := vget s.ports p
def State.modPort (s : State) (p : Nat) (f : Port → Port) : State := { s with ports := vmod s.ports p f }

/-- Fields of the PON record (Table CMO-4); those of `pmRec` wait for a frame boundary (Table PON-8). -/
def Port.mode (x : Port) : Nat := recF x.rec_ 0 0 2
def Port.enabled (x : Port) : Bool := recF x.rec_ 0 2 1 == 1
def Port.predict (x : Port) : Bool := recF x.rec_ 0 3 1 == 1
def Port.pmEn (x : Port) : Bool := recF x.pmRec 0 4 1 == 1
def Port.watchful (x : Port) : Bool := recF x.pmRec 0 5 1 == 1
def Port.upRate (x : Port) : Nat := recF x.rec_ 1 0 2
def Port.iterMax (x : Port) : Nat := if recF x.pmRec 2 0 4 = 0 then 6 else recF x.pmRec 2 0 4
def Port.lookahead (x : Port) : Nat := rec16 x.rec_ 4
def Port.to1Ms (x : Port) : Nat := if rec16 x.rec_ 8 = 0 then 10000 else rec16 x.rec_ 8
def Port.to2Ms (x : Port) : Nat := if rec16 x.rec_ 10 = 0 then 125 else rec16 x.rec_ 10
def Port.lowPowerMs (x : Port) : Nat := rec16 x.pmRec 18
def Port.awareMs (x : Port) : Nat := rec16 x.pmRec 20

/-- The upstream line rate in kb/s (Table PON-1). -/
def Port.upKbps (x : Port) : Nat :=
  if x.mode = 2 then 9953280 else match x.upRate with | 0 => 12441600 | 1 => 24883200 | _ => 49766400

def State.inO5 (s : State) (p : Nat) : Bool := s.rg R.PON_STAT_OSTATE p == 5

/-- The Pool owner of a port (Table POL-5). -/
def portOwner (p : Nat) : Nat := 43 + p

/-- Vector 67 and its cause. -/
def State.ponIrq (s : State) : State := s.cause R.INT_CAUSE_PON 67

/-! ## The XGEM table (R321) -/

def Port.entry (x : Port) (e : Nat) : XgemEntry := Store.get {} x.xgem e

/-- The valid entry of a direction and PORT_ID. -/
def Port.findEntry (x : Port) (up : Bool) (portId : Nat) : Option (Nat × XgemEntry) :=
  x.xgem.find? (fun e => e.2.valid && e.2.up == up && e.2.portId == portId)

/-- The downstream KIND 0 entry of a port. -/
def Port.omci (x : Port) : Option (Nat × XgemEntry) := x.xgem.find? (fun e => e.2.valid && !e.2.up && e.2.kind == 0)

/-- The upstream KIND 3 entry that names a carrier (R326). -/
def Port.blockEntry (x : Port) (c : Nat) : Option Nat :=
  (x.xgem.find? (fun e => e.2.valid && e.2.up && e.2.kind == 3 && e.2.carriers.testBit c)).map (·.1)

/-- The group's state and members (Table BND-6). -/
def State.bndState (s : State) : Nat := s.rg R.BND_STAT_STATE
def State.isMember (s : State) (p : Nat) : Bool := s.flag (if p = 0 then R.BND_STAT_MEM_A else R.BND_STAT_MEM_B)

/-- Whether an entry is bonded (R369): in the map, valid on both ports with one PORT_ID, DIR and KIND. -/
def State.bonded (s : State) (p e : Nat) : Bool :=
  let x := (s.port p).entry e
  s.bndState != 0 && x.valid && decide (1 ≤ x.kind) && decide (x.kind ≤ 3) && s.bond.map.contains x.portId &&
    (match (s.port (1 - p)).findEntry x.up x.portId with | some y => y.2.kind == x.kind | none => false)

/-! ## Notices (R325) -/

/-- Bytes 0 to 11 of a PON notice (Table PON-4). -/
def ponNotice (handle len port kind : Nat) (last peer : Bool) (dev entry seq tag : Nat) : Nat :=
  handle % 2 ^ 32 + (len % 2 ^ 17 + port * 2 ^ 17 + kind * 2 ^ 18 + (if last then 2 ^ 21 else 0) +
    (if peer then 2 ^ 22 else 0) + dev * 2 ^ 23) * 2 ^ 32 + (entry + seq % 256 * 2 ^ 8 + tag % 2 ^ 16 * 2 ^ 16) * 2 ^ 64

/-- A buffer given to the user that owns a ring, and its notice posted; freed where the ring takes no notice (R453), which counts
in REASM_DROP. -/
def State.ponGive (s : State) (p ring handle : Nat) (body : Nat → Nat) : State :=
  if s.noticeFits ring then
    let a := s.pgive (portOwner p) handle (32 + (s.ring ring).owner)
    if a.status = Sc.ok then a.st.notice ring (body a.val) else a.st
  else ((s.pfree (portOwner p) handle).st).incRg R.PON_DROP_REASM_DROP p

/-- A plain SDU delivered in its buffer. -/
def State.ponSdu (s : State) (p e handle len : Nat) : State :=
  let x := (s.port p).entry e
  s.ponGive p x.ring handle (fun h => ponNotice h len p x.kind true false s.dev e 0 0)

/-- Bytes stored in a new buffer of an entry's class and delivered as a plain SDU; a refusal is counted (R320). -/
def State.ponDeliver (s : State) (p e : Nat) (data : List Byte) : State :=
  let x := (s.port p).entry e
  let a := s.alloc (portOwner p) x.cls
  if a.status = Sc.ok then
    match a.st.handleMem a.val with
    | some (m, n) =>
      if data.length ≤ n then (a.st.write m data).ponSdu p e a.val data.length
      else ((a.st.pfree (portOwner p) a.val).st).incRg R.PON_DROP_OVERSIZE p
    | none => a.st
  else a.st.incRg R.PON_DROP_REASM_DROP p

/-- Whether firmware holds what comes on an entry for the host: OMCI of an autonomous activation (R649). -/
def State.holdsOmci (s : State) (p e : Nat) : Bool :=
  let x := (s.port p).entry e
  (s.port p).holding && x.valid && !x.up && x.kind == 0

/-- An OMCI SDU or PLOAM copy held in on-chip memory: 32 at most, further ones count in REASM_DROP (R649). -/
def State.holdOmci (s : State) (p : Nat) (data : List Byte) : State :=
  if (s.port p).omciHeld.length < 32 then s.modPort p (fun x => { x with omciHeld := x.omciHeld ++ [data] })
  else s.incRg R.PON_DROP_REASM_DROP p

/-- A downstream PLOAM copied to the host (R337): a plain SDU on the KIND 0 entry. -/
def State.copyPloam (s : State) (p : Nat) (msg : List Byte) : State :=
  match (s.port p).omci with
  | some e => if s.holdsOmci p e.1 then s.holdOmci p msg else s.ponDeliver p e.1 msg
  | none => s

end Sys2Proof.Machine
end

