-- ==== Sys2Proof/Machine/Down.lean ====
section
/-! DEFINITION. Downstream data (R320, R324, R373, R374): reassembly of SDUs and blocks into Pool buffers, and the resequencing of
bonded SDUs. -/

namespace Sys2Proof.Machine

/-! ## Blocks (R324) -/

/-- Fields of a block header (Table PON-3). -/
def bhDev (h : List Byte) : Nat := recF h 0 0 6
def bhCarrier (h : List Byte) : Nat := recF h 1 0 2
def bhTag (h : List Byte) : Nat := rec16 h 2
def bhTbs (h : List Byte) : Nat := rec32 h 8
def bhOff (h : List Byte) : Nat := recF h 12 0 24

def State.openBlock (s : State) (p e : Nat) : Option OpenBlock := (s.port p).blocks.find? (fun b => b.entry == e)

def State.setBlock (s : State) (p e : Nat) (b : Option OpenBlock) : State :=
  s.modPort p (fun x => { x with blocks := x.blocks.filter (fun y => y.entry != e) ++ b.toList })

/-- An open block discarded with its buffers; `f` counts it. -/
def State.dropBlock (s : State) (p e : Nat) (f : Fld) : State :=
  match s.openBlock p e with
  | some b => ((s.freeAll (portOwner p) b.bufs).setBlock p e none).incRg f p
  | none => s

/-- The notices of a complete block, in buffer order (R325). -/
def State.blockNotices (s : State) (p e : Nat) (b : OpenBlock) (size : Nat) : State :=
  let x := (s.port p).entry e
  let len := bhTbs b.hdr / 8
  let n := b.bufs.length
  (List.range n).foldl (fun s k =>
    s.ponGive p x.ring (b.bufs.getD k 0) (fun h =>
      ponNotice h (min size (len - k * size)) p x.kind (k + 1 == n) false (bhDev b.hdr) e k (bhTag b.hdr))) s

/-- A segment of a block on a KIND 2 entry (R324): its header, then its bytes at OFFSET. -/
def State.segment (s : State) (p e : Nat) (sdu : List Byte) : State :=
  let x := (s.port p).entry e
  let h := sdu.take 16
  let d := sdu.drop 16
  let size := 2 ^ (s.pclass x.cls).size
  let s := match s.openBlock p e with
    | some b => if bhTag b.hdr = bhTag h && b.next = bhOff h then s else s.dropBlock p e R.PON_BLOCK_BLOCK_DROP
    | none => s
  let s := if (s.openBlock p e).isNone && bhOff h = 0 then s.setBlock p e (some ⟨e, h, 0, [], s.tk.localNs⟩) else s
  match s.openBlock p e with
  | none => s
  | some b =>
    -- a buffer is allocated when its first segment arrives
    let a := if b.bufs.length ≤ bhOff h / size then s.alloc (portOwner p) x.cls else ⟨Sc.ok, 0, s⟩
    let s := a.st
    if a.status ≠ Sc.ok then s.dropBlock p e R.PON_DROP_REASM_DROP
    else
      let bufs := if a.val = 0 then b.bufs else b.bufs ++ [a.val]
      let s := match s.handleMem (bufs.getD (bhOff h / size) 0) with
        | some (m, _) => s.write (m + bhOff h % size) d
        | none => s
      let b := { b with next := b.next + d.length, bufs := bufs }
      if bhTbs b.hdr / 8 ≤ b.next then (s.setBlock p e none).blockNotices p e b size
      else s.setBlock p e (some b)

/-- A whole SDU passed to reassembly (R320, R324): a segment of a KIND 2 entry, a plain SDU of a KIND 0 or 1 entry. -/
def State.passSdu (s : State) (p e : Nat) (sdu : List Byte) : State :=
  match ((s.port p).entry e).kind with
  | 2 => s.segment p e sdu
  | 0 | 1 => s.ponDeliver p e sdu
  | _ => s

/-! ## Resequencing (R372 to R374) -/

/-- S in nanoseconds: the mean of the differences measured (R372). -/
def State.skewNs (s : State) : Int :=
  if s.bond.skews.isEmpty then 0 else s.bond.skews.sum / (s.bond.skews.length : Int)

def State.bondPort (s : State) (id : Nat) : BondPort := (s.bond.down.find? (fun b => b.portId == id)).getD { portId := id }

def State.setBondPort (s : State) (b : BondPort) : State :=
  { s with bond := { s.bond with down := s.bond.down.filter (fun x => x.portId != b.portId) ++ [b] } }

/-- Steps of SEQ from `b` to `a`, modulo 2^24. -/
def seq24 (a b : Nat) : Nat := (a + 2 ^ 24 - b) % 2 ^ 24

/-- The held SDU of a bonded PORT_ID that its expected SEQ comes to first. -/
def BondPort.nearest (b : BondPort) (ex : Nat) : Option HeldSdu :=
  b.held.foldl (fun (m : Option HeldSdu) h =>
    match m with
    | none => some h
    | some k => if seq24 h.seq ex < seq24 k.seq ex then some h else some k) none

/-- Held SDUs passed on while the expected SEQ is held; the count bounds the recursion. -/
def State.bondRun (id : Nat) : Nat → State → State
  | 0, s => s
  | n + 1, s =>
    let b := s.bondPort id
    match b.expect with
    | none => s
    | some ex =>
      match b.held.find? (fun h => h.seq == ex) with
      | none => s
      | some h =>
        let s := s.setBondPort { b with expect := some ((ex + 1) % 2 ^ 24), held := b.held.filter (fun k => k.seq != ex) }
        State.bondRun id n (s.passSdu h.member h.entry h.data)

/-- Advance past missing SEQs of a PORT_ID up to `target`, each counted in SEQ_LOSS, and pass on what has become deliverable. -/
def State.bondAdvance (s : State) (id target : Nat) : State :=
  let b := s.bondPort id
  match b.expect with
  | none => s
  | some ex =>
    let s := (s.setBondPort { b with expect := some target }).incRg R.BND_SEQ_SEQ_LOSS 0 0 (seq24 target ex)
    State.bondRun id b.held.length s

/-- Bytes held in the resequencing store. -/
def State.storeUsed (s : State) : Nat := ((s.bond.down.flatMap (·.held)).map (fun h => h.data.length)).sum

/-- Make room in the store of 1 MiB for an SDU of `n` bytes with SEQ `seq` of PORT_ID `id` (R374); the count bounds the recursion. -/
def State.makeRoom (id seq n : Nat) : Nat → State → State
  | 0, s => s
  | k + 1, s =>
    if s.storeUsed + n ≤ 2 ^ 20 || (s.bondPort id).expect = some seq then s
    else
      let all := s.bond.down.flatMap (fun b => b.held.map (fun h => (b.portId, h)))
      match all.foldl (fun (m : Option (Nat × HeldSdu)) x =>
          match m with
          | none => some x
          | some y => if x.2.at_ < y.2.at_ then some x else some y) none with
      | none => s
      | some (w, _) =>
        let b := s.bondPort w
        match b.expect with
        | none => s
        | some ex =>
          let near := ((b.nearest ex).map (·.seq)).getD ex
          let target := if w = id && seq24 seq ex < seq24 near ex then seq else near
          State.makeRoom id seq n k ((s.incRg R.BND_FULL_STORE_FULL 0 0 (seq24 target ex)).bondAdvance w target)

/-- A bonded SDU arrives on a member (R373): its shim (Table BND-1) comes before it. -/
def State.bondArrive (s : State) (p e : Nat) (whole : List Byte) : State :=
  let id := ((s.port p).entry e).portId
  let seq := recF whole 0 0 24
  let sdu := whole.drop 4
  if s.bndState = 1 then s.passSdu p e sdu
  else
    let b := s.bondPort id
    match b.expect with
    | none => (s.setBondPort { b with expect := some ((seq + 1) % 2 ^ 24) }).passSdu p e sdu
    | some ex =>
      if seq = ex then
        State.bondRun id b.held.length ((s.setBondPort { b with expect := some ((ex + 1) % 2 ^ 24) }).passSdu p e sdu)
      else if 2 ^ 23 ≤ seq24 seq ex || b.held.any (fun h => h.seq == seq) then s.incRg R.BND_SEQ_LATE
      else
        let s := State.makeRoom id seq sdu.length (s.bond.down.flatMap (·.held)).length s
        let b := s.bondPort id
        if b.expect = some seq then
          State.bondRun id b.held.length ((s.setBondPort { b with expect := some ((seq + 1) % 2 ^ 24) }).passSdu p e sdu)
        else s.setBondPort { b with held := b.held ++ [⟨p, e, seq, sdu, s.tk.localNs⟩] }

/-- With a member gone nothing more is waited for: every PORT_ID goes on to what it holds (R377); the count bounds the recursion. -/
def State.bondFlush (id : Nat) : Nat → State → State
  | 0, s => s
  | n + 1, s =>
    let b := s.bondPort id
    match b.expect with
    | some ex => match b.nearest ex with
      | some h => State.bondFlush id n (s.bondAdvance id h.seq)
      | none => s
    | none => s

/-- Every bonded PORT_ID goes on to what it holds. -/
def State.bondFlushAll (s : State) : State :=
  s.bond.down.foldl (fun s b => State.bondFlush b.portId b.held.length s) s

end Sys2Proof.Machine
end

