-- ==== Sys2Proof/Machine/Port.lean ====
section
/-! DEFINITION. The PON ports' shared parts (R326 to R344, R376, R377): upstream data, activation and power-saving states, the permission
of the laser, members of the group, and blocks handed to a port. -/

namespace Sys2Proof.Machine

/-! ## Upstream data (R326 to R328) -/

/-- The number of SDUs of an item: a block's segments of 8,192 bytes (R323), else one. -/
def UpItem.segs (i : UpItem) : Nat := if i.kind = 3 then ceilDiv i.len 8192 else 1

/-- Bytes ahead of the data in SDU `k`: the bond shim once it has its SEQ, and a block's header. -/
def UpItem.lead (i : UpItem) (k : Nat) : Nat :=
  (if i.seqs.any (fun q => q.1 == k) then 4 else 0) + (if i.kind = 3 then 16 else 0)

/-- Data bytes of SDU `k`, and all its bytes. -/
def UpItem.dataLen (i : UpItem) (k : Nat) : Nat := if i.kind = 3 then min 8192 (i.len - 8192 * k) else i.len
def UpItem.sduLen (i : UpItem) (k : Nat) : Nat := i.lead k + i.dataLen k

/-- Data queued on a port; queued data is a local wake stimulus (R342), which the caller applies. -/
def State.pushItem (s : State) (p : Nat) (i : UpItem) : State :=
  let id := (s.port p).itemNext
  let i := { i with id := id, ready := s.tk.ns }
  s.modPort p (fun x => { x with
    items := x.items ++ [{ i with todo := (List.range i.segs).map (fun k => (k, 0)) }], itemNext := id + 1 })

/-- Whether the laser of a port is permitted (R334, R405): the optic accepted and not at an end of life that holds it, the
configuration done, no hold after TX_FAULT. -/
def State.laserPermit (s : State) (p : Nat) : Bool :=
  let o := vget s.optics p
  s.boot.stop.isNone && decide (s.pwr.failStage < 4) && s.rg R.OPT_STAT_STATE p == 3 && (s.port p).enabled && !o.txHold &&
    !(s.rg R.OPT_STAT_WEAR p == 2 && recF o.rec_ 0 2 1 == 1)

/-- The LASER bit (Table PON-9): permitted, and on: not in O1, O6 or O7, not held off (Table DEF-3), not in LOW or AWARE but for a dying
gasp (R355). In O7 a burst in progress completes first. -/
def State.laserUpdate (s : State) (p : Nat) : State :=
  let o := s.rg R.PON_STAT_OSTATE p
  let pm := s.rg R.PON_STAT_PM p
  s.setRg R.PON_STAT_LASER (if s.laserPermit p && o != 1 && o != 6 &&
    (o != 7 || (s.flag R.PON_STAT_LASER p && (s.port p).bursts.any (·.started))) && !s.flag R.PON_DEF_LASER_HOLD p &&
    ((pm != 2 && pm != 3) || (s.port p).gasp) then 1 else 0) p

/-- Power saving ends for a stimulus (Table PON-7, R343): the laser comes on and Sleep_Request (Awake) is queued; counts of frozen
defects start again (Table DEF-2). -/
def State.ponStimulus (s : State) (p : Nat) : State :=
  let pm := s.rg R.PON_STAT_PM p
  if pm = 0 then s
  else
    let s := ((s.setRg R.PON_STAT_PM 0 p).modPort p (fun x => { x with sleepQ := some 0 })).laserUpdate p
    if (s.port p).frozen then
      s.modPort p (fun x => { x with
        frozen := false
        defects := x.defects.map (fun d => { d with since := s.tk.localNs, count := 0 }) })
    else s

/-! ## Returning fixed data -/

/-- A piece of an item put back in its queue. -/
def State.unfixPiece (s : State) (c : Piece) : State :=
  s.modPort c.port (fun x => { x with items := x.items.map (fun i =>
    if i.id == c.item then
      let old := (i.todo.find? (fun t => t.1 == c.seg)).map (·.2)
      let others := i.todo.filter (fun t => t.1 != c.seg)
      let before := others.filter (fun t => decide (t.1 < c.seg))
      let after := others.filter (fun t => decide (c.seg < t.1))
      { i with todo := before ++ (c.seg, min c.off (old.getD c.off)) :: after }
    else i) })

/-- What a burst that is not sent held goes back to its queues, in order. -/
def State.unfixBurst (s : State) (p : Nat) (b : Burst) : State :=
  let s := b.pieces.reverse.foldl State.unfixPiece s
  let s := b.frt.reverse.foldl (fun s f => { s with
    frts := vmod s.frts f.1 (fun t => { t with waiting := f.2 :: t.waiting }) }) s
  s.modPort p (fun x => { x with
    ploamQ := b.ploam ++ x.ploamQ
    sleepQ := match x.sleepQ with | none => b.sleep | q => q
    bursts := x.bursts.filter (fun y => !(y == b)) })

/-- Bonded data fixed into bursts of a member that have not started returns to the group's queue (R377). -/
def State.unfixBonded (s : State) (p : Nat) : State :=
  let out := ((s.port p).bursts.filter (fun b => !b.started)).flatMap (fun b => b.pieces.filter (fun c =>
    match (s.port c.port).items.find? (fun i => i.id == c.item) with
    | some i => s.bonded c.port i.entry
    | none => false))
  let s := (out.reverse.foldl State.unfixPiece s).modPort p (fun x => { x with bursts := x.bursts.map (fun b =>
    if b.started then b else { b with
      pieces := b.pieces.filter (fun c => !out.contains c), body := b.body.filter (fun y => !y.piece.any out.contains) }) })
  -- frames of the group's tributaries go to the other member with their SEQ kept
  let group (t : Nat) : Bool := (vget s.frts t).port == 2
  let back := (((s.port p).bursts.filter (fun b => !b.started)).flatMap (·.frt)).filter (fun f => group f.1)
  let s := (back.reverse.foldl (fun s f => { s with
    frts := vmod s.frts f.1 (fun t => { t with waiting := f.2 :: t.waiting }) }) s).modPort p (fun x => { x with
      bursts := x.bursts.map (fun b => if b.started then b else { b with
        frt := b.frt.filter (fun f => !group f.1), body := b.body.filter (fun y => !y.frt.any group) }) })
  -- a segment of which the member has sent a part goes whole on the other member (notes/assumptions/23.md)
  { s with ports := s.ports.map (fun x => { x with items := x.items.map (fun i => { i with
    todo := i.todo.map (fun t => if i.seqs.any (fun q => q.1 == t.1 && q.2 / 2 ^ 24 == p) then (t.1, 0) else t) }) }) }

/-! ## Members of the group (R376, R377) -/

/-- Partial downstream SDUs of bonded entries of a port discarded. -/
def State.dropPartial (s : State) (p : Nat) : State :=
  ((s.port p).sdus.filter (fun o => s.bonded p o.entry)).foldl (fun s o =>
    let s := if o.handle = 0 then s else (s.pfree (portOwner p) o.handle).st
    s.modPort p (fun x => { x with sdus := x.sdus.filter (fun q => q.entry != o.entry) })) s

/-- A member of the group is lost (R377). -/
def State.memberLost (s : State) (p : Nat) : State :=
  let st := s.bndState
  let leave (s : State) : State :=
    let s := { s with bond := { s.bond with count := 0, readmit := s.bond.readmit.filter (· != p), clearAt := vset s.bond.clearAt p none } }
    (((s.setRg (if p = 0 then R.BND_STAT_MEM_A else R.BND_STAT_MEM_B) 0).dropPartial p).bondFlushAll).unfixBonded p
  if !s.isMember p then s
  else if (st = 1 || st = 2) && s.inO5 (1 - p) then
    ((((leave s).setRg R.BND_STAT_STATE 3).ev .BND_DEGRADED).incRg R.BND_EVT_DEGRADES).ponIrq
  else if st = 3 then (leave s).setRg R.BND_STAT_STATE 4
  else s

/-! ## Activation (Table PON-5) -/

/-- A port enters an activation state (R333); leaving O5 ends power saving, membership and the
port as a time source (R209). -/
def State.setO (s : State) (p v : Nat) : State :=
  let old := s.rg R.PON_STAT_OSTATE p
  if old = v then s
  else
    let s := (s.setRg R.PON_STAT_OSTATE v p).ev .PON_STATE p
    let s := s.ponIrq
    let s := if old = 5 then
        let s := ((s.setRg R.PON_STAT_PM 0 p).setRg R.PON_DEF_RDI 0 p).modPort p (fun x => { x with sleepQ := none })
        let s := { s with bond := { s.bond with clearAt := vset s.bond.clearAt p none } }
        (({ s with pm := { s.pm with outO5 := vset s.pm.outO5 p true } }).memberLost p).srcLost (p + 1)
      else s
    s.laserUpdate p

/-- Activation data cleared (Table PON-5): ONU-ID, EqD, Alloc-IDs and unicast keys. -/
def State.clearActivation (s : State) (p : Nat) : State :=
  ((s.setRg R.PON_STAT_ONU_ID 0 p).setRg R.PON_EQD_EQD 0 p).modPort p (fun x => { x with
    allocs := [], uni := [], keyNew := none, eqdPend := none })

/-- A port in O1 that is synchronised, with a burst profile learned and its laser permitted, goes on to O2-3. -/
def State.leaveO1 (s : State) (p : Nat) : State :=
  let x := s.port p
  if s.rg R.PON_STAT_OSTATE p = 1 && x.enabled && s.flag R.PON_STAT_SYNC p && !x.profiles.isEmpty && s.laserPermit p then
    s.setO p 2
  else s

/-! ## Blocks (R326, R327) -/

/-- Buffers given from one owner to another: the handles they then have. -/
def State.giveAll (s : State) (req dst : Nat) : List Nat → List Nat × State
  | [] => ([], s)
  | h :: hs =>
    let a := s.pgive req h dst
    let r := a.st.giveAll req dst hs
    (if a.status = Sc.ok then a.val :: r.1 else r.1, r.2)

/-- A block handed to a port's KIND 3 entry: its buffers have the port's owner. -/
def State.queueBlock (s : State) (p e : Nat) (hdr : List Byte) (bufs : List Nat) (len : Nat) (peer : Bool) : State :=
  let size := match s.handleMem (bufs.headD 0) with | some m => m.2 | none => len
  (s.pushItem p { id := 0, entry := e, kind := 3, bufs := bufs, size := size, len := len, hdr := hdr, ready := 0, todo := [], peer := peer }).ponStimulus p

/-- The header of a local uplink block (Table PON-3). -/
def State.blockHdr (s : State) (h : Heat) (j tbs : Nat) : List Byte :=
  leBytes 1 s.dev ++ leBytes 1 h.carrier ++ leBytes 2 (rec16 h.desc 4 * 64 + j) ++
    leBytes 4 (h.sfn + h.subframe * 2 ^ 10 + h.nrSlot * 2 ^ 14) ++ leBytes 4 tbs ++ leBytes 4 0

/-- The decoded blocks of an uplink Heat at its commit (R326, R578): to Byklink where the carrier is forwarded, else to the port
whose KIND 3 entry names the carrier; the Heat's jobs then hold the new handles. -/
def State.forwardBlocks (s : State) (slot : Nat) : State :=
  match s.heat slot with
  | none => s
  | some h =>
    if !h.uplinkRadio then s
    else
      let c := h.carrier
      let port := [0, 1].find? (fun p => (s.port p).enabled && ((s.port p).blockEntry c).isSome)
      h.jobs.zipIdx.foldl (fun s x =>
        let j := x.1
        let tbs := recF j.rec_ 32 0 32
        if j.bufs.isEmpty || recF j.rec_ 0 0 2 != 0 then s
        else
          let hdr := s.blockHdr h x.2 tbs
          let keep (s : State) (bufs : List Nat) : State :=
            s.modHeat slot (fun h => { h with jobs := modAt h.jobs x.2 (fun j => { j with bufs := bufs }) })
          match h.fwd with
          | some d =>
            let g := s.giveAll 42 45 j.bufs
            (keep g.2 g.1).forwardBlock d c hdr g.1 (tbs / 8)
          | none => match port with
            | some p =>
              let g := s.giveAll 42 (portOwner p) j.bufs
              (keep g.2 g.1).queueBlock p (((s.port p).blockEntry c).getD 0) hdr g.1 (tbs / 8) false
            | none => s) s

/-- Where the last byte of buffer `k` of an item lies: its SDU, and the byte's place in that SDU. -/
def UpItem.lastByte (i : UpItem) (k : Nat) : Nat × Nat :=
  let b := min ((k + 1) * i.size) i.len - 1
  if i.kind = 3 then (b / 8192, i.lead (b / 8192) + b % 8192) else (0, i.lead 0 + b)

/-- Whether a piece carries the last byte of buffer `k` of its item. -/
def UpItem.carries (i : UpItem) (c : Piece) (k : Nat) : Bool :=
  let l := i.lastByte k
  c.item == i.id && c.seg == l.1 && decide (c.off ≤ l.2) && decide (l.2 < c.off + c.n)

/-- Pieces of a port's items in bursts that have started. -/
def State.onAir (s : State) (p : Nat) : List Piece :=
  s.ports.toList.flatMap (fun x => (x.bursts.filter (·.started)).flatMap (fun b => b.pieces.filter (fun c => c.port == p)))

/-- A block that can no longer be sent, given back to user 0 with its notices on ring 1 (R327). A buffer whose last byte is in a
burst that has started stays until that burst ends. -/
def State.returnBlock (s : State) (p : Nat) (i : UpItem) : State :=
  let air := s.onAir p
  let n := i.bufs.length
  let s := (List.range n).foldl (fun s k =>
    let h := i.bufs.getD k 0
    if h = 0 || air.any (fun c => i.carries c k) then s
    else
      let a := s.pgive (portOwner p) h 32
      let len := min i.size (i.len - k * i.size)
      if a.status = Sc.ok then
        a.st.notice 1 (ponNotice a.val len p 3 (k + 1 == n) i.peer (rec8 i.hdr 0 % 64) i.entry k (rec16 i.hdr 2))
      else a.st) s
  let left := (List.range n).map (fun k => if air.any (fun c => i.carries c k) then i.bufs.getD k 0 else 0)
  let put (is : List UpItem) : List UpItem :=
    if left.all (· == 0) then is.filter (fun j => j.id != i.id)
    else is.map (fun j => if j.id == i.id then { j with bufs := left, todo := [] } else j)
  s.modPort p (fun x => { x with items := put x.items })

/-- Upstream data of entries of a port that can no longer be sent, given back: blocks under R327, frames of PON_SEND to their users, whose
commands complete PON_NOT_OPERATING (R513). Bursts not yet started lose it. -/
def State.returnItems (s : State) (p : Nat) (sel : UpItem → Bool) : State :=
  let gone := ((s.port p).items.filter sel)
  let ids := gone.map (·.id)
  let s := { s with ports := s.ports.map (fun x => { x with bursts := x.bursts.map (fun b =>
    let lost (c : Piece) : Bool := c.port == p && ids.contains c.item
    if b.started then b else { b with
      pieces := b.pieces.filter (fun c => !lost c), body := b.body.filter (fun y => !y.piece.any lost) }) }) }
  gone.foldl (fun s i =>
    if i.kind = 3 then s.returnBlock p i
    else
      let air := (s.onAir p).any (fun c => i.carries c 0)
      if air then s.modPort p (fun x => { x with items := x.items.map (fun j => if j.id == i.id then { j with todo := [] } else j) })
      else
        let u := (s.ring i.ring).owner
        let s := (s.pgive (portOwner p) (i.bufs.headD 0) (32 + u)).st
        (s.modPort p (fun x => { x with items := x.items.filter (fun j => j.id != i.id) })).complete i.ring i.cid Sc.ponNotOperating) s

end Sys2Proof.Machine
end

