-- ==== Sys2Proof/Machine/Heat.lean ====
section
/-! DEFINITION. Heats in flight (R191 to R200): deciding taps (R265 to R268), the report, commit and release, Lane faults and
re-runs, cancels and watchdogs. -/

namespace Sys2Proof.Machine

/-! ## Lanes of a Heat -/

/-- Request a lane reset of Lane `n` (R84, Table LNE-7): tiles and staging cleared, the split timer not VALID, its transfers
aborted, chains told; one already RESETTING merges. -/
def State.laneReset (s : State) (n : Nat) : State :=
  if s.rg R.LANE_STAT_STATE n == 4 then s
  else
    let s := (s.abortEngine n).batonFault n
    let s := { s with lanes := vmod s.lanes n (fun l => { l with acc := [], stagA := [], stagB := [], drains := [], sticky := none }) }
    let s := ((s.setRg R.LANE_STAT_STATE 4 n).setRg R.LANE_STAT_HELD 0 n).setRg R.LANE_STAT_BOUND 0 n
    ((s.setRg R.SPLIT_STAT_VALID 0 n).setRg R.SPLIT_PERIOD_PERIOD 0 n).ev .LANE_RESET n

/-- The Lane of a Heat is no longer bound to it. -/
def State.unbindLane (s : State) (n slot : Nat) : State :=
  if s.flag R.LANE_STAT_BOUND n && s.rg R.LANE_STAT_HEAT n == slot then
    let s := s.setRg R.LANE_STAT_BOUND 0 n
    let s := if s.rg R.LANE_STAT_STATE n == 2 then s.setRg R.LANE_STAT_STATE 1 n else s
    { s with lanes := vmod s.lanes n (fun l => { l with
      idleSince := s.tk.localNs, sticky := none, acc := l.acc.filter (fun b => b.heat != slot) }) }
  else s

/-- Every Lane of a Heat stops: its virtual Lanes run nothing more. -/
def State.stopLanes (s : State) (slot : Nat) : State :=
  match s.heat slot with
  | none => s
  | some h =>
    let s := s.setHeat slot { h with vl := h.vl.map (fun v => { v with run := match v.run with | .ended => .ended | _ => .stopped }) }
    (List.range h.vl.length).foldl (fun s v => s.unbindLane (s.laneOf h v) slot) s

/-! ## Taps -/

/-- The fallback counters of a tap (Table TRK-6). -/
def fbLate (t : Nat) : Fld := match t with | 0 => R.TRK_FB_E_FB_LATE | 1 => R.TRK_FB_Q_FB_LATE | _ => R.TRK_FB_L_FB_LATE
def fbNorun (t : Nat) : Fld := match t with | 0 => R.TRK_FB_E_FB_NORUN | 1 => R.TRK_FB_Q_FB_NORUN | _ => R.TRK_FB_L_FB_NORUN

def Heat.tap (h : Heat) (t : Nat) : Tap := h.taps.getD t {}
def Heat.setTap (h : Heat) (t : Nat) (f : Tap → Tap) : Heat := { h with taps := modAt h.taps t f }

/-- Decide an undecided tap classical (R265, R267): its FB bit follows from the state, one counter advances. -/
def State.tapClassical (s : State) (slot t : Nat) (late : Bool) : State :=
  match s.heat slot with
  | none => s
  | some h =>
    if (h.tap t).st = .open_ then
      (s.setHeat slot (h.setTap t (fun x => { x with st := .classical }))).incRg (if late then fbLate t else fbNorun t) h.carrier
    else s

/-- Decide a tap classical because its stage does not run: the Lanes skip its entries. -/
def State.tapNorun (s : State) (slot t : Nat) : State :=
  match s.heat slot with
  | none => s
  | some h => (s.setHeat slot { h with skipSegs := (h.tap t).seg :: h.skipSegs }).tapClassical slot t false

/-- Every undecided tap decided classical for a cause other than the split time. -/
def State.tapsNorun (s : State) (slot : Nat) : State := (List.range 3).foldl (fun s t => s.tapNorun slot t) s

/-- The FB bits of the report (Table HEA-10). -/
def Heat.fb (h : Heat) : Nat :=
  (List.range 3).foldl (fun m t => if (h.tap t).st = .classical then setBit m t else m) 0

/-! ## The report and commit -/

/-- The 64-byte report (Table HEA-10). -/
def State.reportBytes (s : State) (h : Heat) : List Byte :=
  let f := (if h.everLate then 1 else 0) + (if h.late then 2 else 0) + 4 * h.fb + (if h.rerun then 32 else 0) +
    (if h.repair then 64 else 0)
  leBytes 8 h.admitNs ++ leBytes 8 h.doneNs ++ leBytes 2 h.status ++ leBytes 2 f ++ leBytes 4 (min h.sat (2 ^ 32 - 1)) ++
    slice (s.imageOf h) 16 8 ++ slice h.desc 4 2 ++ leBytes 2 h.undelivered ++ leBytes 4 (satBits h.minSlack 32) ++
    List.replicate 24 0

/-- One 8-byte job result (Table TRK-4); the gain is held in the job. -/
def Job.resultBytes (j : Job) : List Byte :=
  leBytes 4 (j.bufs.headD 0) ++ leBytes 1 (j.result.getD 1) ++ leBytes 1 (if j.invalid then 1 else 0) ++
    leBytes 1 j.gain ++ leBytes 1 j.iters

/-- The continuation table of R286: handles after the first of each job, at the first 64-byte boundary. -/
def resultList (jobs : List Job) : List Byte :=
  let recs := jobs.flatMap Job.resultBytes
  let cont := jobs.flatMap (fun j => (j.bufs.drop 1).flatMap (leBytes 4))
  if cont.isEmpty then recs
  else recs ++ List.replicate ((64 - recs.length % 64) % 64) 0 ++ cont

/-- The RESULT of a HEAT_SUBMIT completion (Table CMA-9): TAG, Heat slot, late-risk, FB, late. -/
def Heat.result (h : Heat) (slot : Nat) : Nat :=
  rec16 h.desc 4 + slot * 2 ^ 16 + (if h.everLate then 2 ^ 21 else 0) + h.fb * 2 ^ 22 +
    (if h.late then 2 ^ 25 else 0)

/-- The number of in-flight Heats marked late-risk (Table HSF-5). -/
def State.lateCount (s : State) : State :=
  s.setRg R.PACER_STAT_LATE_HEATS ((s.heatList.filter (fun p => p.2.lateRisk)).length)

/-- Bytes held in buffers, in order; none where a word is uncorrectable. -/
def State.bufBytes (s : State) : List Nat → Option (List Byte) × State
  | [] => (some [], s)
  | b :: bs =>
    match s.handleMem b with
    | none => s.bufBytes bs
    | some m =>
      let x := s.readMem m.1 m.2
      let y := x.2.bufBytes bs
      match x.1, y.1 with
      | some p, some q => (some (p ++ q), y.2)
      | _, _ => (none, y.2)

/-- The precoder tensor's bytes that the jobs use (R274). -/
def State.precoder (s : State) (h : Heat) (ants : Nat) : Option (List Byte) × State :=
  let n := (h.jobs.map (fun j => if jPrecoder j.rec_ = 0xFF then 0 else (jPrecoder j.rec_ + 1) * ants * jLayers j.rec_ * 4)).foldl max 0
  match h.binds.find? (fun b => rec16 b 0 == 2) with
  | none => (some [], s)
  | some b =>
    if rec8 b 2 = 0 then match s.handleMem (rec32 b 8) with
      | some m => s.readMem m.1 (min n m.2)
      | none => (some [], s)
    else s.readMem (recF b 8 0 46) n

/-- What a downlink Heat's jobs send, as its Heat commits: the precoder tensor and each job's source; none where data is lost. -/
def State.txSource (s : State) (h : Heat) : Option (List (List Byte)) × State :=
  let cr := (vget s.radio.carriers h.carrier).rec_
  let p := s.precoder h (cTxAnt cr)
  h.jobs.foldl (fun (x : Option (List (List Byte)) × State) (j : Job) =>
    let y := x.2.bufBytes j.bufs
    (match x.1, y.1 with
      | some a, some b => some (a ++ [b.take (srcBytes j.rec_ cr)])
      | _, _ => none, y.2)) (p.1.map (fun b => [b]), p.2)

/-- A downlink Heat's slot recorded in its carrier (R275, R276), and its codewords queued for the encoders (R305). -/
def State.txRecord (s : State) (h : Heat) (good : Bool) (source : List (List Byte)) : State :=
  let x : TxSlot := ⟨h.sfn, h.subframe, h.nrSlot, good, h.jobs.map (·.rec_), source⟩
  let cws := (h.jobs.zipIdx.filter (fun j => jKind j.1.rec_ == 0)).flatMap (fun j =>
    (List.range (jC j.1.rec_)).map (fun i => (h.finish, j.2, i)))
  { s with
    radio := { s.radio with carriers := vmod s.radio.carriers h.carrier (fun k => { k with tx := k.tx ++ [x] }) }
    coding := { s.coding with enc := if good then s.coding.enc ++ cws else s.coding.enc } }

/-- Commit (R191, R194): the result list and the report are written, then the completion; the Heat drains. -/
def State.commitHeat (s : State) (slot status : Nat) : State :=
  match s.heat slot with
  | none => s
  | some h =>
    if h.live then
      let s := s.stopLanes slot
      let h := (s.heat slot).getD h
      let src := if h.radio && h.downlink then s.txSource h else (some [], s)
      let s := src.2
      let status := if src.1.isNone && (status == Sc.ok || status == Sc.okFallback) then Sc.dataLost else status
      let s := if h.radio && h.downlink then
          s.txRecord h (status == Sc.ok || status == Sc.okFallback) (src.1.getD [])
        else s
      let h := { h with status := status, doneNs := s.tk.ns, st := .draining, lateRisk := false
                        late := h.late || (!h.radio && h.finish != 0 && decide (h.finish < s.tk.ns)) }
      let s := s.setHeat slot h
      let s := if h.radio && status == Sc.slotMissed then
          s.incRg (if h.downlink then R.TRK_MISSED_DL_MISSED else R.TRK_MISSED_UL_MISSED) h.carrier
        else s
      let s := if h.uplinkRadio then
          let nd := (h.jobs.filter (fun j => j.result.getD 1 == 1)).length
          let iv := (h.jobs.filter (·.invalid)).length
          let s := ((s.incRg R.TRK_NOT_DEC_NOT_DECODED h.carrier 0 nd).incRg R.TRK_INVALID_INVALID h.carrier 0 iv).forwardBlocks slot
          let h := (s.heat slot).getD h
          match h.binds.find? (fun b => rec16 b 0 == 1) with
          | some b => match s.handleMem (rec32 b 8) with
            | some m => s.write m.1 ((resultList h.jobs).take m.2)
            | none => s
          | none => s
        else s
      let s := s.deliver h.user h.report (s.reportBytes h)
      let s := if h.silent then s else s.completeAt h.ring h.cid status (h.result slot) h.doneNs
      s.lateCount
    else s

/-- Transfers that a Heat has issued and that are not DONE. -/
def State.heatXfers (s : State) (slot : Nat) : List Xfer :=
  s.xfers.filter (fun x => match x.issuer with | .heat k _ => k == slot | _ => false)

/-- Cancel every transfer of a Heat. -/
def State.abortHeatXfers (s : State) (slot : Nat) : State :=
  (s.heatXfers slot).foldl (fun s x => s.abortXfer x.id) s

/-- The status with which a Heat ends when all its work is done (R194, R270): DATA_LOST or another recorded failure, else
OK_FALLBACK with any FB bit, else OK. -/
def Heat.endStatus (h : Heat) : Nat :=
  if h.status ≠ 0 then h.status else if h.fb ≠ 0 then Sc.okFallback else Sc.ok

/-- Shared-channel jobs and grid jobs all have their results (R270). -/
def Heat.jobsDone (h : Heat) : Bool := h.jobs.all (fun j => j.result.isSome)

/-- Whether a Heat's work is done: every virtual Lane at its end or stopped, taps decided, jobs done, tokens final. -/
def State.heatDone (s : State) (slot : Nat) (h : Heat) : Bool :=
  h.vl.all (fun v => v.run = .ended || v.run = .stopped) &&
  (List.range 3).all (fun t => (h.tap t).st != .open_) &&
  (h.downlink || h.jobsDone) && (s.heatXfers slot).isEmpty

/-! ## Faults of a Lane's work -/

/-- Taps whose learned stage runs on virtual Lane `v`: their TAP_OUT entry is there. -/
def State.tapsOn (s : State) (h : Heat) (v : Nat) : List Nat :=
  let ops := laneOps (s.imageOf h) v
  (List.range 3).filter (fun t => (h.tap t).st != .unbound && ops.any (fun e => eOp e == 9 && eSeg e == (h.tap t).seg))

/-- The stage on one Lane of a radio Heat stops (R196): its undecided taps are decided classical. -/
def State.stopStage (s : State) (slot v : Nat) : State :=
  match s.heat slot with
  | none => s
  | some h =>
    let s := s.setHeat slot { h with vl := modAt h.vl v (fun x => { x with run := .stopped }) }
    (s.tapsOn h v).foldl (fun s t => s.tapNorun slot t) s

/-- The virtual Lanes of a Heat before its first entry; one with no entry has ended. -/
def startVls (img : List Byte) : List VLane :=
  (List.range (progLanes img)).map (fun v => if (laneOps img v).isEmpty then { run := .ended } else {})

/-- A non-radio Heat starts again at its first entry (Table HEA-11): Lanes reset, outputs discarded. -/
def State.restartHeat (s : State) (slot : Nat) : State :=
  match s.heat slot with
  | none => s
  | some h =>
    let lanes := (List.range h.vl.length).map (s.laneOf h)
    let s := lanes.foldl State.laneReset (s.abortHeatXfers slot)
    match s.heat slot with
    | none => s
    | some h => s.setHeat slot { h with
        st := .admitted, rerun := true, tokens := [], sat := 0, status := 0, lastRel := [], chainRetry := false
        wdFrom := s.tk.localNs, vl := startVls (s.imageOf h) }

/-- The work of a Heat on virtual Lane `v` is lost to a Lane fault or the watchdog (Table HEA-11). -/
def State.heatLoss (s : State) (slot v : Nat) : State :=
  match s.heat slot with
  | none => s
  | some h =>
    let s := s.incRg R.FLT_CNT_COVERED
    if h.live then
      if h.radio then s.stopStage slot v
      else if h.rerun || h.emitted || (List.range h.vl.length).any (fun v => s.flag R.LANE_STAT_HELD (s.laneOf h v)) then
        s.commitHeat slot Sc.aborted
      else s.restartHeat slot
    else s

/-- The Heat that waits on a chain repairs it (R198): a plain copy from the lowest-numbered member that has the data to each
that lacks it; with none, the chain is issued once more; a second failure is a Lane fault. A Heat that ended, or was started again, does neither. -/
def State.batonRepair (s : State) (x : Xfer) : State :=
  match x.issuer with
  | .heat slot v =>
    match s.heat slot with
    | some h =>
      match h.tokens.find? (fun p => p.1 == dToken x.desc) with
      | some (_, t) =>
        let want := dMembers x.desc
        if (t.status = Sc.aborted || t.status = Sc.dataLost) && t.doneMask != want && h.live && (h.vl.getD v {}).run != .stopped then
          if t.doneMask = 0 then
            if h.chainRetry then s.heatLoss slot v
            else
              (s.setHeat slot { h with chainRetry := true, tokens := h.tokens.filter (fun p => p.1 != dToken x.desc) }).issueXfer
                x.engine x.user x.issuer x.reserved x.desc none
          else
            let from_ := ((List.range 8).find? t.doneMask.testBit).getD 0
            let off := dDst x.desc % 2 ^ 24
            let offs := if dMirror x.desc then offsOf x.desc 5
              else (List.range (dTotal x.desc / dWidth x.desc)).map (fun i => ((i * dWidth x.desc : Nat) : Int))
            let s := s.setHeat slot { h with repair := true, tokens := h.tokens.map (fun p =>
              if p.1 == dToken x.desc then (p.1, { p.2 with status := Sc.ok }) else p) }
            (List.range 8).foldl (fun s k =>
              if want.testBit k && !t.doneMask.testBit k then
                match s.gather (leBytes 8 (from_ * 0x0100_0000 + off) ++ x.desc.drop 8) offs none with
                | (some bs, s) => s.scatter x.desc x.user (k * 0x0100_0000 + off) offs bs
                | (none, s) => s
              else s) s
        else s
      | none => s
    | none => s
  | _ => s

/-- The chains that a Lane heads, started or admitted (R133). -/
def State.headedBy (s : State) (n : Nat) : List Xfer :=
  s.xfers.filter (fun x => dKind x.desc == 1 && x.st != .queued && dHead x.desc == n)

/-- A Lane fault (R83, Table LNE-7): tiles discarded, logged with its cause and the bound Heat, and the Heat's work on it
lost; the third within 1 s holds the Lane. -/
def State.laneFault (s : State) (n causeCode : Nat) : State :=
  let st := s.rg R.LANE_STAT_STATE n
  if st = 1 || st = 2 then
    let bound := s.flag R.LANE_STAT_BOUND n
    let slot := s.rg R.LANE_STAT_HEAT n
    let now := s.tk.localNs
    let times := ((vget s.lanes n).faultTimes.filter (fun t => decide (now < t + 1000000000))) ++ [now]
    let s := { s with lanes := vmod s.lanes n (fun l => { l with
      acc := [], drains := [], sticky := none, faultTimes := times, faultAt := now }) }
    let s := ((s.setRg R.LANE_STAT_STATE 3 n).setRg R.LANE_STAT_CAUSE causeCode n).incRg R.LANE_STAT_FAULTS n
    let s := s.ev .LANE_FAULT n [causeCode, if bound then slot else 0xFFFF_FFFF]
    let s := if 3 ≤ times.length then (s.setRg R.LANE_STAT_HELD 1 n).ev .LANE_HELD n else s
    let chains := s.headedBy n
    let s := (s.abortEngine n).batonFault n
    let s := if bound then
      match s.heat slot with
      | some h =>
        match (List.range h.vl.length).find? (fun v => s.laneOf h v == n) with
        | some v => s.heatLoss slot v
        | none => s
      | none => s
    else s
    chains.foldl State.batonRepair s
  else s

/-- A virtual Lane of a Heat meets a failure that ends its work: a token or a wait that failed (R544), or data lost. A radio
Heat's learned stage stops; another Heat ends with the status. -/
def State.heatFail (s : State) (slot v status : Nat) : State :=
  match s.heat slot with
  | none => s
  | some h => if h.radio then s.stopStage slot v else (s.abortHeatXfers slot).commitHeat slot status

/-- CANCEL of a Heat (Table HEA-11): whether it was stopped at once. -/
def State.cancelHeat (s : State) (slot : Nat) : Bool × State :=
  match s.heat slot with
  | none => (false, s)
  | some h =>
    if !h.radio || !h.firstSample then (true, ((s.abortHeatXfers slot).tapsNorun slot).commitHeat slot Sc.aborted)
    else (false, s.tapsNorun slot)

/-- Every Heat and transfer of a user stopped by an FLR or a reset (R465): a radio Heat whose first sample has been received
goes on without a completion. -/
def State.dropHeats (s : State) (u : Option Nat) : State :=
  s.heatList.foldl (fun s p =>
    if u.all (fun k => p.2.user == k) then
      let s := s.modHeat p.1 (fun h => { h with silent := true })
      (s.cancelHeat p.1).2
    else s) s

/-! ## Events -/

/-- HEAT_RUN: the first entry of an admitted Heat is ready; it issues on its placed Lanes. -/
def execHeatRun (slot : Fin 32) (s : State) : Host.Outcome State Fault Refusal :=
  match s.heat slot with
  | some h => .next (if h.st = .admitted then s.setHeat slot { h with st := .running, wdFrom := s.tk.localNs } else s)
  | none => .next s

/-- SPLIT_TIME_REACHED (R265): an undecided tap is decided classical and its stage stops at its next entry boundary. -/
def execSplitTimeReached (slot : Fin 32) (t : Fin 3) (s : State) : Host.Outcome State Fault Refusal :=
  match s.heat slot with
  | some h =>
    .next (if h.live && h.split t != 0 && (h.tap t).st = .open_ then
      ((s.reach (h.split t)).setHeat slot { h with lateSegs := (h.tap t).seg :: h.lateSegs }).tapClassical slot t true else s)
  | none => .next s

/-- A radio Heat commits SLOT_MISSED: an uplink Heat's jobs without a result are not decoded, their fresh soft buffers are freed and their
directory entries kept (R271, R276, R297). -/
def State.missHeat (s : State) (slot : Nat) : State :=
  match s.heat slot with
  | some h =>
    let s := (List.range 3).foldl (fun s t => s.tapClassical slot t true) s
    if h.downlink then s.commitHeat slot Sc.slotMissed
    else
      let s := s.freeAll 42 ((h.jobs.filter (fun j => j.result.isNone)).flatMap (fun j => j.fresh.map (·.2)))
      let s := s.modHeat slot (fun h => { h with jobs := h.jobs.map (fun j =>
        if j.result.isNone then { j with result := some 1, bufs := [], fresh := [] } else j) })
      s.commitHeat slot Sc.slotMissed
  | none => s

/-- The finish line of a Heat passes (R271, R276, R199): an uplink Heat without its results and a downlink Heat not committed commit
SLOT_MISSED; another Heat goes on. -/
def State.finishLine (s : State) (slot : Nat) : State :=
  match s.heat slot with
  | some h =>
    if h.live && h.finish != 0 then
      let s := s.reach h.finish
      if !h.radio then s.setHeat slot { h with late := true }
      else
        let s := (List.range 3).foldl (fun s t => s.tapClassical slot t (decide (h.split t ≤ h.finish))) s
        if !h.downlink && h.jobsDone then
          match s.heat slot with
          | some h => s.commitHeat slot h.endStatus
          | none => s
        else s.missHeat slot
    else s
  | none => s

/-- HEAT_RELEASE (R162, R194, R264): every Lane stopped and every token final; activations and tap chunks are released and
the slot is free. -/
def execHeatRelease (slot : Fin 32) (s : State) : Host.Outcome State Fault Refusal :=
  match s.heat slot with
  | some h =>
    if h.st = .draining && (s.heatXfers slot).isEmpty then
      let s := s.freeAll slot (h.acts.map (·.2))
      let s := s.freeAll 40 (h.taps.flatMap (fun t => t.inBufs ++ t.outBufs))
      .next { s with heats := vset s.heats slot none }
    else .next s
  | none => .next s

/-- Whether a virtual Lane's time counts for the watchdog (R195). -/
def VLane.counts (v : VLane) : Bool :=
  match v.run with
  | .ready => true
  | .held why _ => why == 6
  | _ => false

/-- HEAT_WATCHDOG (R195, R196): no entry completed for WD_US. A radio Heat's Lanes that are not in WAIT, TAP_IN or SYNC are
treated as faulted and reset; another Heat is re-run or ends ABORTED. -/
def execHeatWatchdog (slot : Fin 32) (s : State) : Host.Outcome State Fault Refusal :=
  match s.heat slot with
  | some h =>
    if h.st = .running && h.vl.any VLane.counts then
      let s := s.since h.wdFrom (h.wdUs * 1000)
      if h.radio then
        .next ((List.range h.vl.length).foldl (fun s v =>
          match h.vl[v]? with
          | some x => if x.counts then
              let n := s.laneOf h v
              let s := s.stopStage slot v
              let s := (s.setRg R.LANE_STAT_CAUSE 1 n).incRg R.LANE_STAT_FAULTS n
              (s.ev .LANE_FAULT n [1, slot]).laneReset n
            else s
          | none => s) (s.incRg R.FLT_CNT_COVERED))
      else
        let ls := (List.range h.vl.length).filter (fun v => (h.vl.getD v {}).counts)
        let s := ls.foldl (fun s v =>
          let n := s.laneOf h v
          ((s.setRg R.LANE_STAT_CAUSE 1 n).incRg R.LANE_STAT_FAULTS n).ev .LANE_FAULT n [1, slot]) s
        .next (s.heatLoss slot (ls.headD 0))
    else .next s
  | none => .next s

/-- BATON_CHAIN_DONE (R131): the chain ends; a Heat with a partial DONE_MASK repairs it. -/
def execBatonChainDone (id : Nat) (src : Option (List Byte)) (s : State) : Host.Outcome State Fault Refusal :=
  match if s.coreRuns then s.xfer? id else none with
  | some x => .next ((s.batonEnd id src).batonRepair x)
  | none => .next s

end Sys2Proof.Machine
end

