-- ==== Sys2Proof/Machine/Radio.lean ====
section
/-! DEFINITION. The radio port (R226 to R253): carriers, activation, JESD links, slot tables and the gain loops. -/

namespace Sys2Proof.Machine

/-! ## Parameter sets -/

/-- A row of Table RAD-1: L, M, F, antennas, and the highest rate in each mode in kS/s. -/
structure JesdSet where
  l : Nat
  m : Nat
  f : Nat
  ants : Nat
  maxC : Nat
  maxB : Nat

/-- Table RAD-1. -/
def jesdSet : Nat → Option JesdSet
  | 0 => some ⟨1, 2, 4, 1, 245760, 245760⟩
  | 1 => some ⟨1, 4, 8, 2, 245760, 122880⟩
  | 2 => some ⟨2, 4, 4, 2, 245760, 245760⟩
  | 3 => some ⟨2, 8, 8, 4, 245760, 122880⟩
  | 4 => some ⟨4, 8, 4, 4, 245760, 245760⟩
  | 5 => some ⟨4, 16, 8, 8, 245760, 122880⟩
  | 6 => some ⟨2, 16, 16, 8, 122880, 61440⟩
  | 7 => some ⟨8, 16, 4, 8, 245760, 245760⟩
  | 8 => some ⟨8, 32, 8, 16, 245760, 122880⟩
  | 9 => some ⟨16, 32, 4, 16, 245760, 245760⟩
  | 10 => some ⟨4, 32, 16, 16, 122880, 61440⟩
  | _ => none

/-- The LEMC or LMFC period in TKCLK periods (JESD204C: 256 / F octets; JESD204B: 128 / F). -/
def lemcPeriod (r : List Byte) (x : JesdSet) : Nat := (if cModeB r then 128 else 256) / x.f * (983040 / cRate r)

/-- Whether SYSREF_PER is a whole multiple of the period of each of a carrier's links (R232). -/
def State.sysrefFits (s : State) (r : List Byte) : Bool :=
  let ok (ant set : Nat) : Bool := ant == 0 || (match jesdSet set with
    | some x => decide (0 < lemcPeriod r x) && s.rg R.SYSREF_PER_PER % lemcPeriod r x == 0
    | none => false)
  ok (cRxAnt r) (cRxSet r) && ok (cTxAnt r) (cTxSet r)

def State.carrier (s : State) (c : Nat) : Carrier := vget s.radio.carriers c
def State.modCarrier (s : State) (c : Nat) (f : Carrier → Carrier) : State :=
  { s with radio := { s.radio with carriers := vmod s.radio.carriers c f } }
def State.modLink (s : State) (k : Nat) (f : Link → Link) : State :=
  { s with radio := { s.radio with links := vmod s.radio.links k f } }
def State.agcOf (s : State) (p : Nat) : Agc := vget s.radio.agc p
def State.modAgc (s : State) (p : Nat) (f : Agc → Agc) : State :=
  { s with radio := { s.radio with agc := vmod s.radio.agc p f } }

/-- The pairs that a carrier's receive streams lie in. -/
def cPairs (r : List Byte) : List Nat :=
  (List.range 8).filter (fun p => decide (cRx0 r ≤ 2 * p + 1) && decide (2 * p < cRx0 r + cRxAnt r))

/-- The carrier that owns a pair. -/
def State.pairOwner (s : State) (p : Nat) : Option Nat :=
  (List.range 4).find? (fun c => (s.carrier c).conf && (cPairs (s.carrier c).rec_).contains p)

/-- The code of a symbol in the slot table in force (R241). -/
def State.symCode (s : State) (c sfn subframe slot sym : Nat) : Nat :=
  let k := s.carrier c
  let mu := cScs k.rec_
  let n := sfn * 10 * 2 ^ mu + subframe * 2 ^ mu + slot
  bitsOf (k.tab.getD (n % max 1 (cPeriod k.rec_)) 0) (2 * sym) 2

/-- RESULT of R506. -/
def nrResult (t : Nat × Nat × Nat) : Nat := t.1 + t.2.1 * 2 ^ 10 + t.2.2 * 2 ^ 14

/-! ## Slot boundaries -/

/-- The first slot boundary of a numerology at or after an instant. -/
def State.nextSlot (s : State) (mu t : Nat) : Nat :=
  let p := s.nrPhase t % 1000000
  let starts := (List.range (2 ^ mu)).map (fun k => symNs mu (14 * k)) ++ [1000000]
  t + ((starts.find? (fun x => decide (p ≤ x))).getD 1000000 - p)

/-- What takes effect at a slot boundary of a carrier (Tables RAD-3, TRK-5): BLANK_MODE and the shadowed gain fields. -/
def State.slotBoundary (s : State) (c : Nat) : State :=
  let k := s.carrier c
  let s := s.modCarrier c (fun k => { k with blank := cBlank k.rec_ })
  (cPairs k.rec_).foldl (fun s p => s.modAgc p (fun a => match a.pend with
    | some x => { a with cfg := { x with manual := a.cfg.manual }, pend := none, manualPend := some x.manual }
    | none => a)) s

/-! ## Links (Tables RAD-2, RAD-7) -/

/-- A link enters a state; every exit from UP is counted (Table RAD-7). -/
def State.linkState (s : State) (k v : Nat) : State :=
  let s := if s.rg R.RADIO_LINK_STAT_STATE k = 3 && v != 3 then s.incRg R.RADIO_LINK_STAT_DOWNS k else s
  (s.setRg R.RADIO_LINK_STAT_STATE v k).modLink k (fun l => { l with since := s.tk.localNs })

/-- A link leaves UP for SYNC on errors, or as SYNCIN_N_c asks. -/
def State.linkDown (s : State) (k : Nat) : State := (s.ev .JESD_DOWN k).linkState k 1

/-- SYNCOUT_N_c of a JESD204B carrier (R229): 0 is asserted. -/
def State.syncOut (s : State) (c level : Nat) : State :=
  if cModeB (s.carrier c).rec_ then s.emit (.port "syncout" c [level]) else s

/-- A receive or transmit link starts its search in SYNC with no failure counted. -/
def State.linkSearch (s : State) (k : Nat) : State :=
  let s := (s.modLink k (fun l => { l with fails := 0 })).linkState k 1
  if k % 2 = 0 then s.syncOut (k / 2) 0 else s

/-- A carrier's links when its activation takes effect (R235 to R237). -/
def State.linksUp (s : State) (c : Nat) : State :=
  let r := (s.carrier c).rec_
  let b := if cModeB r then 1 else 0
  let s := (s.setRg R.RADIO_LINK_STAT_MODE_B b (2 * c)).setRg R.RADIO_LINK_STAT_MODE_B b (2 * c + 1)
  let s := if cRxAnt r = 0 then s else s.linkSearch (2 * c)
  if cTxAnt r = 0 then s
  else if cModeB r then s.linkSearch (2 * c + 1)
  else (s.modLink (2 * c + 1) (fun l => { l with fails := 0 })).linkState (2 * c + 1) 0

/-- Pins of a pair driven from one index to another, one Gray step at a time (R243). -/
def State.drive (s : State) (p a b : Nat) : State :=
  let gray (i : Nat) : Nat := i ^^^ (i / 2)
  let steps := if a ≤ b then (List.range (b - a)).map (fun i => gray (a + 1 + i)) else (List.range (a - b)).map (fun i => gray (a - 1 - i))
  let s := if steps.isEmpty then s else s.emit (.port "fast_gain" p steps)
  s.setRg R.AGC_STAT_INDEX b p

/-- A carrier becomes active: its links start and its pairs take INIT_IDX (R244). -/
def State.carrierOn (s : State) (c : Nat) : State :=
  let s := (s.modCarrier c (fun k => { k with active := true, blank := cBlank k.rec_ })).linksUp c
  (cPairs (s.carrier c).rec_).foldl (fun s p =>
    (s.modAgc p (fun a => { a with quiet := 0, detSym := none })).drive p (s.rg R.AGC_STAT_INDEX p) (s.agcOf p).cfg.ini) s

/-- A carrier becomes inactive: links HELD, pins at index 15, nothing frozen. -/
def State.carrierOff (s : State) (c : Nat) : State :=
  let s := s.modCarrier c (fun k => { k with active := false, tx := [] })
  let s := (s.linkState (2 * c) 0).linkState (2 * c + 1) 0
  (cPairs (s.carrier c).rec_).foldl (fun s p =>
    (((s.drive p (s.rg R.AGC_STAT_INDEX p) 15).setRg R.AGC_STAT_FROZEN 0 p).setRg R.AGC_STAT_ED 0 p).modAgc p (fun a =>
      { a with detSym := none, quiet := 0 })) s

/-! ## Events: carriers -/

/-- CARRIER_ACTIVATION_EFFECT (R239, R505): at the next 10 ms frame boundary. -/
def execCarrierActivationEffect (c : Fin 4) (s : State) : Host.Outcome State Fault Refusal :=
  match (s.carrier c).pend with
  | some (ring, cid, true) =>
    let p := s.nrPhase s.tk.ns % 10000000
    let s := s.reach (s.tk.ns + (10000000 - p) % 10000000)
    let s := (s.modCarrier c (fun k => { k with pend := none })).carrierOn c
    .next (s.complete ring cid Sc.ok (nrResult (s.nrAt (cScs (s.carrier c).rec_) s.tk.ns)))
  | _ => .next s

/-- CARRIER_DEACTIVATION_EFFECT (R239, R505): at the next slot boundary. -/
def execCarrierDeactivationEffect (c : Fin 4) (s : State) : Host.Outcome State Fault Refusal :=
  match (s.carrier c).pend with
  | some (ring, cid, false) =>
    let mu := cScs (s.carrier c).rec_
    let s := s.reach (s.nextSlot mu s.tk.ns)
    let s := (s.modCarrier c (fun k => { k with pend := none })).carrierOff c
    .next (s.complete ring cid Sc.ok (nrResult (s.nrAt mu s.tk.ns)))
  | _ => .next s

/-- SLOT_TABLE_EFFECT (R242, R507): the oldest update at the first slot boundary at least 20 µs after it was read; the next
update's wait then begins. -/
def execSlotTableEffect (c : Fin 4) (s : State) : Host.Outcome State Fault Refusal :=
  match (s.carrier c).upds with
  | [] => .next s
  | u :: rest =>
    let mu := cScs (s.carrier c).rec_
    let s := s.reach (s.nextSlot mu (u.readAt + 20000))
    let s := s.modCarrier c (fun k => { k with
      tab := (u.entries.zipIdx).foldl (fun t e => modAt t (u.first + e.2) (fun _ => e.1)) k.tab
      upds := match rest with
        | [] => []
        | v :: vs => { v with readAt := s.tk.ns } :: vs })
    .next ((s.slotBoundary c).complete u.ring u.cid Sc.ok (nrResult (s.nrAt mu s.tk.ns)))

/-! ## Events: links -/

/-- JESD_LANE_LOCK: lock on every lane of a receive link. -/
def execJesdLaneLock (c : Fin 4) (s : State) : Host.Outcome State Fault Refusal :=
  .next (if s.rg R.RADIO_LINK_STAT_STATE (2 * c) = 1 then s.linkState (2 * c) 2 else s)

/-- JESD_SYNC_TIMEOUT: 5 ms in SYNC without lock; the third failure faults the link. -/
def execJesdSyncTimeout (c : Fin 4) (s : State) : Host.Outcome State Fault Refusal :=
  let k := 2 * c.val
  if s.rg R.RADIO_LINK_STAT_STATE k = 1 then
    let l := vget s.radio.links k
    let s := (s.since l.since 5000000).modLink k (fun l => { l with fails := l.fails + 1 })
    .next (if l.fails < 2 then (s.ev .JESD_FAIL k).linkState k 1 else (s.ev .JESD_FAULT k).linkState k 4)
  else .next s

/-- JESD_ALIGN_DONE (R233): multiblock lock or ILAS. `ilasOk`: its parameters match the carrier. `margin`: octets by which the
latest lane arrives before the release point, negative when after it. -/
def execJesdAlignDone (c : Fin 4) (ilasOk : Bool) (margin : Int) (s : State) : Host.Outcome State Fault Refusal :=
  let k := 2 * c.val
  if s.rg R.RADIO_LINK_STAT_STATE k = 2 then
    if cModeB (s.carrier c).rec_ && !ilasOk then .next ((s.ev .JESD_ILAS k).linkState k 4)
    else if margin < 0 then .next ((s.modLink k (fun l => { l with realigns := l.realigns + 1 })).linkState k 1)
    else
      let s := if margin < 8 then s.ev .JESD_MARGIN k else s
      .next ((((s.setRg R.RADIO_LINK_STAT_MARGIN (min margin.toNat 255) k).syncOut c 1).ev .JESD_UP k).linkState k 3)
  else .next s

/-- JESD_LINK_LOSS: an UP receive link back to SYNC. -/
def execJesdLinkLoss (c : Fin 4) (s : State) : Host.Outcome State Fault Refusal :=
  .next (if s.rg R.RADIO_LINK_STAT_STATE (2 * c) = 3 then (s.linkDown (2 * c)).syncOut c 0 else s)

/-- JESD_CRC_ERROR: `n` CRC-12, disparity or not-in-table errors on an UP link, counted. -/
def execJesdCrcError (c : Fin 4) (n : Nat) (s : State) : Host.Outcome State Fault Refusal :=
  .next (if s.rg R.RADIO_LINK_STAT_STATE (2 * c) = 3 then
    s.satRg R.RADIO_ERR_ERR (2 * c) 0 n else s)

/-- JESD_SYNCIN_CHANGE (R237): SYNCIN_N_c of a JESD204B transmit link deasserts, or has been asserted for 4 frames. -/
def execJesdSyncinChange (c : Fin 4) (asserted : Bool) (s : State) : Host.Outcome State Fault Refusal :=
  let k := 2 * c.val + 1
  let st := s.rg R.RADIO_LINK_STAT_STATE k
  .next (if cModeB (s.carrier c).rec_ then
      if !asserted && st = 1 then s.linkState k 2
      else if asserted && st = 3 then s.linkDown k
      else s
    else s)

/-- JESD_TX_LINK_UP (R237): a JESD204C transmit link of an active carrier at an LEMC boundary; a JESD204B link when ILAS ends. -/
def execJesdTxLinkUp (c : Fin 4) (s : State) : Host.Outcome State Fault Refusal :=
  let k := 2 * c.val + 1
  let st := s.rg R.RADIO_LINK_STAT_STATE k
  let car := s.carrier c
  .next (if car.active && cTxAnt car.rec_ != 0 && (if cModeB car.rec_ then st == 2 else st == 0 || st == 1) then
    (s.ev .JESD_UP k).linkState k 3 else s)

/-! ## Events: gain loops -/

/-- Whether a change of `k` steps fits in `left` nanoseconds (R247): 50 ns to decide, 8 TKCLK periods between steps, and the
pair's latency. -/
def gainFits (cfg : AgcCfg) (k left : Nat) : Bool :=
  decide ((50 + cfg.lat) * 983040 + (k - 1) * 8000000 ≤ left * 983040)

/-- AGC_WINDOW_END (R246, R247, R251): peak and mean in hundredths of dBFS; `left` nanoseconds remain in the interval in which
a change may take effect. -/
def execAgcWindowEnd (p : Fin 8) (peak mean : Int) (left : Nat) (s : State) : Host.Outcome State Fault Refusal :=
  match s.pairOwner p with
  | none => .next s
  | some c =>
    if (s.carrier c).active && s.rg R.RADIO_LINK_STAT_STATE (2 * c) == 3 && !s.flag R.AGC_STAT_FROZEN p then
      let s := s.modAgc p (fun a => { a with
        cfg := { a.cfg with manual := a.manualPend.getD a.cfg.manual }, manualPend := none
        quiet := if mean ≤ 100 * a.cfg.lo then a.quiet + 1 else 0 })
      let a := s.agcOf p
      let i := s.rg R.AGC_STAT_INDEX p
      if a.cfg.en then
        if 100 * a.cfg.hi ≤ peak then
          let k := min (min (ceilDiv (peak - 100 * a.cfg.hi).toNat (50 * a.cfg.step) + 1) a.cfg.atkMax) (15 - i)
          .next (if 0 < k && gainFits a.cfg k left then (s.drive p i (i + k)).incRg R.AGC_STAT_ATTACKS p else s)
        else if a.cfg.relN ≤ a.quiet && 0 < i && gainFits a.cfg 1 left then
          .next ((s.drive p i (i - 1)).incRg R.AGC_STAT_RELEASES p)
        else .next s
      else
        let k := max (i - a.cfg.manual) (a.cfg.manual - i)
        .next (if 0 < k && gainFits a.cfg k left then s.drive p i a.cfg.manual else s)
    else .next s

/-- AGC_ENERGY_DETECT (R249): detection in code-3 symbol `sym` freezes the gain. -/
def execAgcEnergyDetect (p : Fin 8) (sym : Fin 14) (s : State) : Host.Outcome State Fault Refusal :=
  .next (if (s.pairOwner p).any (fun c => (s.carrier c).active) && !s.flag R.AGC_STAT_FROZEN p then
    ((s.setRg R.AGC_STAT_FROZEN 1 p).setRg R.AGC_STAT_ED 1 p).modAgc p (fun a => { a with detSym := some sym })
  else s)

/-- AGC_FREEZE_START (R248). -/
def execAgcFreezeStart (p : Fin 8) (s : State) : Host.Outcome State Fault Refusal :=
  .next (if (s.pairOwner p).any (fun c => (s.carrier c).active) then
    (s.setRg R.AGC_STAT_FROZEN 1 p).setRg R.AGC_STAT_ED 0 p else s)

/-- AGC_FREEZE_END (R248, R249). -/
def execAgcFreezeEnd (p : Fin 8) (s : State) : Host.Outcome State Fault Refusal :=
  .next (((s.setRg R.AGC_STAT_FROZEN 0 p).setRg R.AGC_STAT_ED 0 p).modAgc p (fun a => { a with detSym := none }))

end Sys2Proof.Machine
end

