-- ==== Sys2Proof/Machine/Track.lean ====
section
/-! DEFINITION. The receive and transmit tracks (R254 to R280): the checks on job lists, tap tensors, what each received symbol
makes ready, and what goes to air. -/

namespace Sys2Proof.Machine

/-! ## Slots -/

/-- The instant at which a carrier's slot starts, the occurrence nearest to `t` (R207; notes/assumptions/8.md). -/
def State.slotAt (s : State) (r : List Byte) (sfn subframe slot t : Nat) : Nat :=
  s.phaseNear (slotPhase (cScs r) sfn subframe slot 0) t

/-- The start of the slot of a radio Heat. -/
def State.heatSlotAt (s : State) (h : Heat) : Nat :=
  s.slotAt (s.carrier h.carrier).rec_ h.sfn h.subframe h.nrSlot h.finish

/-- Whether a Heat is bound to a slot of a carrier in a direction. -/
def Heat.onSlot (h : Heat) (c sfn subframe slot : Nat) (dl : Bool) : Bool :=
  h.radio && h.carrier == c && h.sfn == sfn && h.subframe == subframe && h.nrSlot == slot && h.downlink == dl

/-! ## Checks at admission (R254 to R257, R283, R285) -/

/-- The checks of one job that need only its carrier and direction. `syms` are the codes of the slot's symbols. -/
def jobOk (r cr : List Byte) (dl : Bool) (code : Nat → Nat) : Bool :=
  let sc := jKind r == 0
  decide (jKind r ≤ 1) && recF r 0 2 6 == 0 && recF r 9 4 4 == 0 && recF r 12 31 1 == 0 && zeroAt r 21 3 && zeroAt r 24 8 &&
  decide (jStart r ≤ 13) && decide (1 ≤ jNsym r) && decide (jStart r + jNsym r ≤ 14) &&
  decide (1 ≤ jPrbs r) && decide (jPrb0 r + jPrbs r ≤ cPrb cr) &&
  (List.range 14).all (fun s => (!jIsDmrs r s || jHas r s) && (!jHas r s || (if dl then code s == 0 else decide (2 ≤ code s)))) &&
  (if sc then [2, 4, 6, 8].contains (jQm r) && jPorts r != 0 else jQm r == 0) &&
  (!sc || (if dl then decide (jLayers r ≤ cTxAnt cr) else decide (jPorts r < 2 ^ cUlPorts cr))) &&
  (dl || jHandle r == 0) &&
  (if sc then jTbs r % 8 == 0 && decide (24 ≤ jTbs r) && decide (jTbs r ≤ 1277992) && decide (recF r 36 5 5 ≤ 25) &&
      recF r 36 10 22 == 0 && rec8 r 47 == 0 && (!dl || (!jNew r && jKey r == 0)) && !(jBg2 r && decide (3824 < jTbs r))
    else zeroAt r 32 16)

/-- Whether two jobs share a resource element. -/
def jobsOverlap (a b : List Byte) : Bool :=
  decide (jStart a < jStart b + jNsym b) && decide (jStart b < jStart a + jNsym a) &&
  decide (jPrb0 a < jPrb0 b + jPrbs b) && decide (jPrb0 b < jPrb0 a + jPrbs a)

/-- Pairs of a list, each once. -/
def pairsOf {α : Type} : List α → List (α × α)
  | [] => []
  | a :: as => as.map (fun b => (a, b)) ++ pairsOf as

/-- Whether a handle names a live buffer of a class. -/
def State.liveIn (s : State) (c h : Nat) : Bool := s.classOf (hIndex h) == some c && !s.stale h

/-- The checks of R256, R275 and R285 on a radio Heat's job list `b`. -/
def State.jobListOk (s : State) (h : Heat) (b : List Byte) : Bool :=
  let cr := (s.carrier h.carrier).rec_
  let recs := jobRecs b
  let dl := h.downlink
  let n := rec16 b 0
  let need := if dl && recs.any (fun r => jPrecoder r != 0xFF) then 3 else 2
  decide (1 ≤ n) && decide (n ≤ 64) && zeroAt b 2 14 && decide (16 + 48 * n ≤ b.length) && h.finish != 0 &&
  (s.carrier h.carrier).active && decide (need ≤ h.binds.length) &&
  !(s.heatList.any (fun p => p.2.onSlot h.carrier h.sfn h.subframe h.nrSlot dl)) &&
  recs.all (fun r => jobOk r cr dl (s.symCode h.carrier h.sfn h.subframe h.nrSlot)) &&
  (pairsOf recs).all (fun p => !jobsOverlap p.1 p.2) &&
  (dl || ((pairsOf (recs.filter (fun r => jKind r == 0))).all (fun p => jKey p.1 != jKey p.2) &&
    recs.all (fun r => jKind r != 0 || (let k := s.pclass (cHarqClass cr); k.conf && decide (jNcb r ≤ 2 ^ k.size))))) &&
  (!dl || (decide (h.finish + cTxAdv cr + 1000 * cTxLead cr ≤ s.heatSlotAt h) &&
    (s.pclass (cTbClass cr)).conf && ((srcHandles cr (s.pclass (cTbClass cr)).size b).all (·.all (s.liveIn (cTbClass cr))))))

/-! ## Tap tensors (R260 to R263) -/

/-- Symbols with DMRS, and data symbols, of a Heat's shared-channel jobs, ascending. -/
def Heat.dmrsSyms (h : Heat) : List Nat :=
  (List.range 14).filter (fun s => h.jobs.any (fun j => jKind j.rec_ == 0 && jHas j.rec_ s && jIsDmrs j.rec_ s))
def Heat.dataSyms (h : Heat) : List Nat :=
  (List.range 14).filter (fun s => h.jobs.any (fun j => jKind j.rec_ == 0 && jHas j.rec_ s) && !h.dmrsSyms.contains s)

/-- Symbols of a tap's rows. -/
def Heat.tapSyms (h : Heat) (t : Nat) : List Nat := if t = 0 then h.dmrsSyms else h.dataSyms

/-- Row pitch of a tap's input, or output, tensor. -/
def tapPitch (cr : List Byte) (t : Nat) (out : Bool) : Nat :=
  let l := cUlPorts cr
  let p := match t with
    | 0 => cRxAnt cr * l * 4
    | 1 => 2 * l * 4
    | _ => if out then l * 8 else 2 * l * 4
  (p + 63) / 64 * 64

/-- Chunks of a tap tensor in buffers of 2^size bytes; none where a row does not fit. -/
def tapChunks (cr : List Byte) (rows t size : Nat) (out : Bool) : Option Nat :=
  let per := 2 ^ size / tapPitch cr t out
  if per = 0 then none else some (ceilDiv rows per)

/-- The address of a row of a tap tensor. -/
def State.tapRow (s : State) (h : Heat) (t row : Nat) (out : Bool) : Option Nat :=
  let cr := h.carRec
  let size := (s.pclass (cTapClass cr t)).size
  let pitch := tapPitch cr t out
  let per := 2 ^ size / max 1 pitch
  let bufs := if out then (h.tap t).outBufs else (h.tap t).inBufs
  ((bufs[row / max 1 per]?).bind s.handleMem).map (fun m => m.1 + row % max 1 per * pitch)

/-- Admission of a tap (R262): its chunks allocated, or those granted freed and the tap decided classical at once. -/
def State.tapAlloc (s : State) (slot t : Nat) : State :=
  match s.heat slot with
  | none => s
  | some h =>
    if (h.tap t).st = .open_ then
      let cr := h.carRec
      let c := cTapClass cr t
      let size := (s.pclass c).size
      let rows := (h.tapSyms t).length * 12 * cPrb cr
      match tapChunks cr rows t size false, tapChunks cr rows t size true with
      | some a, some b =>
        let x := s.allocN 40 c (a + b) []
        if x.1 = Sc.ok then
          x.2.2.setHeat slot (h.setTap t (fun y => { y with granted := true, inBufs := x.2.1.take a, outBufs := x.2.1.drop a }))
        else x.2.2.tapNorun slot t
      | _, _ => s.tapNorun slot t
    else s

/-! ## The receive track (R258, R264, R267) -/

/-- The symbols received, whether one is invalid, its samples. -/
def Heat.got (h : Heat) (sym : Nat) : Bool := h.rx.any (fun x => x.1 == sym)

/-- Whether a subcarrier carries the DMRS of a port (TS 38.211 6.4.1.1.3). -/
def dmrsHere (type2 : Bool) (port k : Nat) : Bool :=
  if type2 then k % 6 / 2 == port % 6 / 2 else k % 2 == port / 2 % 2

/-- Bytes of a tap's learned result that the track consumes; none for a classical tap. -/
def State.tapResult (s : State) (h : Heat) (t : Nat) : List Nat :=
  if (h.tap t).st = .learned then
    ((h.tap t).outBufs.filterMap s.handleMem).flatMap (fun m => (s.bytes m.1 m.2).map (·.toNat))
  else []

/-- All that the track reads before a tap's input, or before the soft bits (`t` = 3): the job records, the samples, and the
learned results of earlier taps. -/
def State.trackInputs (s : State) (h : Heat) (t : Nat) : List Nat :=
  h.jobs.flatMap (fun j => j.rec_.map (·.toNat)) ++ h.rx.flatMap (fun x => x.1 :: x.2.2) ++
    (List.range (min t 2)).flatMap (s.tapResult h)

/-- One row of a tap's input tensor: open values where a job lies, 0 elsewhere. -/
def State.tapRowBytes (cr : List Byte) (h : Heat) (t : Nat) (inp : List Nat) (row : Nat) : List Byte :=
  let per := 12 * cPrb cr
  let sym := (h.tapSyms t).getD (row / per) 0
  let k := row % per
  let pitch := tapPitch cr t false
  let here := h.jobs.find? (fun j => jKind j.rec_ == 0 && jHas j.rec_ sym && decide (12 * jPrb0 j.rec_ ≤ k) &&
    decide (k < 12 * (jPrb0 j.rec_ + jPrbs j.rec_)))
  match here with
  | none => List.replicate pitch 0
  | some j => (List.range pitch).map (fun b =>
      let port := b / 4 % max 1 (cUlPorts cr)
      if t = 0 && !((jPorts j.rec_).testBit port && dmrsHere (recF j.rec_ 6 14 1 == 1) port k && jIsDmrs j.rec_ sym) then 0
      else BitVec.ofNat 8 (Config.trackValue t inp (row * pitch + b)))

/-- A tap's input tensor written, every chunk of it. -/
def State.tapFill (s : State) (slot t : Nat) : State :=
  match s.heat slot with
  | none => s
  | some h =>
    if (h.tap t).granted && !(h.tap t).inReady then
      let cr := h.carRec
      let inp := s.trackInputs h t
      let s := (List.range ((h.tapSyms t).length * 12 * cPrb cr)).foldl (fun s row =>
        match s.tapRow h t row false with
        | some a => s.write a (State.tapRowBytes cr h t inp row)
        | none => s) s
      s.setHeat slot (h.setTap t (fun x => { x with inReady := true }))
    else s

/-- Soft bits of a job before descrambling: the learned tap L result, or the classical demapper's. -/
def State.softBits (s : State) (h : Heat) (r : List Byte) : List Int :=
  let cr := h.carRec
  let inp := s.trackInputs h 3
  let ds := h.dataSyms
  let lay := jLayers r
  (jData r).flatMap (fun sym => (List.range (12 * jPrbs r)).flatMap (fun k0 =>
    let k := 12 * jPrb0 r + k0
    let row := (ds.idxOf sym) * 12 * cPrb cr + k
    (List.range lay).flatMap (fun l => (List.range (jQm r)).map (fun b =>
      if (h.tap 2).st = .learned then
        if ds.contains sym then match s.tapRow h 2 row true with
          | some a => sext (s.byte (a + 8 * l + b)).toNat 8
          | none => 0
        else 0
      else sext (Config.trackValue 3 inp ((row * lay + l) * 8 + b)) 8))))

/-- Whether the learned results that a job depends on hold an uncorrectable word (R660). -/
def State.softLost (s : State) (h : Heat) (r : List Byte) : Bool :=
  let cr := h.carRec
  (List.range 3).any (fun t => (h.tap t).st = .learned && ((h.tapSyms t).zipIdx.any (fun y =>
    jHas r y.1 && (List.range (12 * jPrbs r)).any (fun k =>
      match s.tapRow h t (y.2 * 12 * cPrb cr + 12 * jPrb0 r + k) true with
      | some a => s.hasBad a (tapPitch cr t true)
      | none => false))))

/-- A job of an uplink Heat is reported NOT_DECODED for lost data, its fresh soft buffers freed (R297), and the Heat will commit SLOT_MISSED (R660). -/
def State.loseJob (s : State) (slot j : Nat) : State :=
  let fresh := match (s.heat slot).bind (fun h => h.jobs[j]?) with
    | some x => if x.result.isNone then x.fresh.map (·.2) else []
    | none => []
  (s.freeAll 42 fresh).modHeat slot (fun h => { h with status := Sc.slotMissed, jobs := modAt h.jobs j (fun x =>
    if x.result.isNone then { x with result := some 1, fresh := [] } else x) })

/-- A shared-channel job's soft bits are ready: descrambled and handed to the decoders. -/
def State.softReady (s : State) (slot j : Nat) : State :=
  match s.heat slot with
  | none => s
  | some h =>
    match h.jobs[j]? with
    | none => s
    | some x =>
      if s.softLost h x.rec_ then
        let s := ((s.mem.bad.filter (fun w => ((h.taps.flatMap (·.outBufs)).filterMap s.handleMem).any (fun m =>
          touchesWord m.1 m.2 w)))).foldl State.memUe s
        (s.incRg R.FLT_CNT_DATA_LOST).loseJob slot j
      else
        let v := s.softBits h x.rec_
        let l := (v.zip (gold (jCinit x.rec_) v.length)).map (fun p => let a := llr8 p.1; if p.2 then -a else a)
        s.setHeat slot { h with jobs := modAt h.jobs j (fun x => { x with ready := true, llr := l }) }

/-- A grid job exported (R257, R272): its elements in buffers of TB_CLASS, or UNDELIVERED. -/
def State.gridExport (s : State) (slot j : Nat) : State :=
  match s.heat slot with
  | none => s
  | some h =>
    match h.jobs[j]? with
    | none => s
    | some x =>
      let cr := h.carRec
      let c := cTbClass cr
      let size := 2 ^ (s.pclass c).size
      let n := gridBytes x.rec_ (cRxAnt cr)
      let a := s.allocN 40 c (ceilDiv n size) []
      if a.1 = Sc.ok then
        let inp := x.rec_.map (·.toNat) ++ (h.rx.filter (fun y => jHas x.rec_ y.1)).flatMap (fun y => y.1 :: y.2.2)
        let bs := (List.range n).map (fun i => BitVec.ofNat 8 (Config.trackValue 4 inp i))
        let s := a.2.1.zipIdx.foldl (fun s p => match s.handleMem p.1 with
          | some m => s.write m.1 (slice bs (p.2 * size) size)
          | none => s) a.2.2
        s.modHeat slot (fun h => { h with jobs := modAt h.jobs j (fun x => { x with result := some 0, bufs := a.2.1 }) })
      else
        a.2.2.modHeat slot (fun h => { h with
          undelivered := h.undelivered + 1, jobs := modAt h.jobs j (fun x => { x with result := some 2 }) })

/-- Whether a tap is decided, so that later stages may consume it (R267). -/
def Heat.decided (h : Heat) (t : Nat) : Bool := (h.tap t).st != .open_

/-- What the symbols received and the taps decided make ready: tap inputs (R264), soft bits, and grid exports. -/
def State.trackAdvance (s : State) (slot : Nat) : State :=
  match s.heat slot with
  | none => s
  | some h =>
    if h.live && h.uplinkRadio && h.firstSample then
      let e := h.dmrsSyms.all h.got && !h.rx.isEmpty
      let d := e && h.dataSyms.all h.got
      let s := if e then s.tapFill slot 0 else s
      let s := if d && h.decided 0 then s.tapFill slot 1 else s
      let s := if d && h.decided 0 && h.decided 1 then s.tapFill slot 2 else s
      (List.range h.jobs.length).foldl (fun s j =>
        match (s.heat slot).bind (fun h => h.jobs[j]?) with
        | some x =>
          if x.result.isNone && (List.range 14).all (fun y => !jHas x.rec_ y || h.got y) then
            if jKind x.rec_ = 1 then s.gridExport slot j
            else if !x.ready && d && (List.range 3).all h.decided then s.softReady slot j
            else s
          else s
        | none => s) s
    else s

/-- The tracks of every Heat. -/
def State.trackAll (s : State) : State := (List.range 32).foldl State.trackAdvance s

/-! ## Events: receive -/

/-- Whether a slot of a carrier holds a symbol with a code that `p` accepts. -/
def State.slotHas (s : State) (c sfn subframe slot : Nat) (p : Nat → Bool) : Bool :=
  (List.range 14).any (fun y => p (s.symCode c sfn subframe slot y))

/-- SLOT_FIRST_SAMPLE (R259): a slot of an active carrier begins. -/
def execSlotFirstSample (c : Fin 4) (sfn : Fin 1024) (subframe : Fin 10) (slot : Fin 8) (s : State) :
    Host.Outcome State Fault Refusal :=
  if (s.carrier c).active then
    let t := s.slotAt (s.carrier c).rec_ sfn subframe slot s.tk.ns
    let s := (s.reach t).slotBoundary c
    match s.heatList.find? (fun p => p.2.live && p.2.onSlot c sfn subframe slot false) with
    | some p => .next (s.setHeat p.1 { p.2 with firstSample := true, slotStart := t })
    | none => .next (if s.slotHas c sfn subframe slot (fun k => decide (2 ≤ k)) then s.incRg R.TRK_NOHEAT_NOHEAT_UL c else s)
  else .next s

/-- The gain tag of a carrier's symbols (R250): the index of the pair of its first receive stream. -/
def State.gainTag (s : State) (c : Nat) : Nat := s.rg R.AGC_STAT_INDEX (cRx0 (s.carrier c).rec_ / 2)

/-- One received symbol of a Heat: its samples, zero when invalid (R238), its gain tag and INVALID. -/
def State.rxSymbol (s : State) (slot c sym : Nat) (invalid : Bool) (samples : List Nat) : State :=
  let g := s.gainTag c
  s.modHeat slot (fun h => { h with
    rx := h.rx ++ [(sym, invalid, if invalid then samples.map (fun _ => 0) else samples)]
    jobs := h.jobs.map (fun j => { j with
      invalid := j.invalid || (invalid && jHas j.rec_ sym)
      gain := if (List.range 14).find? (jIsDmrs j.rec_) == some sym then g else j.gain }) })

/-- Frozen symbols with a sample at full scale (Table RAD-7): `clips` has a bit for each pair. -/
def State.clipCount (s : State) (c : Nat) (clips : BitVec 8) : State :=
  (cPairs (s.carrier c).rec_).foldl (fun s p =>
    if clips.getLsbD p && s.flag R.AGC_STAT_FROZEN p then s.satRg R.AGC_STAT_CLIP_FROZEN p else s) s

/-- FRAME_BYTES of a channel (R580). -/
def State.isoBytes (s : State) (n : Nat) : Nat :=
  s.rg R.BYK_ISO_N_PRB n * 12 * ((List.range 16).filter (fun a => s.rgBit R.BYK_ISO_ANT a n)).length * 4

/-- Symbols exported on the Byklink (R580): the frame of each channel that sends this carrier on a link that is UP, CQ16 after the FFT, with its
sequence number. -/
def State.isoExport (s : State) (c sfn subframe slot sym : Nat) (samples : List Nat) : State :=
  (List.range 16).foldl (fun s n =>
    if s.flag R.BYK_ISO_EN n && s.rg R.BYK_ISO_DIR n == 0 && s.rg R.BYK_ISO_CARRIER n == c then
      let k := (vget s.byk.iso n).sent
      let s : State := { s with byk := { s.byk with iso := vmod s.byk.iso n (fun x => { x with sent := k + 1 }) } }
      if s.rg R.BYK_PORT_STATE (s.rg R.BYK_ISO_PORT n) = 4 then
        s.emit (.port "byk_iso" (s.rg R.BYK_ISO_PORT n) ([n, sfn, subframe, slot, sym, k] ++
          (List.range (s.isoBytes n)).map (fun i =>
            Config.trackValue 5 (s.rg R.BYK_ISO_START_PRB n :: s.rg R.BYK_ISO_ANT n :: sym :: samples) i % 256)))
      else s
    else s) s

/-- RX_SYMBOL (R258): a symbol coded U is received; `lost` are the jobs whose working data was uncorrectable (R660). -/
def execRxSymbol (c : Fin 4) (sfn : Fin 1024) (subframe : Fin 10) (slot : Fin 8) (sym : Fin 14) (samples : List Nat)
    (clips : BitVec 8) (lost : List Nat) (s : State) : Host.Outcome State Fault Refusal :=
  if s.coreRuns && (s.carrier c).active && decide (2 ≤ s.symCode c sfn subframe slot sym) then
    let r := (s.carrier c).rec_
    let s := s.reach (s.slotAt r sfn subframe slot s.tk.ns + symNs (cScs r) (14 * slot + sym + 1) - symNs (cScs r) (14 * slot))
    let bad := s.rg R.RADIO_LINK_STAT_STATE (2 * c) != 3
    let s := (s.clipCount c clips).isoExport c sfn subframe slot sym (if bad then [] else samples)
    match s.heatList.find? (fun p => p.2.live && p.2.firstSample && p.2.onSlot c sfn subframe slot false && !p.2.got sym) with
    | some p =>
      let s := s.rxSymbol p.1 c sym bad samples
      let s := lost.foldl (fun s j => s.loseJob p.1 j) s
      .next (s.trackAdvance p.1)
    | none => .next s
  else .next s

/-! ## Events: transmit -/

/-- Samples of one symbol on one antenna (TS 38.211 5.3.1). -/
def symSamples (r : List Byte) (slot sym : Nat) : Nat :=
  (symUnits (cScs r) (14 * slot + sym + 1) - symUnits (cScs r) (14 * slot + sym)) * cFft r / 2048

/-- A downlink slot's record, as its Heat left it. -/
def Carrier.txOf (k : Carrier) (sfn subframe slot : Nat) : Option TxSlot :=
  k.tx.find? (fun x => x.sfn == sfn && x.subframe == subframe && x.slot == slot)

/-- The blank slot's samples (R277): zeros, or the template's symbol through the IFFT. -/
def State.blankSamples (s : State) (r : List Byte) (mode sym n : Nat) : List Nat :=
  if mode = 0 then List.replicate n 0
  else
    let w := 12 * cPrb r * cTxAnt r * 4
    let inp := (s.bytes (cBlankAddr r + sym * w) w).map (·.toNat)
    (List.range n).map (fun i => Config.trackValue 7 inp i % 2 ^ 32)

/-- The samples that a symbol of a slot sends: of its Heat, muted (R356), or of the blank slot (R277). -/
def State.txSamples (s : State) (c slot sym : Nat) (x : Option TxSlot) : List Nat :=
  let k := s.carrier c
  let r := k.rec_
  let n := symSamples r slot sym * cTxAnt r
  if s.muted then List.replicate n 0
  else match x with
    | some y =>
      if y.good then
        let inp := sym :: (y.jobs ++ y.source).flatMap (fun b => b.map (·.toNat))
        (List.range n).map (fun i => Config.trackValue 6 inp i % 2 ^ 32)
      else s.blankSamples r k.blank sym n
    | none => s.blankSamples r k.blank sym n
/-- The downlink slot settled before its first D symbol: a Heat still waiting has missed its finish line (R276), and a slot that no
Heat was admitted for is counted. Records of slots gone by are dropped. -/
def State.txSettle (s : State) (c sfn subframe slot : Nat) : State :=
  let s := (s.heatList.filter (fun p => p.2.live && p.2.onSlot c sfn subframe slot true)).foldl (fun s p => s.finishLine p.1) s
  if ((s.carrier c).txOf sfn subframe slot).isSome then s
  else
    let r := (s.carrier c).rec_
    let here := s.slotAt r sfn subframe slot s.tk.ns
    let keep := (s.carrier c).tx.filter (fun x => decide (here ≤ s.slotAt r x.sfn x.subframe x.slot here))
    (s.modCarrier c (fun k => { k with tx := keep ++ [⟨sfn, subframe, slot, false, [], []⟩] })).incRg R.TRK_NOHEAT_NOHEAT_DL c

/-- TX_SYMBOL (R273, R276, R234): a symbol coded D starts TX_ADV_NS before its boundary. While the transmit link is not UP its samples
are discarded and counted (R238). -/
def execTxSymbol (c : Fin 4) (sfn : Fin 1024) (subframe : Fin 10) (slot : Fin 8) (sym : Fin 14) (s : State) :
    Host.Outcome State Fault Refusal :=
  let r := (s.carrier c).rec_
  if s.coreRuns && (s.carrier c).active && cTxAnt r != 0 && s.symCode c sfn subframe slot sym == 0 then
    let t := s.slotAt r sfn subframe slot s.tk.ns + symNs (cScs r) (14 * slot + sym) - symNs (cScs r) (14 * slot) - cTxAdv r
    let s := (s.reach t).txSettle c sfn subframe slot
    if s.rg R.RADIO_LINK_STAT_STATE (2 * c + 1) = 3 then
      .next (s.emit (.port "tx" c (t :: s.txSamples c slot sym ((s.carrier c).txOf sfn subframe slot))))
    else .next (s.modLink (2 * c + 1) (fun l => { l with drops := l.drops + symSamples r slot sym * cTxAnt r }))
  else .next s

end Sys2Proof.Machine
end

