-- ==== Sys2Proof/Machine/Pacer.lean ====
section
/-! DEFINITION. The split timers and the Pacer (R33 to R59): rates, predictions, setpoint choice, Kicks and Brakes. Setpoints are
5 mV codes above 0.55 V. -/

namespace Sys2Proof.Machine

/-! ## Rates (Tables HSF-1 and HSF-2) -/

/-- A column of Table HSF-1 at a code, in 0.1 MHz, interpolated linearly. -/
def hsf1 (col : List Nat) (code : Nat) : Nat :=
  let k := min code 70
  let a := col.getD (k / 10) 0
  10 * a + (col.getD (k / 10 + 1) a - a) * (k % 10)

def typ10 (code : Nat) : Nat := hsf1 [700, 850, 1000, 1170, 1340, 1500, 1630, 1750] code
def min10 (code : Nat) : Nat := hsf1 [640, 780, 920, 1080, 1230, 1380, 1500, 1610] code
def max10 (code : Nat) : Nat := hsf1 [760, 920, 1080, 1260, 1450, 1620, 1760, 1890] code

/-- A column of Table HSF-2 at a temperature in 1/16 °C, in units of 10 MHz / 9600, held beyond its ends. -/
def hsf2 (col : List Int) (tj : Int) : Nat :=
  let t := max (-640) (min 1760 tj)
  let at_ (i : Nat) : Int := col.getD i 0
  let seg (i : Nat) (lo span : Int) : Int := 9600 * at_ i + (at_ (i + 1) - at_ i) * (t - lo) * (9600 / span)
  (if t < 0 then seg 0 (-640) 640 else if t < 400 then seg 1 0 400 else if t < 1360 then seg 2 400 960 else seg 3 1360 400).toNat

/-- The temperature factor of R34 over 86,400,000. -/
def tempFactor (code : Nat) (tj : Int) : Nat :=
  let k := max 20 (min 50 code)
  3 * hsf2 [90, 94, 96, 100, 101] tj * (50 - k) + 2 * hsf2 [160, 157, 155, 150, 146] tj * (k - 20)

/-- The typical rate of R34 in 0.1 MHz / 86,400,000. -/
def typRate (code : Nat) (tj : Int) : Nat := typ10 code * tempFactor code tj

/-- The temperature of a domain. -/
def State.tjOf (s : State) (d : Nat) : Int := sext (s.rg R.SPLIT_STAT_TJ d) 16

/-- How long `units` of a domain's work take at a candidate setpoint (R41, R44, R59), in nanoseconds rounded up. -/
def State.workNs (s : State) (d units code : Nat) : Nat :=
  let tj := s.tjOf d
  let duty := 4 - (if d < 8 then s.rg R.SPLIT_STAT_BRAKE_LEVEL d else 0)
  let p := s.pacer.per.getD d 0
  if s.flag R.SPLIT_STAT_VALID d && p != 0 then
    ceilDiv (units * p * typRate s.pacer.rateRef tj * 4) (256000 * typRate code tj * duty)
  else
    let now := s.rg R.PACER_STAT_VSET
    ceilDiv (units * 864000000000 * typ10 now * 4) (min10 now * typRate code tj * duty)

/-! ## Predictions (R41, R42) -/

/-- Fields of an annotation segment (Table HEA-5). -/
def gDomain (g : List Byte) : Nat := recF g 0 0 4
def gStart (g : List Byte) : Nat := recF g 1 0 4
def gDeadline (g : List Byte) : Nat := recF g 1 4 4
def gArg (g : List Byte) : Nat := rec16 g 2
def gUnits (g : List Byte) : Nat := rec64 g 8

/-- The timer of a segment's domain: a Lane domain names a virtual Lane. -/
def State.segDomain (s : State) (h : Heat) (g : List Byte) : Nat :=
  if gDomain g < 8 then s.laneOf h (gDomain g) else gDomain g

/-- Units of segment `k` that remain: in proportion to the steps of its entries not yet completed; a segment without entries remains
until the Heat's jobs have their results. -/
def State.segLeft (s : State) (h : Heat) (k : Nat) (g : List Byte) : Nat :=
  let img := s.imageOf h
  let es := (List.range (progLanes img)).flatMap (fun v =>
    ((laneOps img v).zipIdx.filter (fun e => eSeg e.1 == k)).map (fun e =>
      (rec32 e.1 44, decide ((h.vl.getD v {}).pc ≤ e.2) && (h.vl.getD v {}).run != .ended && (h.vl.getD v {}).run != .stopped)))
  let total := (es.map (·.1)).sum
  let left := ((es.filter (·.2)).map (·.1)).sum
  if es.isEmpty then (if h.uplinkRadio && h.jobsDone then 0 else gUnits g)
  else if total = 0 then (if es.any (·.2) then gUnits g else 0)
  else ceilDiv (gUnits g * left) total

/-- When symbol `l` of a radio Heat's slot ends. -/
def State.symEnd (s : State) (h : Heat) (l : Nat) : Nat :=
  let mu := cScs (s.carrier h.carrier).rec_
  h.slotStart + (symNs mu (14 * h.nrSlot + l + 1) - symNs mu (14 * h.nrSlot))

/-- When the input of a tap is predicted to be ready (Table TRK-8, typical): 5 µs after the last symbol that it needs. -/
def State.tapReadyAt (s : State) (h : Heat) (t : Nat) : Nat :=
  let need := (List.range 14).filter (fun l => h.jobs.any (fun j => if t = 0 then jIsDmrs j.rec_ l else jHas j.rec_ l))
  s.symEnd h (need.foldl max 0) + 5000

/-- The earliest start of a segment, given the predicted ends of the segments before it. -/
def State.segStart (s : State) (h : Heat) (ends : List Nat) (g : List Byte) : Nat :=
  match gStart g with
  | 0 => h.admitNs
  | 1 => s.symEnd h (gArg g)
  | 2 => if (h.tap (gArg g)).inReady then 0 else s.tapReadyAt h (gArg g)
  | 3 => ends.getD (gArg g) 0
  | _ => 0

/-- The deadline of a segment; none for a tap that is decided. -/
def segDeadline (h : Heat) (g : List Byte) : Option Nat :=
  match gDeadline g with
  | 0 => none
  | 4 => if h.finish = 0 then none else some h.finish
  | k => if (h.tap (k - 1)).st = .open_ && h.split (k - 1) != 0 then some (h.split (k - 1)) else none

/-- A deadline's prediction: the start of its segment, its guarded slack, and whether it is a finish line. -/
structure Pred where
  start : Nat
  slack : Int
  finish : Bool
deriving DecidableEq, Repr

/-- The guard band of R42, with the fields in force when the Heat was admitted. -/
def Heat.guard (h : Heat) (dur : Nat) : Nat := h.gFixed * 1000 + ceilDiv (h.gRate * dur) 200

/-- A Heat's remaining segments predicted at a setpoint (R41): the end of the last, the ends by segment, the predictions. -/
def State.predictAll (s : State) (h : Heat) (code : Nat) : Nat × List Nat × List Pred :=
  ((progSegs (s.imageOf h)).zipIdx).foldl (fun (x : Nat × List Nat × List Pred) g =>
    let left := s.segLeft h g.2 g.1
    if left = 0 then (x.1, x.2.1 ++ [0], x.2.2)
    else
      let start := max x.1 (s.segStart h x.2.1 g.1)
      let dur := s.workNs (s.segDomain h g.1) left code
      let fin := start + dur
      (fin, x.2.1 ++ [fin], match segDeadline h g.1 with
        | none => x.2.2
        | some d => x.2.2 ++ [⟨start, (d : Int) - (fin + h.guard dur : Nat), gDeadline g.1 == 4⟩]))
    (s.tk.ns, [], [])

/-- The predictions of a Heat's deadlines, and its predicted completion. -/
def State.predict (s : State) (h : Heat) (code : Nat) : List Pred := (s.predictAll h code).2.2
def State.predictEnd (s : State) (h : Heat) : Nat := (s.predictAll h (s.rg R.PACER_STAT_VSET)).1

/-- The least guarded slack of a list of predictions. -/
def leastSlack : List Pred → Option Int
  | [] => none
  | p :: ps => some (ps.foldl (fun m q => min m q.slack) p.slack)

/-- The deadlines that take part in choosing a setpoint (R47). -/
def Heat.counted (h : Heat) (ps : List Pred) : List Pred := if h.splitKick then ps else ps.filter (·.finish)

/-! ## Setpoints -/

/-- The base setpoint of the power state (R615): 0.80 V in Race, 0.65 V otherwise. -/
def State.baseCode (s : State) : Nat := if s.rg R.PST_STAT_STATE = 0 then 50 else 20

/-- The Kick ceiling in force (R50, R605). -/
def State.ceilCode (s : State) : Nat :=
  if s.rg R.PST_STAT_STATE = 0 && s.rg R.VRC_FLT_STATE != 4 then s.pacer.ceilRace else s.pacer.ceilPace

/-- The effective power cap in quarter watts (R605, R608). -/
def State.effCap (s : State) : Nat :=
  let c := s.pacer.capW
  let c := if s.rg R.VRC_FLT_STATE = 4 then min c 180 else c
  if s.flag R.PWR_RAIL_PWR_FAIL then min c 48 else c

/-- The check of R45. -/
def State.powerOk (s : State) (code : Nat) : Bool :=
  let now := s.rg R.PACER_STAT_VSET
  decide (code ≤ now) ||
    decide (s.pacer.powerMw * (110 + code) ^ 3 < s.effCap * 250 * (110 + now) ^ 3)

/-- The setpoint that a Heat needs (R44, R45): the lowest at which every counted deadline meets its guard band, else the highest
that may be asked for. -/
def State.needOf (s : State) (h : Heat) : Nat :=
  let base := s.baseCode
  let top := max base s.ceilCode
  let codes := (List.range (top + 1 - base)).map (base + ·)
  let want := (codes.find? (fun c => (h.counted (s.predict h c)).all (fun p => decide (0 ≤ p.slack)))).getD top
  if s.powerOk want then want else ((codes.filter s.powerOk).foldl max base)

/-- One Heat evaluated (R43, R51, R52): whether it is late-risk at the setpoint asked for, and what it needs. -/
def State.evalHeat (s : State) (slot : Nat) (atAdmission : Bool) : Nat × State :=
  match s.heat slot with
  | none => (s.baseCode, s)
  | some h =>
    if h.live then
      let want := if s.flag R.PACER_CTL_EN then s.needOf h else s.baseCode
      let ps := s.predict h (if s.flag R.PACER_STAT_BRAKE_LEVEL then s.rg R.PACER_STAT_VSET else want)
      let slack := (leastSlack ps).getD (2 ^ 31 - 1)
      let past := h.finish != 0 && decide (h.finish < s.tk.ns)
      let risk := decide (slack < 0) || past
      let h' := { h with lateRisk := risk, everLate := h.everLate || risk, minSlack := if atAdmission then slack else h.minSlack }
      let s := s.setHeat slot h'
      let s := if risk && !h.lateRisk then
          (s.incRg R.PACER_LATE_CNT_LATE).ev .PACER_LATE_RISK slot [toBits (max slack (-(2 ^ 31 : Int))) 32, want]
        else s
      (want, s.lateCount)
    else (s.baseCode, s)

/-- When a Kick for a Heat falls due (R46): 20 µs before the first segment that needs it. -/
def State.kickDue (s : State) (h : Heat) : Nat :=
  let ps := h.counted (s.predict h s.pacer.rateRef)
  max s.tk.ns (((ps.find? (fun p => decide (p.slack < 0))).map Pred.start).getD s.tk.ns - 20000)

/-- The setpoint wanted after an evaluation: the most that any Heat in flight needs. -/
def State.setWant (s : State) (needs : List (Nat × Nat)) : State :=
  let want := needs.foldl (fun m x => max m x.2) s.baseCode
  let due := (needs.filter (fun x => decide (s.rg R.PACER_STAT_VSET < x.2))).foldl (fun (m : Option Nat) x =>
    match s.heat x.1 with
    | some h => some (m.elim (s.kickDue h) (min (s.kickDue h)))
    | none => m) none
  { s with pacer := { s.pacer with want := want, kickAt := due.getD s.tk.ns } }

/-- Every Heat in flight re-evaluated (R43). -/
def State.evalAll (s : State) : State :=
  let r := s.heatList.foldl (fun (x : List (Nat × Nat) × State) p =>
    let y := x.2.evalHeat p.1 false
    (x.1 ++ [(p.1, y.1)], y.2)) ([], s)
  r.2.setWant r.1

/-- A Heat evaluated at its admission (R43, R51). -/
def State.admitEval (s : State) (slot : Nat) : State :=
  let y := s.evalHeat slot true
  let s := y.2
  if s.pacer.want < y.1 then
    let due := match s.heat slot with
      | some h => s.kickDue h
      | none => s.tk.ns
    { s with pacer := { s.pacer with
      want := y.1, kickAt := if s.rg R.PACER_STAT_VSET < s.pacer.want then min due s.pacer.kickAt else due } }
  else s

/-- The setpoint put in force: VCORE follows it (R594). -/
def State.setVset (s : State) (code : Nat) : State :=
  let c := min code 70
  (s.setRg R.PACER_STAT_VSET c).setRg R.VRC_STAT_VOUT (if s.rg R.VRC_FLT_STATE = 0 then 0 else 550 + 5 * c)

/-- The setpoint slews down to a code at 10 mV/µs. -/
def State.lowerTo (s : State) (code : Nat) : State :=
  let now := s.rg R.PACER_STAT_VSET
  if code < now then
    let s := (s.elapse ((now - code) * 500)).setVset code
    { s with pacer := { s.pacer with idleRefreshes := 0 } }
  else s

/-! ## Split timers -/

/-- One domain sampled (R36 to R38, R59): its period, whether the window was whole, and its temperature. -/
def State.splitSample (s : State) (d : Nat) (x : Nat × Bool × Int) : State :=
  let bad := x.1 = 0 || decide (2 * max10 (s.rg R.PACER_STAT_VSET) * x.1 < 2560000000)
  let valid := x.2.1 && !bad
  let s := s.setRg R.SPLIT_PERIOD_PERIOD x.1 d
  let s := (s.setRg R.SPLIT_STAT_VALID (if valid then 1 else 0) d).setRg R.SPLIT_STAT_FAULT (if bad && x.2.1 then 1 else 0) d
  let s := (s.setRg R.SPLIT_STAT_BRAKE_LEVEL (if d < 8 then s.rg R.PACER_STAT_BRAKE_LEVEL else 0) d).incRg R.SPLIT_STAT_SEQ d
  let s := s.setRg R.SPLIT_STAT_TJ (toBits x.2.2 16) d
  if bad && x.2.1 then s.ev .SPLIT_FAULT else s

/-- The next refresh instant (R36): the next multiple of 8,000 ns of TK_NS that has not been taken. -/
def State.refreshAt (s : State) : Nat :=
  let t := ceilDiv s.tk.ns 8000 * 8000
  if s.tk.refresh = some t then t + 8000 else t

/-- SPLIT_REFRESH (R36 to R45, R49, R50): every split timer is sampled, the ceilings and the cap take force and every Heat is evaluated.
Each sample is a period, whether the domain's window was whole, and its temperature in 1/16 °C; `powerMw` is the power estimate of R596
over the window. -/
def State.splitRefresh (s : State) (samples : List (Nat × Bool × Int)) (powerMw : Nat) : State :=
  let s : State := s.reach s.refreshAt
  let s : State := { s with tk := { s.tk with refresh := some s.tk.ns } }
  let s : State := (((samples.take 15).zipIdx).foldl (fun (s : State) x => s.splitSample x.2 x.1) s).applyShadow .ceil
  let settled := s.flag R.PACER_STAT_SETTLED
  let s : State := { s with pacer := { s.pacer with
    powerMw := powerMw, capW := s.rg R.PWR_CAP_CAP
    ceilRace := min 70 (s.rg R.PACER_CTL_CEIL_RACE), ceilPace := min 50 (s.rg R.PACER_CTL_CEIL_PACE)
    per := if settled then samples.map Prod.fst else s.pacer.per
    rateRef := if settled then s.rg R.PACER_STAT_VSET else s.pacer.rateRef } }
  let s : State := s.evalAll
  let now := s.rg R.PACER_STAT_VSET
  if max s.baseCode s.ceilCode < now then s.lowerTo (max s.baseCode s.ceilCode)
  else { s with pacer := { s.pacer with
    idleRefreshes := if s.pacer.want < now then s.pacer.idleRefreshes + 1 else 0 } }

def execSplitRefresh (samples : List (Nat × Bool × Int)) (powerMw : Nat) (s : State) : Host.Outcome State Fault Refusal :=
  .next (s.splitRefresh samples powerMw)

/-! ## Kicks -/

/-- Every shed phase is added (R599). -/
def State.addPhases (s : State) : State :=
  (List.range 12).foldl (fun s n =>
    if s.rg R.VRC_PH_PST n = 1 then (s.setRg R.VRC_PH_PST 0 n).putRgBit R.VRC_STAT_ACTIVE n true else s) s

/-- KICK (R46, R48, R55): the Kick falls due; no more than 150 mV above the last settled voltage. -/
def execKick (s : State) : Host.Outcome State Fault Refusal :=
  let now := s.rg R.PACER_STAT_VSET
  if s.flag R.PACER_CTL_EN && !s.flag R.PACER_STAT_BRAKE_LEVEL && decide (now < s.pacer.want) &&
      !s.flag R.PWR_RAIL_PWR_FAIL then
    let s := s.reach s.pacer.kickAt
    let last := if s.flag R.PACER_STAT_KICK then s.pacer.kickFrom else now
    let target := min s.pacer.want (last + 30)
    if now < target then
      let s := { s with pacer := { s.pacer with kickFrom := last, kickNs := s.tk.localNs } }
      let s := (((s.setVset target).setRg R.PACER_STAT_KICK 1).setRg R.PACER_STAT_SETTLED 0).incRg R.PACER_KICK_CNT_KICKS
      .next s.addPhases
    else .next s
  else .next s

/-- KICK_SETTLED (R48). -/
def execKickSettled (s : State) : Host.Outcome State Fault Refusal :=
  .next (if s.flag R.PACER_STAT_KICK then (s.setRg R.PACER_STAT_KICK 0).setRg R.PACER_STAT_SETTLED 1 else s)

/-- PACER_SETPOINT_LOWER (R49): after three refreshes without need. -/
def execPacerSetpointLower (s : State) : Host.Outcome State Fault Refusal :=
  .next (if 3 ≤ s.pacer.idleRefreshes && !s.flag R.PACER_STAT_KICK then s.lowerTo s.pacer.want else s)

/-! ## Brakes (R53 to R55, R604) -/

/-- The controller's current limit derated below I_RATED: a derating factor is in force (R603). -/
def State.derated (s : State) : Bool := s.flag R.VRC_FLT_LOST || s.flag R.VRC_FLT_SENSE_FB

/-- The Brake level set; the Lanes' level changes with it. -/
def State.brakeLevel (s : State) (l : Nat) : State :=
  { s with pacer := { s.pacer with levelAt := s.tk.localNs } }.setRg R.PACER_STAT_BRAKE_LEVEL l

/-- A Brake cause is present (R53): 0 current, 1 power cap, 2 droop. A Kick in progress stops at its present voltage (R55). -/
def State.brake (s : State) (cause : Nat) : State :=
  let s := s.putRgBit R.PACER_STAT_BRAKE_CAUSE cause true
  let s := if cause = 0 && s.derated then s.putRgBit R.PACER_STAT_BRAKE_CAUSE 3 true else s
  let s := if s.flag R.PACER_STAT_KICK then
      let went := (s.tk.localNs - s.pacer.kickNs) / 500
      let v := min (s.rg R.PACER_STAT_VSET) (s.pacer.kickFrom + went)
      ((s.setVset v).setRg R.PACER_STAT_KICK 0).setRg R.PACER_STAT_SETTLED 1
    else s
  if s.flag R.PACER_STAT_BRAKE_LEVEL then s
  else
    let s := s.brakeLevel 1
    { s with pacer := { s.pacer with stepAt := s.tk.localNs } }

/-- BRAKE_TRIGGER (R53): one of the causes current, power cap and droop appears; phase derate comes with current (R604). -/
def execBrakeTrigger (cause : Fin 3) (s : State) : Host.Outcome State Fault Refusal := .next (s.brake cause)

/-- BRAKE_LEVEL_RISE (R54): the cause has persisted for a further 1 µs. -/
def execBrakeLevelRise (s : State) : Host.Outcome State Fault Refusal :=
  let l := s.rg R.PACER_STAT_BRAKE_LEVEL
  .next (if 1 ≤ l && l < 3 && s.flag R.PACER_STAT_BRAKE_CAUSE then (s.since s.pacer.levelAt 1000).brakeLevel (l + 1) else s)

/-- Brake causes are absent. -/
def State.brakeAbsent (s : State) (mask : Nat) : State :=
  let s := (List.range 3).foldl (fun s b => if mask.testBit b then s.putRgBit R.PACER_STAT_BRAKE_CAUSE b false else s) s
  if mask.testBit 0 then s.putRgBit R.PACER_STAT_BRAKE_CAUSE 3 false else s

/-- BRAKE_LEVEL_FALL (R54): the causes in `absent` (bit 0 current, 1 power cap, 2 droop) are gone; with none left for 2 µs the level
falls one step. -/
def execBrakeLevelFall (absent : BitVec 3) (s : State) : Host.Outcome State Fault Refusal :=
  let s := s.brakeAbsent absent.toNat
  let l := s.rg R.PACER_STAT_BRAKE_LEVEL
  .next (if 1 ≤ l && !s.flag R.PACER_STAT_BRAKE_CAUSE then (s.since s.pacer.levelAt 1000).brakeLevel (l - 1) else s)

/-- BRAKE_SETPOINT_STEP (R55): each 100 µs of a Brake for current or power lowers the setpoint by 25 mV, to 0.65 V at lowest. -/
def execBrakeSetpointStep (s : State) : Host.Outcome State Fault Refusal :=
  let now := s.rg R.PACER_STAT_VSET
  if s.flag R.PACER_STAT_BRAKE_LEVEL && (s.rgBit R.PACER_STAT_BRAKE_CAUSE 0 || s.rgBit R.PACER_STAT_BRAKE_CAUSE 1) then
    let s := s.since s.pacer.stepAt 100000
    let s := { s with pacer := { s.pacer with stepAt := s.tk.localNs } }
    .next (if 20 < now then s.setVset (max 20 (now - 5)) else s)
  else .next s

end Sys2Proof.Machine
end

