-- ==== Sys2Proof/Machine/Flash.lean ====
section
/-! DEFINITION. The boot flash (R641, R642, R667): CRC-32, two-slot commits, the PON disabled flags and the wear-ledger mirror. -/

namespace Sys2Proof.Machine

/-- CRC-32 (Table OPT-4): IEEE 802.3 polynomial, reflected, initial value and final XOR 0xFFFF_FFFF. -/
def crc32 (bs : List Byte) : Nat :=
  (bs.foldl (fun c b => (List.range 8).foldl (fun c _ => if c % 2 = 1 then c / 2 ^^^ 0xEDB88320 else c / 2) (c ^^^ b.toNat))
    0xFFFFFFFF) ^^^ 0xFFFFFFFF

/-- A field of a record replaced. -/
def putRec (r : List Byte) (off n v : Nat) : List Byte := r.take off ++ leBytes n v ++ r.drop (off + n)

/-- A page of 256 bytes. -/
def page (bs : List Byte) : List Byte := bs ++ List.replicate (256 - bs.length) 0

/-- The marker page of a commit. -/
def markOf (hdr body : List Byte) : List Byte :=
  page (leBytes 4 0x4D4B4342 ++ slice hdr 8 4 ++ leBytes 4 body.length ++ leBytes 4 (crc32 (hdr ++ body)))

/-- Whether a slot is valid. -/
def FlashSlot.valid (x : FlashSlot) : Bool := !x.hdr.isEmpty && x.mark == markOf x.hdr x.body

/-- The newer valid slot of two, in serial order over the nonzero values. -/
def newerSlot (v : Vector FlashSlot 2) : Option Nat :=
  let a := vget v 0
  let b := vget v 1
  match a.valid, b.valid with
  | true, true => if seqAfter (rec32 b.hdr 8) (rec32 a.hdr 8) then some 1 else some 0
  | true, false => some 0
  | false, true => some 1
  | false, false => none

/-- The SEQ of the next commit, and the slot it goes to. -/
def nextCommit (v : Vector FlashSlot 2) : Nat × Nat :=
  match newerSlot v with
  | some k =>
    let q := rec32 (vget v k).hdr 8
    (seqNext q, 1 - k)
  | none => (1, 0)

/-- A commit without its marker: the header page with its SEQ, and the body. -/
def beginCommit (v : Vector FlashSlot 2) (hdr body : List Byte) : Vector FlashSlot 2 :=
  let n := nextCommit v
  vset v n.2 { hdr := putRec (page hdr) 8 4 n.1, body := body, mark := [] }

/-- A whole commit: the marker is written last. -/
def commitSlots (v : Vector FlashSlot 2) (hdr body : List Byte) : Vector FlashSlot 2 :=
  vmod (beginCommit v hdr body) (nextCommit v).2 (fun x => { x with mark := markOf x.hdr x.body })

/-- Whether a boot flash is fitted (Table RST-4). -/
def State.flashFitted (s : State) : Bool := bitsOf (s.rg R.RST_STRAP_STRAPS) 12 2 < 2

/-- The disabled flags committed (R335). -/
def State.saveFlags (s : State) : State :=
  if s.flashFitted then
    let v := (if (vget s.ports 0).disabled then 1 else 0) + (if (vget s.ports 1).disabled then 2 else 0)
    { s with flash := { s.flash with
      flags := commitSlots s.flash.flags (leBytes 4 0x4C464450 ++ leBytes 8 1 ++ leBytes 1 v) [] } }
  else s

/-- The disabled flags read back. -/
def State.loadFlags (s : State) : State :=
  let v := if s.flashFitted then
      (match newerSlot s.flash.flags with | some k => rec8 (vget s.flash.flags k).hdr 12 | none => 0)
    else 0
  { s with ports := vmod (vmod s.ports 0 (fun x => { x with disabled := v.testBit 0 })) 1 (fun x => { x with
    disabled := v.testBit 1 }) }

/-- The entries of the ledger mirror, least recently written first (R401). -/
def State.mirror (s : State) : List (List Byte) :=
  match if s.flashFitted then newerSlot s.flash.mirror else none with
  | some k => (List.range (rec16 (vget s.flash.mirror k).hdr 12)).map (fun i => slice (vget s.flash.mirror k).body (80 * i) 80)
  | none => []

/-- An identity as an entry holds it: OUI, 0, serial number. -/
def mirrorKey (ident : List Byte) : List Byte := ident.take 3 ++ [0] ++ slice ident 3 16

/-- The mirror's record of an identity. -/
def State.mirrorOf (s : State) (ident : List Byte) : Option (List Byte) :=
  (s.mirror.find? (fun e => e.take 20 == mirrorKey ident)).map (fun e => slice e 20 56)

/-- A record written to the mirror; of 16 entries the one written least recently makes room. -/
def State.saveMirror (s : State) (ident rec_ : List Byte) : State :=
  if s.flashFitted then
    let es := s.mirror.filter (fun e => e.take 20 != mirrorKey ident)
    let es := es.drop (es.length - 15) ++ [mirrorKey ident ++ rec_ ++ [0, 0, 0, 0]]
    { s with flash := { s.flash with
      mirror := commitSlots s.flash.mirror (leBytes 4 0x524D4C57 ++ leBytes 8 1 ++ leBytes 2 es.length) es.flatten } }
  else s

end Sys2Proof.Machine
end

