-- ==== Sys2Proof/Machine/Aes.lean ====
section
/-! DEFINITION. AES-128 and AES-256 (FIPS 197) and the modes of the cipher engine (NIST SP 800-38A, B and D; R409, R429): blocks are
lists of 16 bytes. -/

namespace Sys2Proof.Machine

/-! ## The field and the S-box -/

/-- Multiplication by x in GF(2^8) modulo 0x11B. -/
def xtime (a : Nat) : Nat := let b := 2 * a; if 256 ≤ b then (b ^^^ 0x11B) % 256 else b

/-- Multiplication in GF(2^8); the count is the bits of `b` still to use. -/
def gmulN : Nat → Nat → Nat → Nat
  | 0, _, _ => 0
  | n + 1, a, b => (if b % 2 = 1 then a else 0) ^^^ gmulN n (xtime a) (b / 2)

def gmul (a b : Nat) : Nat := gmulN 8 a b

/-- The inverse in GF(2^8): the 254th power; 0 for 0. -/
def ginv (a : Nat) : Nat :=
  let a2 := gmul a a
  let a4 := gmul a2 a2
  let a8 := gmul a4 a4
  let a16 := gmul a8 a8
  let a32 := gmul a16 a16
  let a64 := gmul a32 a32
  let a128 := gmul a64 a64
  gmul a128 (gmul a64 (gmul a32 (gmul a16 (gmul a8 (gmul a4 a2)))))

/-- Rotation of a byte to the left. -/
def rotl8 (a k : Nat) : Nat := (a * 2 ^ k) % 256 + a / 2 ^ (8 - k)

def sbox (a : Nat) : Nat :=
  let b := ginv a
  b ^^^ rotl8 b 1 ^^^ rotl8 b 2 ^^^ rotl8 b 3 ^^^ rotl8 b 4 ^^^ 0x63

def invSbox (a : Nat) : Nat := ginv (rotl8 a 1 ^^^ rotl8 a 3 ^^^ rotl8 a 6 ^^^ 0x05)

/-! ## The cipher -/

/-- Bytes xored pairwise. -/
def xorL (a b : List Nat) : List Nat := List.zipWith (· ^^^ ·) a b

/-- The next word of the key schedule: the words so far, newest first. -/
def nextWord (nk i rc : Nat) (ws : List (List Nat)) : List Nat :=
  let t := ws.headD []
  let t := if i % nk = 0 then xorL ((t.drop 1 ++ t.take 1).map sbox) [rc, 0, 0, 0]
    else if nk = 8 && i % nk = 4 then t.map sbox else t
  xorL (ws.getD (nk - 1) []) t

/-- The key schedule from word `i` on, `n` words more. -/
def expandFrom (nk : Nat) : Nat → Nat → Nat → List (List Nat) → List (List Nat)
  | 0, _, _, ws => ws.reverse
  | n + 1, i, rc, ws => expandFrom nk n (i + 1) (if i % nk = 0 then xtime rc else rc) (nextWord nk i rc ws :: ws)

/-- A list cut into pieces of `k`; the count bounds the pieces. -/
def chunksN {α : Type} (k : Nat) : Nat → List α → List (List α)
  | 0, _ => []
  | n + 1, l => if l.isEmpty then [] else l.take k :: chunksN k n (l.drop k)

def chunksOf {α : Type} (k : Nat) (l : List α) : List (List α) := chunksN k l.length l

/-- The round keys of a 16- or 32-byte key. -/
def roundKeys (key : List Nat) : List (List Nat) :=
  let nk := key.length / 4
  let ws := expandFrom nk (4 * (nk + 7) - nk) nk 1 (chunksOf 4 key).reverse
  (chunksOf 4 ws).map List.flatten

def shiftRows (b : List Nat) : List Nat :=
  (List.range 16).map (fun i => b.getD ((i + 4 * (i % 4)) % 16) 0)

def invShiftRows (b : List Nat) : List Nat :=
  (List.range 16).map (fun i => b.getD ((i + 16 - 4 * (i % 4)) % 16) 0)

/-- Each column multiplied by the circulant matrix with a first row. -/
def mixWith (m b : List Nat) : List Nat :=
  (List.range 16).map (fun i =>
    (List.range 4).foldl (fun a j => a ^^^ gmul (m.getD ((j + 4 - i % 4) % 4) 0) (b.getD (i / 4 * 4 + j) 0)) 0)

/-- AES of one block. -/
def aesEnc (rks : List (List Nat)) (b : List Nat) : List Nat :=
  match rks with
  | [] => b
  | k0 :: ks =>
    let body := ks.dropLast.foldl (fun b k => xorL (mixWith [2, 3, 1, 1] (shiftRows (b.map sbox))) k) (xorL b k0)
    xorL (shiftRows (body.map sbox)) (ks.getLastD [])

/-- The inverse of AES of one block. -/
def aesDec (rks : List (List Nat)) (b : List Nat) : List Nat :=
  match rks.reverse with
  | [] => b
  | k0 :: ks =>
    let body := ks.dropLast.foldl (fun b k => mixWith [14, 11, 13, 9] (xorL ((invShiftRows b).map invSbox) k)) (xorL b k0)
    xorL ((invShiftRows body).map invSbox) (ks.getLastD [])

/-! ## Modes -/

/-- A block as a number, most significant byte first, and back. -/
def blockNat (b : List Nat) : Nat := b.foldl (fun a x => a * 256 + x) 0
def natBlock (v : Nat) : List Nat := (List.range 16).map (fun i => v / 256 ^ (15 - i) % 256)

/-- The low `bits` bits of a counter block advanced by `k` (SP 800-38A). -/
def ctrAdd (bits k : Nat) (b : List Nat) : List Nat :=
  let v := blockNat b
  natBlock (v / 2 ^ bits * 2 ^ bits + (v + k) % 2 ^ bits)

/-- Counter mode over data from a counter block. -/
def ctrMode (rks : List (List Nat)) (bits : Nat) (icb : List Nat) (data : List Nat) : List Nat :=
  ((chunksOf 16 data).zipIdx).flatMap (fun p => xorL p.1 (aesEnc rks (ctrAdd bits p.2 icb)))

/-- CBC: output and the chaining value left. -/
def cbcMode (rks : List (List Nat)) (dec : Bool) (iv data : List Nat) : List Nat × List Nat :=
  let r := (chunksOf 16 data).foldl (fun (x : List (List Nat) × List Nat) b =>
    if dec then (xorL (aesDec rks b) x.2 :: x.1, b)
    else
      let c := aesEnc rks (xorL b x.2)
      (c :: x.1, c)) ([], iv)
  (r.1.reverse.flatten, r.2)

/-- CFB-128: output and the chaining value left. -/
def cfbMode (rks : List (List Nat)) (dec : Bool) (iv data : List Nat) : List Nat × List Nat :=
  let r := (chunksOf 16 data).foldl (fun (x : List (List Nat) × List Nat) b =>
    let o := xorL b (aesEnc rks x.2)
    (o :: x.1, if dec then b else o)) ([], iv)
  (r.1.reverse.flatten, r.2)

/-- OFB: output and the chaining value left. -/
def ofbMode (rks : List (List Nat)) (iv data : List Nat) : List Nat × List Nat :=
  let r := (chunksOf 16 data).foldl (fun (x : List (List Nat) × List Nat) b =>
    let k := aesEnc rks x.2
    (xorL b k :: x.1, k)) ([], iv)
  (r.1.reverse.flatten, r.2)

/-- Doubling in GF(2^128) (SP 800-38B). -/
def dbl128 (v : Nat) : Nat :=
  if 2 ^ 127 ≤ v then (2 * v % 2 ^ 128) ^^^ 0x87 else 2 * v

/-- CMAC over whole blocks from a state. -/
def cmacBlocks (rks : List (List Nat)) (x data : List Nat) : List Nat :=
  (chunksOf 16 data).foldl (fun x b => aesEnc rks (xorL x b)) x

/-- The end of a CMAC: the data that is left, its last block possibly short or none. -/
def cmacFinal (rks : List (List Nat)) (x data : List Nat) : List Nat :=
  let l := blockNat (aesEnc rks (List.replicate 16 0))
  let k1 := dbl128 l
  let k2 := dbl128 k1
  let n := if data.isEmpty then 0 else (data.length - 1) / 16
  let x := cmacBlocks rks x (data.take (16 * n))
  let m := data.drop (16 * n)
  if m.length = 16 then aesEnc rks (xorL x (xorL m (natBlock k1)))
  else aesEnc rks (xorL x (xorL (m ++ 0x80 :: List.replicate (15 - m.length) 0) (natBlock k2)))

/-- CMAC of a whole message. -/
def cmac (key data : List Nat) : List Nat := cmacFinal (roundKeys key) (List.replicate 16 0) data

/-- Multiplication in the field of GHASH (SP 800-38D): the count is the bits of `x` still to use, most significant first. -/
def ghMul : Nat → Nat → Nat → Nat → Nat
  | 0, _, _, z => z
  | n + 1, x, v, z =>
    ghMul n x (if v % 2 = 1 then (v / 2) ^^^ (0xE1 * 2 ^ 120) else v / 2) (if x.testBit n then z ^^^ v else z)

/-- GHASH of data from a state; the last block is padded with zeros. -/
def ghash (h y : Nat) (data : List Nat) : Nat :=
  (chunksOf 16 data).foldl (fun y b => ghMul 128 (y ^^^ blockNat (b ++ List.replicate (16 - b.length) 0)) h 0) y

/-- The tag of GCM: the GHASH of everything before the lengths, and the two lengths in bytes. -/
def gcmTag (rks : List (List Nat)) (iv : List Nat) (y aadLen dataLen : Nat) : List Nat :=
  let h := blockNat (aesEnc rks (List.replicate 16 0))
  let t := ghMul 128 (y ^^^ (aadLen * 8 * 2 ^ 64 + dataLen * 8)) h 0
  xorL (natBlock t) (aesEnc rks (iv ++ [0, 0, 0, 1]))

end Sys2Proof.Machine
end

