-- ==== Sys2Proof/Machine/Defect.lean ====
section
/-! DEFINITION. Defects and consequent actions (R348 to R357), and the second mark of the performance-monitoring engine (R359 to
R362). -/

namespace Sys2Proof.Machine

def State.defect (s : State) (p d : Nat) : Defect := vget (s.port p).defects d

def State.setDefect (s : State) (p d : Nat) (x : Defect) : State :=
  s.modPort p (fun q => { q with defects := vset q.defects d x })

/-- Declared: DECLARED or LEAVING (Table DEF-4). -/
def Defect.declared (x : Defect) : Bool := x.st = .declared || x.st = .leaving

/-- Bits of the defects with a property. -/
def State.defMask (s : State) (p : Nat) (f : Defect → Bool) : Nat :=
  (List.range 8).foldl (fun m d => if f (s.defect p d) then setBit m d else m) 0

/-- Bring REPORTED to a new value (R352): a bit that falls with its defect clear is logged, a bit that rises is logged; every change
is in PON_DEF_CHG and raises vector 67 unless masked (Table DEF-3). -/
def State.defReport (s : State) (p : Nat) : State :=
  let dec := s.defMask p Defect.declared
  let new := match (List.range 8).find? dec.testBit with | some d => 2 ^ d | none => 0
  let old := s.rg R.PON_DEF_REPORTED p
  let irq (s : State) (d : Nat) : State := if s.rgBit R.PON_DEF_CFG_IRQ_MASK d p then s else s.ponIrq
  let s := (s.setRg R.PON_DEF_DECLARED dec p).setRg R.PON_DEF_REPORTED new p
  let s := (List.range 8).foldl (fun s d =>
    if old.testBit d && !new.testBit d then
      let s := s.putRgBit R.PON_DEF_CHG_CLR d true p
      irq (if dec.testBit d then s else s.ev .PON_DEF_CLR p) d
    else s) s
  let s := (List.range 8).foldl (fun s d =>
    if new.testBit d && !old.testBit d then irq ((s.putRgBit R.PON_DEF_CHG_SET d true p).ev .PON_DEF_SET p) d else s) s
  { s with pm := { s.pm with
    defSeen := if new ≠ 0 then vset s.pm.defSeen p true else s.pm.defSeen
    sdSeen := if new.testBit 7 then vset s.pm.sdSeen p true else s.pm.sdSeen } }

/-- Remote defect indication (Table DEF-3). -/
def State.rdi (s : State) (p : Nat) : Bool :=
  s.inO5 p && (s.rgBit R.PON_DEF_REPORTED 6 p || (s.rgBit R.PON_DEF_REPORTED 7 p && s.flag R.PON_DEF_CFG_RDI_SD p))

/-- What follows from a change of defects: reports, laser hold-off from any of defects 0 to 4 that is not CLEAR, remote defect indication,
and the activation that a permitted laser lets go on. -/
def State.defUpdate (s : State) (p : Nat) : State :=
  let s := s.defReport p
  let s := if s.rg R.PON_DEF_DECLARED p = 0 then s else { s with bond := { s.bond with clearAt := vset s.bond.clearAt p none } }
  let hold := s.defMask p (fun x => x.st != .clear) % 32 != 0
  let s := s.setRg R.PON_DEF_LASER_HOLD (if hold then 1 else 0) p
  let s := s.setRg R.PON_DEF_RDI (if s.rdi p then 1 else 0) p
  (s.laserUpdate p).leaveO1 p

/-- A defect is declared (Table DEF-2): LOS, LOL and LOFS lose a Timekeeper source (R209) and a member of the group (R377). -/
def State.declare (s : State) (p d : Nat) : State :=
  let s := (s.setDefect p d { st := .declared, since := s.tk.localNs }).defUpdate p
  if d = 1 || d = 2 || d = 3 then (s.memberLost p).srcLost (p + 1) else s

/-- A defect clears. -/
def State.clearDefect (s : State) (p d : Nat) : State := (s.setDefect p d {}).defUpdate p

/-- The detection condition of OPT_ABSENT, LOS, LOL or LOFS appears or disappears. Defects are detected only while MODE is not 0, and not
while the receiver is off. -/
def State.defCond (s : State) (p d : Nat) (present : Bool) : State :=
  let s := s.modPort p (fun x => { x with raw := putBit x.raw d present })
  if (s.port p).mode = 0 || (s.port p).frozen then s
  else
    let x := s.defect p d
    match present, x.st with
    | true, .clear => if d = 3 then s.declare p d else (s.setDefect p d { st := .entering, since := s.tk.localNs }).defUpdate p
    | true, .leaving => s.setDefect p d { x with st := .declared }
    | false, .entering => s.clearDefect p d
    | false, .declared => if d = 3 then s.clearDefect p d else s.setDefect p d { st := .leaving, since := s.tk.localNs }
    | _, _ => s

/-- A defect counted in frames (LOSFC, KEY_LOSS): `n` consecutive frames declare it, and `n` clear it. -/
def State.defFrame (s : State) (p d : Nat) (present : Bool) (n : Nat) : State :=
  if (s.port p).mode = 0 || (s.port p).frozen then s
  else
    let x := s.defect p d
    match present, x.st with
    | true, .clear => (s.setDefect p d { st := .entering, since := s.tk.localNs, count := 1 }).defUpdate p
    | true, .entering =>
      if n ≤ x.count + 1 then s.declare p d else s.setDefect p d { x with count := x.count + 1 }
    | true, .leaving => s.setDefect p d { x with st := .declared, count := 0 }
    | false, .entering => s.clearDefect p d
    | false, .declared => s.setDefect p d { st := .leaving, since := s.tk.localNs, count := 1 }
    | false, .leaving =>
      if n ≤ x.count + 1 then s.clearDefect p d else s.setDefect p d { x with count := x.count + 1 }
    | _, _ => s

/-- Every defect of a port cleared, as when the port is disabled or MODE is written (Table DEF-2). -/
def State.defClearAll (s : State) (p : Nat) : State :=
  (s.modPort p (fun x => { x with defects := Vector.replicate 8 {}, frozen := false, sf := none, keyMiss := false })).defUpdate p

/-- Detection starts on a port whose MODE has become nonzero: conditions present begin their counts. -/
def State.defStart (s : State) (p : Nat) : State :=
  [0, 1, 2, 3].foldl (fun s d => if (s.port p).raw.testBit d then s.defCond p d true else s) s

/-! ## Bit-error estimates (R349, R350) -/

/-- The effective exponents: code 0 is the default of the mode; a port without a mode takes those of 50G (notes/assumptions/21.md). -/
def State.sfExp (s : State) (p : Nat) (v : Nat) : Nat := if v ≠ 0 then v else if (s.port p).mode = 2 then 3 else 2
def State.sdExp (s : State) (p : Nat) (v : Nat) : Nat := if v ≠ 0 then v else if (s.port p).mode = 2 then 4 else 3

/-- The estimate of a second judged for SF or SD: `e` errors in `b` bits against 10^−`x`. -/
def State.defSecond (s : State) (p d e b x : Nat) : State :=
  if (s.port p).mode = 0 || (s.port p).frozen || decide (b < 1000000) then s
  else
    let f := s.defect p d
    if b ≤ e * 10 ^ x then
      match f.st with
      | .declared => s
      | .leaving => s.setDefect p d { f with st := .declared, count := 0 }
      | _ => s.declare p d
    else if e * 10 ^ (x + 1) < b then
      match f.st with
      | .declared => s.setDefect p d { st := .leaving, since := s.tk.localNs, count := 1 }
      | .leaving => if 10 ≤ f.count + 1 then s.clearDefect p d else s.setDefect p d { f with count := f.count + 1 }
      | _ => s
    else match f.st with
      | .leaving => s.setDefect p d { f with st := .declared, count := 0 }
      | _ => s

/-- The SF and SD of a port at the end of a PM second, from the deltas of its codeword points. -/
def State.berSecond (s : State) (p : Nat) (ds : List (Nat × Nat)) : State :=
  let pt (k : Nat) := Store.get 0 ds (16 * p + k)
  let xgs := (s.port p).mode == 2
  let b := pt 9 * (if xgs then 1984 else 17280)
  let e := pt 10 + pt 11 * (if xgs then 136 else 256)
  let s := s.defSecond p 6 e b (s.sfExp p (s.rg R.PON_DEF_CFG_SF_EXP p))
  s.defSecond p 7 e b (s.sdExp p (s.rg R.PON_DEF_CFG_SD_EXP p))

/-- The derived points of a port for a second (R361). -/
def State.derivedPoints (s : State) (p : Nat) (ds : List (Nat × Nat)) : State :=
  if (s.port p).enabled then
    let pt (k : Nat) := Store.get 0 ds (16 * p + k)
    let s := if vget s.pm.defSeen p then s.pmAdd (16 * p + 13) 1 else s
    let s := if 0 < pt 11 || 0 < pt 3 || vget s.pm.sdSeen p then s.pmAdd (16 * p + 14) 1 else s
    if vget s.pm.outO5 p || !s.inO5 p then s.pmAdd (16 * p + 15) 1 else s
  else s

/-! ## Events -/

/-- Entry persistence and exit time in nanoseconds of the defects counted in time (Table DEF-1). -/
def entryNs (d : Nat) : Nat := match d with | 0 => 10000000 | _ => 250000
def exitNs (d : Nat) : Nat := match d with | 0 => 100000000 | 1 => 1000000 | _ => 250000

/-- DEFECT_CONDITION (R351): the raw condition of OPT_ABSENT, LOS or LOL changes. LOFS follows the synchronisation events, and the other
conditions follow frames and seconds. -/
def execDefectCondition (p : Fin 2) (d : Fin 8) (present : Bool) (s : State) : Host.Outcome State Fault Refusal :=
  .next (if d.val < 3 then s.defCond p d present else s)

/-- DEFECT_ENTRY_MET (R351): the condition has persisted for the entry persistence. -/
def execDefectEntryMet (p : Fin 2) (d : Fin 8) (s : State) : Host.Outcome State Fault Refusal :=
  let x := s.defect p d
  .next (if d.val < 3 && x.st = .entering && !(s.port p).frozen then
    (s.since x.since (entryNs d)).declare p d else s)

/-- DEFECT_EXIT_MET (R351): the exit criterion is met. -/
def execDefectExitMet (p : Fin 2) (d : Fin 8) (s : State) : Host.Outcome State Fault Refusal :=
  let x := s.defect p d
  .next (if d.val < 3 && x.st = .leaving && !(s.port p).frozen then
    (s.since x.since (exitNs d)).clearDefect p d else s)

/-- PM_SECOND_MARK (R362): the next instant at which TK_NS + EPOCH_TAI is a whole second. The bit-error estimates and the derived points
of the second are formed, the engine latches it, and SF_EXP and SD_EXP written meanwhile take effect (Table DEF-5). -/
def execPmSecondMark (s : State) : Host.Outcome State Fault Refusal :=
  let from_ := s.secAt s.pm.mark
  let now := s.taiAt s.tk.ns
  let due := if from_ < now / 1000000000 then s.tk.ns else s.tk.ns + (1000000000 - now % 1000000000)
  let s := s.reach due
  let ds := s.pmDeltas
  let s := [0, 1].foldl (fun s p => (s.berSecond p ds).derivedPoints p ds) s
  let s := s.pmLatch from_ (s.secAt s.tk.ns)
  let seen (f : Nat → Bool) : Vector Bool 2 := Vector.ofFn (fun i => f i.val)
  let s := { s with pm := { s.pm with
    defSeen := seen (fun p => s.rg R.PON_DEF_REPORTED p != 0), sdSeen := seen (fun p => s.rgBit R.PON_DEF_REPORTED 7 p)
    outO5 := seen (fun p => !s.inO5 p) } }
  let redo := s.shadow.any (fun x => x.cls == .pmSecond)
  let s := s.applyShadow .pmSecond
  .next (if redo then [0, 1].foldl (fun s p => [6, 7].foldl (fun s d =>
    let x := s.defect p d
    s.setDefect p d { x with count := 0, st := if x.st = .leaving then .declared else x.st }) s) s else s)

end Sys2Proof.Machine
end

