-- ==== Sys2Proof/Machine/Frt.lean ====
section
/-! DEFINITION. Fixed-rate tributaries (R379 to R387): frames, sending and receiving in pointer and slip mode, alarms. -/

namespace Sys2Proof.Machine

def State.frt (s : State) (t : Nat) : Frt := vget s.frts t
def State.modFrt (s : State) (t : Nat) (f : Frt → Frt) : State := { s with frts := vmod s.frts t f }

/-- The control block (Table BND-4). -/
def State.frtWr (s : State) (x : Frt) : Nat := leNat (s.bytes x.ctrl 8)
def State.frtRd (s : State) (x : Frt) : Nat := leNat (s.bytes (x.ctrl + 8) 8)
def State.setWr (s : State) (x : Frt) (v : Nat) : State := s.write x.ctrl (leBytes 8 v)
def State.setRd (s : State) (x : Frt) (v : Nat) : State := s.write (x.ctrl + 8) (leBytes 8 v)

/-- Bytes of the circular buffer from counter `v`, and bytes put there (R380); the count bounds the recursion. -/
def State.frtRead (s : State) (x : Frt) (v : Nat) : Nat → List Byte × State
  | 0 => ([], s)
  | n + 1 =>
    let b := s.readOrLost (x.buf + v % x.cap) 1
    let r := b.2.frtRead x (v + 1) n
    (b.1 ++ r.1, r.2)
def State.frtWrite (s : State) (x : Frt) (v : Nat) : List Byte → State
  | [] => s
  | b :: bs => (s.write (x.buf + v % x.cap) [b]).frtWrite x (v + 1) bs

/-- CRC-8 of a frame header (Table BND-5): polynomial x^8 + x^2 + x + 1, initial value 0. -/
def crc8 (bs : List Byte) : Nat :=
  bs.foldl (fun c b => (List.range 8).foldl (fun c _ => if c < 128 then 2 * c else (2 * c) % 256 ^^^ 7) (c ^^^ b.toNat)) 0

/-- A frame (Table BND-5). -/
def frtFrame (t : Nat) (x : Frt) (ais : Bool) (ptr adj njo : Nat) (payload : List Byte) : List Byte :=
  let h := leBytes 1 (t + (if x.slip then 16 else 0) + (if ais then 32 else 0)) ++ leBytes 1 x.seq ++
    leBytes 2 (ptr + adj * 2 ^ 13) ++ leBytes 1 njo ++ leBytes 2 x.n
  h ++ leBytes 1 (crc8 h) ++ payload

/-- Whether alarms of a tributary are suppressed (R387): a defect is reported on its port, or on every member. -/
def State.frtQuiet (s : State) (x : Frt) : Bool :=
  let rep (p : Nat) := s.rg R.PON_DEF_REPORTED p != 0
  if x.port = 2 then [0, 1].all (fun p => !s.isMember p || rep p) else rep x.port

/-- An alarm declared or cleared (R387). -/
def State.frtAlarm (s : State) (t k : Nat) (on : Bool) : State :=
  if s.rgBit R.FRT_STAT_ALARM k t = on || (on && s.frtQuiet (s.frt t)) then s
  else ((s.putRgBit R.FRT_STAT_ALARM k on t).ev (if on then .FRT_ALARM else .FRT_CLEAR) t [t, k]).ponIrq

/-- An alarm judged by its runs: `a` in a row declare it, `b` in a row clear it. -/
def State.frtJudge (s : State) (t k run clearRun a b : Nat) : State :=
  let s := if a ≤ run then s.frtAlarm t k true else s
  if b ≤ clearRun then s.frtAlarm t k false else s

/-! ## Sending -/

/-- A frame generated by rule of R384 or R386: the frame, the fields it changes and the memory it writes. -/
def State.frtMake (s : State) (t : Nat) : List Byte × State :=
  let x := s.frt t
  let wr := s.frtWr x
  let exceeds := !x.slip && decide (x.cap < (wr + 2 ^ 64 - s.frtRd x) % 2 ^ 64)
  let rd := if exceeds then (wr + 2 ^ 64 - x.n - x.centre) % 2 ^ 64 else s.frtRd x
  let x := if exceeds then { x with ptr := (x.n - rd % x.n) % x.n } else x
  let s := if exceeds then s.incRg R.FRT_ERR_OVERRUN t else s
  let f := (wr + 2 ^ 64 - rd) % 2 ^ 64
  let n := x.n
  let next (s : State) (rd ptr : Nat) (prev : List Byte) (under : Bool) : State :=
    let s := if rd = s.frtRd x then s else s.setRd x rd
    s.modFrt t (fun y => { y with
      seq := (y.seq + 1) % 256, ptr := ptr, prev := prev
      underRun := if under then y.underRun + 1 else 0, fullRun := if under then 0 else y.fullRun + 1 })
  if x.slip then
    let drop := decide (x.centre + 2 * n ≤ f)
    let rd := if drop then (rd + n) % 2 ^ 64 else rd
    let f := if drop then f - n else f
    let s := if drop then s.incRg R.FRT_SLIP_SLIP_DROP t else s
    if f < n then
      let b := if x.prev.length = n then (x.prev, s) else s.lostBytes n
      (frtFrame t x false 0 0 0 b.1, (next b.2 rd 0 b.1 false).incRg R.FRT_SLIP_SLIP_REPEAT t)
    else
      let b := s.frtRead x rd n
      (frtFrame t x false 0 0 0 b.1, next b.2 ((rd + n) % 2 ^ 64) 0 b.1 false)
  else
    let d : Int := (f : Int) - n - x.centre
    if f < n - 1 then
      let b := List.replicate n (0xFF : Byte)
      (frtFrame t x true x.ptr 0 0 b, next s rd x.ptr x.prev true)
    else if d > (x.thresh : Int) then
      let b := s.frtRead x rd (n + 1)
      let ptr := (x.ptr + n - 1) % n
      (frtFrame t x false ptr 2 ((b.1.headD 0).toNat) (b.1.drop 1),
        (next b.2 ((rd + n + 1) % 2 ^ 64) ptr x.prev false).incRg R.FRT_ADJ_NJ t)
    else if d < -(x.thresh : Int) then
      let b := s.frtRead x rd (n - 1)
      let ptr := (x.ptr + 1) % n
      (frtFrame t x false ptr 1 0 (0 :: b.1), (next b.2 ((rd + n - 1) % 2 ^ 64) ptr x.prev false).incRg R.FRT_ADJ_PJ t)
    else
      let b := s.frtRead x rd n
      (frtFrame t x false x.ptr 0 0 b.1, next b.2 ((rd + n) % 2 ^ 64) x.ptr x.prev false)

/-- FRT_FRAME_GENERATE (R381): an upstream tributary generates one frame at a frame boundary; at most 16 wait. -/
def execFrtFrameGenerate (t : Fin 16) (s : State) : Host.Outcome State Fault Refusal :=
  if s.flag R.FRT_STAT_EN t && (s.frt t).up then
    let m := s.frtMake t
    let s := m.2.modFrt t (fun x => { x with waiting := x.waiting ++ [m.1] })
    let s := if 16 < (s.frt t).waiting.length then
        (s.modFrt t (fun x => { x with waiting := x.waiting.drop 1 })).incRg R.FRT_ERR_OVERRUN t
      else s
    let s := s.incRg R.FRT_STAT_FRAMES t
    let x := s.frt t
    .next (if x.slip then s else s.frtJudge t 2 x.underRun x.fullRun 8 8)
  else .next s

/-! ## Receiving -/

/-- Room left in the buffer. -/
def State.frtRoom (s : State) (x : Frt) : Nat := x.cap - (s.frtWr x + 2 ^ 64 - s.frtRd x) % 2 ^ 64

/-- Bytes written by the device as producer; WR then advances (R385). -/
def State.frtPut (s : State) (t : Nat) (bs : List Byte) : State :=
  let x := s.frt t
  let wr := s.frtWr x
  (s.frtWrite x wr bs).setWr x ((wr + bs.length) % 2 ^ 64)

/-- The payload of a valid frame in pointer mode (R383, R385). -/
def State.frtPointer (s : State) (t : Nat) (sdu : List Byte) : State :=
  let x := s.frt t
  let ptr := recF sdu 2 0 13
  let adj := recF sdu 2 13 2
  let payload := sdu.drop 8
  let expect := (match adj with | 1 => x.ptr + 1 | 2 => x.ptr + x.n - 1 | _ => x.ptr) % x.n
  let data := match adj with | 1 => payload.drop 1 | 2 => slice sdu 4 1 ++ payload | _ => payload
  let off := match adj with | 1 => ptr + x.n - 1 | 2 => ptr + 1 | _ => ptr
  let bad := x.lastSeq.isSome && ptr != expect
  let s := if bad then s.incRg R.FRT_ERR_PTR_ERR t else s
  let fill := if bad || x.lastSeq.isNone then (x.n - (s.frtWr x + off) % x.n) % x.n else 0
  let s := match adj with | 1 => s.incRg R.FRT_ADJ_PJ t | 2 => s.incRg R.FRT_ADJ_NJ t | _ => s
  if s.frtRoom x < data.length + fill then s.incRg R.FRT_ERR_OVERRUN t
  else s.frtPut t (List.replicate fill 0xFF ++ data)

/-- The payload of a valid frame in slip mode (R386). -/
def State.frtSlip (s : State) (t : Nat) (payload : List Byte) : State :=
  let x := s.frt t
  let fillNow := (s.frtWr x + 2 ^ 64 - s.frtRd x) % 2 ^ 64
  if x.centre + 2 * x.n ≤ fillNow then s.incRg R.FRT_SLIP_SLIP_DROP t
  else
    let s := (s.frtPut t payload).modFrt t (fun x => { x with prev := payload })
    if fillNow < x.n then (s.frtPut t payload).incRg R.FRT_SLIP_SLIP_REPEAT t else s

/-- The tributary that an entry of a port feeds. -/
def State.frtOf (s : State) (p e : Nat) : Option Nat :=
  (List.range 16).find? (fun t =>
    let x := s.frt t
    s.flag R.FRT_STAT_EN t && !x.up && x.entry == e && (x.port == p || x.port == 2))

/-- FRT_FRAME_RECEIVE (R385): a frame arrives on an entry of a port. -/
def execFrtFrameReceive (p : Fin 2) (e : Fin 256) (sdu : List Byte) (s : State) : Host.Outcome State Fault Refusal :=
  match s.frtOf p e with
  | none => .next s
  | some t =>
    let x := s.frt t
    let ok := crc8 (sdu.take 7) == rec8 sdu 7 && recF sdu 5 0 14 == x.n && sdu.length == 8 + x.n && recF sdu 0 0 4 == t &&
      (recF sdu 0 4 1 == 1) == x.slip
    if !ok then .next ((s.incRg R.FRT_ERR_LOST t).modFrt t (fun y => { y with bad := y.bad + 1 }))
    else
      let seq := rec8 sdu 1
      if x.port = 2 && x.lastSeq = some seq then .next (s.incRg R.BND_SEQ_LATE)
      else
        -- a frame that arrived and was discarded has been counted
        let missing := match x.lastSeq with | some l => (seq + 256 + 255 - l) % 256 - x.bad | none => 0
        let ais := recF sdu 0 5 1 == 1
        let s := (s.incRg R.FRT_ERR_LOST t 0 missing).incRg R.FRT_STAT_FRAMES t
        let s := if ais then s else if x.slip then s.frtSlip t (sdu.drop 8) else s.frtPointer t sdu
        let s := s.modFrt t (fun y => { y with
          lastSeq := some seq, ptr := recF sdu 2 0 13, got := true, bad := 0
          aisRun := if ais then y.aisRun + 1 else 0, dataRun := if ais then 0 else y.dataRun + 1 })
        let y := s.frt t
        .next (s.frtJudge t 1 y.aisRun y.dataRun 3 3)

/-! ## The frame boundary -/

/-- Whether a port's frame boundary is that of a tributary (R381). -/
def State.frtClock (s : State) (x : Frt) (p : Nat) : Bool :=
  if x.port = 2 then p == (if s.isMember 0 then 0 else 1) else x.port == p

/-- A frame boundary of a port: an EN that waited takes effect (Table BND-3), a downstream tributary with no valid frame repeats in slip
mode, and LOSS is judged. -/
def State.frtBoundary (s : State) (p : Nat) : State :=
  (List.range 16).foldl (fun s t =>
    let x := s.frt t
    if !s.frtClock x p then s
    else
      let s := match x.pendEn with
        | some true =>
          if s.flag R.FRT_STAT_EN t then s.modFrt t (fun y => { y with pendEn := none })
          else (s.setRg R.FRT_STAT_EN 1 t).modFrt t (fun y => { y with
            pendEn := none, seq := 0, ptr := 0, lastSeq := none, prev := [], waiting := [], got := true, bad := 0, missRun := 0, goodRun := 0
            aisRun := 0, dataRun := 0, underRun := 0, fullRun := 0 })
        | some false =>
          let s := (s.setRg R.FRT_STAT_EN 0 t).modFrt t (fun y => { y with pendEn := none, waiting := [] })
          (List.range 3).foldl (fun s k => s.frtAlarm t k false) s
        | none => s
      if s.flag R.FRT_STAT_EN t && !x.up then
        if (s.frt t).got then
          let s := s.modFrt t (fun y => { y with got := false, missRun := 0, goodRun := y.goodRun + 1 })
          s.frtJudge t 0 0 (s.frt t).goodRun 8 8
        else
          let y := s.frt t
          let s := if y.slip && y.prev.length == y.n && decide (y.n ≤ s.frtRoom y) then
              (s.frtPut t y.prev).incRg R.FRT_SLIP_SLIP_REPEAT t
            else s
          let s := s.modFrt t (fun y => { y with missRun := y.missRun + 1, goodRun := 0 })
          s.frtJudge t 0 (s.frt t).missRun 0 8 8
      else s) s

end Sys2Proof.Machine
end

