-- ==== Sys2Proof/Machine/Pon.lean ====
section
/-! DEFINITION. The downstream side of a PON port (R316 to R324, R341, R351, R372 to R378): frames, synchronisation, XGEM frames, and the
bonded group at frame boundaries. -/

namespace Sys2Proof.Machine

/-! ## Keys (R319, R419, R421) -/

/-- A key of a page's slot. -/
def State.slotKey (s : State) (u slot : Nat) : Option (List Nat) :=
  (s.cipher.keys.find? (fun k => k.1 == 16 * u + slot)).map (·.2)

/-- The key that an index of an XGEM header names: the unicast key, or the broadcast key of the port's slots (Table CIP-3). -/
def State.xgemKey (s : State) (p : Nat) (bcast : Bool) (i : Nat) : Option (List Nat) :=
  if i = 0 || 2 < i then none
  else if bcast then s.slotKey 0 (9 + 4 * p + i)
  else ((s.port p).uni.find? (fun k => k.1 == i)).map (fun k => natBlock k.2)

/-- The port's PLOAM integrity key slot and key-encryption slot. -/
def kekSlot (p : Nat) : Nat := 9 + 4 * p

/-! ## SDUs (R320) -/

def State.openSdu (s : State) (p e : Nat) : Option OpenSdu := (s.port p).sdus.find? (fun o => o.entry == e)

def State.setSdu (s : State) (p e : Nat) (o : Option OpenSdu) : State :=
  s.modPort p (fun x => { x with sdus := x.sdus.filter (fun y => y.entry != e) ++ o.toList })

/-- An SDU given up, with its buffer; `f` counts it. -/
def State.dropSdu (s : State) (p : Nat) (o : OpenSdu) (f : Fld) : State :=
  (if o.handle = 0 then s else (s.pfree (portOwner p) o.handle).st).incRg f p

/-- A fragment of entry `e` (R320): the first opens an SDU, the one with LF ends it. The rest of an SDU that is given up is passed over;
`data` empty with `skip` says that it has been counted. -/
def State.fragment (s : State) (p e : Nat) (d : List Byte) (lf : Bool) : State :=
  let x := (s.port p).entry e
  let held := s.holdsOmci p e
  let plain := (x.kind == 0 || x.kind == 1) && !s.bonded p e && !held
  let rest (s : State) (o : OpenSdu) : State :=
    s.setSdu p e (if lf then none else some { o with handle := 0, data := [], skip := true })
  match s.openSdu p e with
  | some o =>
    if o.skip then rest (if o.data.isEmpty then s else s.dropSdu p o R.PON_DROP_REASM_DROP) o
    else
      let o := { o with data := o.data ++ d }
      if plain && decide (2 ^ (s.pclass x.cls).size < o.data.length) then rest (s.dropSdu p o R.PON_DROP_OVERSIZE) o
      else if !lf then s.setSdu p e (some o)
      else
        let s := s.setSdu p e none
        if plain then
          match s.handleMem o.handle with
          | some m => (s.write m.1 o.data).ponSdu p e o.handle o.data.length
          | none => s
        else if held then s.holdOmci p o.data
        else if s.bonded p e then s.bondArrive p e o.data
        else s.passSdu p e o.data
  | none =>
    let a := if plain then s.alloc (portOwner p) x.cls else ⟨Sc.ok, 0, s⟩
    let s := a.st
    let o : OpenSdu := ⟨e, a.val, d, false⟩
    if a.status ≠ Sc.ok then rest (s.incRg R.PON_DROP_REASM_DROP p) o
    else if plain && decide (2 ^ (s.pclass x.cls).size < d.length) then rest (s.dropSdu p o R.PON_DROP_OVERSIZE) o
    else if !lf then s.setSdu p e (some o)
    else if plain then
      match s.handleMem a.val with
      | some m => (s.write m.1 d).ponSdu p e a.val d.length
      | none => s
    else if held then s.holdOmci p d
    else if s.bonded p e then s.bondArrive p e d
    else s.passSdu p e d

/-- A frame of an entry is lost: what is open on it is given up at its next fragment, or now when the frame would have ended it. -/
def State.fragLost (s : State) (p e : Nat) (lf : Bool) : State :=
  match s.openSdu p e with
  | some o =>
    if lf then (if o.skip && o.data.isEmpty then s else s.dropSdu p o R.PON_DROP_REASM_DROP).setSdu p e none
    else s.setSdu p e (some { o with skip := true })
  | none => if lf then s else s.setSdu p e (some ⟨e, 0, [0], true⟩)

/-- XGEM_FRAME (R318, R319, R320): a frame of port `p`, its header correctable or not, idle or not, with its XGEM port ID, key index, LF,
initial counter block (built by the recommendation from the superframe counter and the frame's position) and payload. Frames of
KIND 4 entries are the event FRT_FRAME_RECEIVE. -/
def execXgemFrame (p : Fin 2) (hdrOk idle : Bool) (portId : Fin 65536) (key : Fin 4) (lf : Bool) (icb : List Nat)
    (payload : List Byte) (s : State) : Host.Outcome State Fault Refusal :=
  let x := s.port p
  if !x.enabled || !s.flag R.PON_STAT_SYNC p || x.frozen then .next s
  else if !hdrOk then
    .next ((s.modPort p (fun x => { x with sdus := x.sdus.map (fun o => { o with skip := true }) })).incRg R.PON_FRAME_HEC_LOSS p)
  else if idle then .next s
  else match x.findEntry false portId with
    | none => .next (s.incRg R.PON_FRAME_UNKNOWN_PORT p)
    | some (e, en) =>
      if key.val = 0 then
        if en.encReq then .next ((s.incRg R.PON_KEY_ENC_REQ p).fragLost p e lf) else .next (s.fragment p e payload lf)
      else match s.xgemKey p en.bcast key with
        | none => .next (((s.incRg R.PON_KEY_KEY_MISS p).modPort p (fun x => { x with keyMiss := true })).fragLost p e lf)
        | some k =>
          let d := (ctrMode (roundKeys k) 128 icb (payload.map (·.toNat))).map (BitVec.ofNat 8)
          .next (s.fragment p e d lf)

/-- PON_BLOCK_TIMEOUT (R324): an open block is incomplete 2 ms after its first segment. -/
def execPonBlockTimeout (p : Fin 2) (e : Fin 256) (s : State) : Host.Outcome State Fault Refusal :=
  match s.openBlock p e with
  | some b => .next ((s.since b.since 2000000).dropBlock p e R.PON_BLOCK_BLOCK_DROP)
  | none => .next s

/-! ## The bonded group (R372 to R378) -/

/-- |S| is within the limit of 40 µs. -/
def State.skewOk (s : State) : Bool := decide (s.skewNs.natAbs ≤ 40000)

/-- What a frame boundary does to the group: an enable or disable that waited, members to readmit, the end of FORMING (Table BND-2). -/
def State.bondBoundary (s : State) : State :=
  let s := match s.bond.pendEn with
    | some true =>
      if s.bndState != 0 then { s with bond := { s.bond with pendEn := none } }
      else
        let s := { s with bond := { s.bond with
          pendEn := none, readmit := [], skews := [], count := 0, down := [], upSeq := [] } }
        ((s.setRg R.BND_STAT_STATE 1).setRg R.BND_STAT_MEM_A 1).setRg R.BND_STAT_MEM_B 1
    | some false =>
      let s := { s with bond := { s.bond with pendEn := none, readmit := [], skews := [], count := 0, down := [], upSeq := [] } }
      ((s.setRg R.BND_STAT_STATE 0).setRg R.BND_STAT_MEM_A 0).setRg R.BND_STAT_MEM_B 0
    | none => s
  let s := s.bond.readmit.foldl (fun s p =>
    let s := s.setRg (if p = 0 then R.BND_STAT_MEM_A else R.BND_STAT_MEM_B) 1
    ((s.setRg R.BND_STAT_STATE (if s.isMember 0 && s.isMember 1 then 2 else 3)).ev .BND_RESTORED).ponIrq) s
  let s : State := { s with bond := { s.bond with readmit := [] } }
  if s.bndState = 1 && decide (64 ≤ s.bond.count) && s.inO5 0 && s.inO5 1 && s.skewOk then
    ({ s with bond := { s.bond with down := [] } }).setRg R.BND_STAT_STATE 2
  else s

/-- A superframe count latched on both members gives one measurement of the skew (R372); past the limit the lagging member is excluded. -/
def State.bondMeasure (s : State) (n : Nat) : State :=
  if s.bndState = 0 then s
  else
    let at_ (q : Nat) := ((s.port q).latches.find? (fun l => l.1 == n)).map (·.2)
    match at_ 0, at_ 1 with
    | some a, some b =>
      let sk : List Int := s.bond.skews ++ [(b : Int) - (a : Int)]
      let s : State := { s with bond := { s.bond with skews := sk.drop (sk.length - 64), count := s.bond.count + 1 } }
      let s := s.setRg R.BND_STAT_SKEW (satBits (s.skewNs / 10) 16)
      let lag := if s.skewNs < 0 then 0 else 1
      if !s.skewOk && s.isMember lag && (s.bndState = 2 || (s.bndState = 1 && decide (64 ≤ s.bond.count))) then
        (s.memberLost lag).incRg R.BND_EVT_SKEW_OOR
      else s
    | _, _ => s

/-- BOND_GAP_TIMEOUT (R373): |S| + GAP_WAIT after a later SDU of a PORT_ID arrived, its expected SEQ is still missing. -/
def execBondGapTimeout (portId : Fin 65536) (s : State) : Host.Outcome State Fault Refusal :=
  let b := s.bondPort portId
  match b.expect with
  | some ex => match b.nearest ex with
    | some h =>
      let first := b.held.foldl (fun m k => min m k.at_) h.at_
      .next ((s.since first (s.skewNs.natAbs + s.bond.gapWait * 1000)).bondAdvance portId h.seq)
    | none => .next s
  | none => .next s

/-- BOND_MEMBER_REJOIN (R378): a lost member has been in O5 with no defect declared for 100 ms, 64 further counts have been measured and
|S| is within the limit; it is readmitted at the next frame. -/
def execBondMemberRejoin (p : Fin 2) (s : State) : Host.Outcome State Fault Refusal :=
  match vget s.bond.clearAt p with
  | some t =>
    if (s.bndState = 3 || s.bndState = 4) && !s.isMember p && s.inO5 p && decide (64 ≤ s.bond.count) && s.skewOk &&
        !s.bond.readmit.contains p.val then
      let s := s.since t 100000000
      .next { s with bond := { s.bond with readmit := s.bond.readmit ++ [p.val] } }
    else .next s
  | none => .next s

/-! ## Frames -/

/-- An entry of the XGEM table changed (R512): what was open on a downstream entry is discarded, and upstream blocks that can no longer
be sent go back (R327). The entry is no longer firmware's; entry 0 with a configured class while ring 1 is ACTIVE takes what firmware held
(R649). -/
def State.setXgem (s : State) (p e : Nat) (x : XgemEntry) : State :=
  let old := (s.port p).entry e
  let s := if old = x && !(s.port p).holding then s
    else
      let s := match s.openSdu p e with
        | some o => (s.dropSdu p o R.PON_DROP_REASM_DROP).setSdu p e none
        | none => s
      s.dropBlock p e R.PON_BLOCK_BLOCK_DROP
  let s := if old.up && old.kind == 3 && !(x.valid && x.up && x.kind == 3) then s.returnItems p (fun i => i.entry == e) else s
  let s := s.modPort p (fun q => { q with xgem := Store.put {} q.xgem e x, auto := q.auto.filter (· != e) })
  if e = 0 && (s.port p).holding && (s.pclass x.cls).conf && (s.ring 1).st == .active then
    let held := (s.port p).omciHeld
    held.foldl (fun s d => s.ponDeliver p 0 d) (s.modPort p (fun q => { q with holding := false, omciHeld := [] }))
  else s

/-- What takes effect at a port's frame boundary (Tables PON-8, BND-3, CMO-5): XGEM entries with their commands, power-saving fields, EqD,
and the group's and tributaries' enables. -/
def State.ponBoundary (s : State) (p : Nat) : State :=
  let pend := (s.port p).xgemPend
  let s := s.modPort p (fun x => { x with xgemPend := [], pmRec := x.rec_ })
  let s := pend.foldl (fun s (x : Nat × XgemEntry × Nat × Nat) =>
    (s.setXgem p x.1 x.2.1).complete x.2.2.1 x.2.2.2 Sc.ok) s
  let s := match (s.port p).eqdPend with
    | some v => (s.setRg R.PON_EQD_EQD v p).modPort p (fun x => { x with eqdPend := none })
    | none => s
  (s.bondBoundary).frtBoundary p

/-- PON_DOWNSTREAM_FRAME (R317, R341): a frame with its superframe count; codewords of the frame that the port decodes, the bits that an XGS
port corrected and the codewords it could not correct; and the PLOAM messages in it whose MIC failed (R338). In 50G mode the
codewords wait for the Hurdle decoders. -/
def execPonDownstreamFrame (p : Fin 2) (superframe : Nat) (cws corr unc micFail : Nat) (s : State) :
    Host.Outcome State Fault Refusal :=
  let x := s.port p
  if !x.enabled || !s.flag R.PON_STAT_SYNC p || x.frozen then .next s
  else
    let n := superframe % 2 ^ 51
    let ok := match x.sf with | some v => n == (v + 1) % 2 ^ 51 | none => true
    let lat := x.latches ++ [(n, s.tk.ns)]
    let miss := s.inO5 p && x.keyMiss
    let s := s.modPort p (fun x => { x with latches := lat.drop (lat.length - 16), sf := some n, keyMiss := false })
    let s := if x.mode = 1 then s.modPort p (fun x => { x with wait := x.wait + cws })
      else ((s.incRg R.PON_FEC_CW_CW p 0 cws).incRg R.PON_FEC_CORR_CORR p 0 corr).incRg R.PON_FEC_UNC_UNC p 0 unc
    let s := (s.defFrame p 4 (!ok) 3).defFrame p 5 miss 8
    let s := (List.range micFail).foldl (fun s _ => (s.incRg R.PON_PLOAM_MIC_FAIL p).ev .PON_MIC p) s
    let calm := s.inO5 p && s.rg R.PON_DEF_DECLARED p == 0
    let was := vget s.bond.clearAt p
    let s := { s with bond := { s.bond with
      clearAt := vset s.bond.clearAt p (if calm then some (was.getD s.tk.localNs) else none) } }
    .next ((s.ponBoundary p).bondMeasure n)

/-! ## Synchronisation (R316, Table PON-5) -/

/-- Downstream synchronisation is reached: LOFS ends, O6 returns to O5 before TO2, and O1 may be left. -/
def State.syncUp (s : State) (p : Nat) : State :=
  if (s.port p).enabled then
    let s := (s.setRg R.PON_STAT_SYNC 1 p).modPort p (fun x => { x with sf := none })
    let s := s.defCond p 3 false
    let s := if s.rg R.PON_STAT_OSTATE p = 6 then ((s.modPort p (fun x => { x with to2 := 0 })).setO p 5).defUpdate p else s
    s.leaveO1 p
  else s

/-- PON_SYNC_ACQUIRED and PON_SYNC_REGAINED. -/
def execPonSyncAcquired (p : Fin 2) (s : State) : Host.Outcome State Fault Refusal := .next (s.syncUp p)
def execPonSyncRegained (p : Fin 2) (s : State) : Host.Outcome State Fault Refusal := .next (s.syncUp p)

/-- PON_SYNC_LOSS: LOFS is declared at once, and O5 goes to O6 with TO2 running and the laser off (R353). -/
def execPonSyncLoss (p : Fin 2) (s : State) : Host.Outcome State Fault Refusal :=
  if s.flag R.PON_STAT_SYNC p then
    let s := (s.setRg R.PON_STAT_SYNC 0 p).defCond p 3 true
    .next (if s.inO5 p then
      (s.modPort p (fun x => { x with to2 := s.tk.localNs + x.to2Ms * 1000000 })).setO p 6 else s)
  else .next s

/-- PON_TO2_EXPIRY: in O6, activation data is cleared. -/
def execPonTo2Expiry (p : Fin 2) (s : State) : Host.Outcome State Fault Refusal :=
  if s.rg R.PON_STAT_OSTATE p = 6 then
    let s := s.since (s.port p).to2 0
    .next (((s.clearActivation p).modPort p (fun x => { x with to2 := 0 })).setO p 1)
  else .next s

/-- PON_TO1_EXPIRY: in O2-3 or O4 with TO1 running, the ONU-ID is cleared. -/
def execPonTo1Expiry (p : Fin 2) (s : State) : Host.Outcome State Fault Refusal :=
  let o := s.rg R.PON_STAT_OSTATE p
  if (o = 2 || o = 4) && (s.port p).to1 != 0 then
    let s := s.since (s.port p).to1 0
    let s := (s.setRg R.PON_STAT_ONU_ID 0 p).modPort p (fun x => { x with to1 := 0, allocs := Store.put 0 x.allocs 0 0 })
    .next (s.setO p 1)
  else .next s

/-! ## Power saving (Table PON-7) -/

/-- Whether power saving runs on a port: PM_EN, and not a member of the group (R369), in O5. -/
def State.psOn (s : State) (p : Nat) : Bool := (s.port p).pmEn && !s.isMember p && s.inO5 p

/-- Whether nothing forbids low power (R342): no carrier active, no tributary configured on the port, nothing queued upstream. -/
def State.psCalm (s : State) (p : Nat) : Bool :=
  !s.anyCarrier && (s.port p).items.isEmpty &&
    (List.range 16).all (fun t => !(s.flag R.FRT_STAT_EN t && ((s.frt t).port == p || (s.frt t).port == 2)))

/-- PON_SLEEP_REQUEST: the entry conditions hold in ACTIVE_FREE after Thold. -/
def execPonSleepRequest (p : Fin 2) (s : State) : Host.Outcome State Fault Refusal :=
  let x := s.port p
  if s.rg R.PON_STAT_PM p = 1 && s.psOn p && s.psCalm p && x.sleepQ.isNone && x.bursts.all (fun b => b.sleep.isNone) then
    let s := s.since x.pmFrom (rec16 x.pmRec 16 * 1000000)
    .next (s.modPort p (fun x => { x with sleepQ := some (if x.watchful then 2 else 1) }))
  else .next s

/-- PON_TLOWPOWER_EXPIRY: LOW to AWARE; in watchful sleep the receiver is on again and frozen defects count afresh. -/
def execPonTlowpowerExpiry (p : Fin 2) (s : State) : Host.Outcome State Fault Refusal :=
  let x := s.port p
  if s.rg R.PON_STAT_PM p = 2 then
    let s := (s.since x.pmFrom (x.lowPowerMs * 1000000)).setRg R.PON_STAT_PM 3 p
    .next (s.modPort p (fun x => { x with
      pmFrom := s.tk.localNs, frozen := false
      defects := if x.frozen then x.defects.map (fun d => { d with since := s.tk.localNs, count := 0 }) else x.defects }))
  else .next s

/-- PON_TAWARE_EXPIRY: AWARE to LOW; in watchful sleep the receiver goes off and defects freeze. -/
def execPonTawareExpiry (p : Fin 2) (s : State) : Host.Outcome State Fault Refusal :=
  let x := s.port p
  if s.rg R.PON_STAT_PM p = 3 then
    let s := (s.since x.pmFrom (x.awareMs * 1000000)).setRg R.PON_STAT_PM 2 p
    .next (s.modPort p (fun x => { x with pmFrom := s.tk.localNs, frozen := x.watchful }))
  else .next s

/-- A stimulus, and the laser on again. -/
def State.ponWake (s : State) (p : Nat) : State := s.ponStimulus p

/-- PON_WAKE_STIMULUS (R343). -/
def execPonWakeStimulus (p : Fin 2) (s : State) : Host.Outcome State Fault Refusal := .next (s.ponWake p)

end Sys2Proof.Machine
end

