-- ==== Sys2Proof/Machine/Ploam.lean ====
section
/-! DEFINITION. Activation and PLOAM (R331 to R339, R342, R398): grants of activation, and what firmware does with each downstream
PLOAM message. An upstream PLOAM is a list of numbers: its kind in the model's own numbering (notes/assumptions/22.md), then its
contents. -/

namespace Sys2Proof.Machine

/-! Kinds of upstream PLOAM. -/
def upSerial : Nat := 1
def upRegistration : Nat := 2
def upKeyReport : Nat := 5
def upAck : Nat := 9
def upSleep : Nat := 16
def upPower : Nat := 17
def upGasp : Nat := 18

/-- An upstream PLOAM queued; whether the installed integrity key or the default key makes its MIC (R338) stands last. -/
def State.queuePloam (s : State) (p : Nat) (m : List Nat) : State :=
  s.modPort p (fun x => { x with ploamQ := x.ploamQ ++ [m ++ [if (s.slotKey 0 (8 + 4 * p)).isSome then 1 else 0]] })

/-- The Registration message: the registration ID of the record (R333). -/
def State.registration (s : State) (p : Nat) : List Nat := upRegistration :: (slice (s.port p).rec_ 32 36).map (·.toNat)

/-- A downstream PLOAM of an enabled port: copied to the host, then handled (R337). During a Marshal watchdog restart up to 32 are held and
handled afterwards; beyond, the oldest are dropped and counted. -/
def State.ploam (s : State) (p : Nat) (self : Instr) (msg : List Byte) (f : State → State) : State :=
  if !(s.port p).enabled then s
  else if s.warm then
    let exceeds := decide (32 ≤ (s.port p).held.length)
    let s := s.modPort p (fun x => { x with held := (if exceeds then x.held.drop 1 else x.held) ++ [self] })
    if exceeds then s.incRg R.PON_PLOAM_PLOAM_UNSUP p else s
  else f (s.copyPloam p msg)

/-- Whether a port has an ONU-ID: O4, O5 or O6. -/
def State.hasOnu (s : State) (p : Nat) : Bool :=
  let o := s.rg R.PON_STAT_OSTATE p
  o == 4 || o == 5 || o == 6

/-- PLOAM_BURST_PROFILE (R331): the profile is stored by index; O1 may be left. -/
def execPloamBurstProfile (p : Fin 2) (index : Fin 4) (profile : List Byte) (msg : List Byte) (s : State) :
    Host.Outcome State Fault Refusal :=
  .next (s.ploam p (.ploamBurstProfile p index profile msg) msg (fun s =>
    (s.modPort p (fun x => { x with profiles := x.profiles.filter (fun q => q.1 != index.val) ++ [(index.val, profile)] })).leaveO1 p))

/-- PLOAM_ASSIGN_ONU_ID: for this serial number in O2-3 (Table PON-5); firmware's own entries take it as PORT_ID (R649). -/
def execPloamAssignOnuId (p : Fin 2) (onu : Fin 1024) (serial : List Byte) (msg : List Byte) (s : State) :
    Host.Outcome State Fault Refusal :=
  .next (s.ploam p (.ploamAssignOnuId p onu serial msg) msg (fun s =>
    let x := s.port p
    if s.rg R.PON_STAT_OSTATE p = 2 && serial == slice x.rec_ 24 8 then
      ((s.setRg R.PON_STAT_ONU_ID onu p).modPort p (fun x => { x with
        xgem := x.auto.foldl (fun t e => Store.put {} t e { x.entry e with portId := onu }) x.xgem
        to1 := s.tk.localNs + x.to1Ms * 1000000, allocs := Store.put 0 x.allocs 0 (onu.val + 1) })).setO p 4
    else s))

/-- PLOAM_RANGING_TIME (R332): EqD is recorded, and applies from the next BWmap; O4 goes to O5. -/
def execPloamRangingTime (p : Fin 2) (eqd : BitVec 32) (msg : List Byte) (s : State) : Host.Outcome State Fault Refusal :=
  .next (s.ploam p (.ploamRangingTime p eqd msg) msg (fun s =>
    let o := s.rg R.PON_STAT_OSTATE p
    if o = 4 || o = 5 then
      let s := s.modPort p (fun x => { x with eqdPend := some eqd.toNat })
      if o = 4 then ((s.modPort p (fun x => { x with to1 := 0 })).setO p 5).defUpdate p else s
    else s))

/-- PLOAM_DEACTIVATE_ONU_ID: addressed to this ONU-ID or, with 1,023, broadcast. -/
def execPloamDeactivateOnuId (p : Fin 2) (onu : Fin 1024) (msg : List Byte) (s : State) : Host.Outcome State Fault Refusal :=
  .next (s.ploam p (.ploamDeactivateOnuId p onu msg) msg (fun s =>
    let o := s.rg R.PON_STAT_OSTATE p
    let mine := onu.val == 1023 || (s.hasOnu p && onu.val == s.rg R.PON_STAT_ONU_ID p)
    if 2 ≤ o && o ≤ 6 && mine then ((s.clearActivation p).modPort p (fun x => { x with to1 := 0, to2 := 0 })).setO p 1 else s))

/-- PLOAM_DISABLE_SERIAL_NUMBER: this serial number, or broadcast where none is given; the flag is kept in boot flash. -/
def execPloamDisableSerialNumber (p : Fin 2) (disable : Bool) (serial : Option (List Byte)) (msg : List Byte) (s : State) :
    Host.Outcome State Fault Refusal :=
  .next (s.ploam p (.ploamDisableSerialNumber p disable serial msg) msg (fun s =>
    let x := s.port p
    if serial.all (fun n => n == slice x.rec_ 24 8) then
      if disable then
        ((s.modPort p (fun x => { x with disabled := true, to1 := 0, to2 := 0 })).saveFlags.ev .PON_O7 p).setO p 7
      else if s.rg R.PON_STAT_OSTATE p = 7 then ((s.modPort p (fun x => { x with disabled := false })).saveFlags).setO p 1
      else s
    else s))

/-- PLOAM_REQUEST_REGISTRATION: answered with Registration. -/
def execPloamRequestRegistration (p : Fin 2) (msg : List Byte) (s : State) : Host.Outcome State Fault Refusal :=
  .next (s.ploam p (.ploamRequestRegistration p msg) msg (fun s =>
    if s.hasOnu p then s.queuePloam p (s.registration p) else s))

/-- PLOAM_ASSIGN_ALLOC_ID (R328): added at the lowest index not in use, or removed; acknowledged, with a parameter error where 32 are
held already. Alloc-IDs are stored plus 1. -/
def execPloamAssignAllocId (p : Fin 2) (alloc : Fin 65535) (add : Bool) (msg : List Byte) (s : State) :
    Host.Outcome State Fault Refusal :=
  .next (s.ploam p (.ploamAssignAllocId p alloc add msg) msg (fun s =>
    if !s.hasOnu p then s
    else
      let x := s.port p
      let has := (List.range 32).find? (fun i => Store.get 0 x.allocs i == alloc.val + 1)
      let free := (List.range 32).find? (fun i => i != 0 && Store.get 0 x.allocs i == 0)
      let set (s : State) (i v : Nat) : State := s.modPort p (fun x => { x with allocs := Store.put 0 x.allocs i v })
      match add, has, free with
      | true, some _, _ => s.queuePloam p [upAck, 0]
      | true, none, some i => (set s i (alloc.val + 1)).queuePloam p [upAck, 0]
      | true, none, none => s.queuePloam p [upAck, 4]
      | false, some i, _ => (set s i 0).queuePloam p [upAck, 0]
      | false, none, _ => s.queuePloam p [upAck, 4]))

/-- PLOAM_KEY_CONTROL (R339, R421, R422): with no key-encryption key, or no healthy entropy source, the message is counted and logged;
else a new key is drawn (its value is free) and reported encrypted, or with `confirm` the key held is confirmed. `at_` is the
superframe that the head end names for the switch, where it does. -/
def execPloamKeyControl (p : Fin 2) (index : Fin 3) (confirm : Bool) (at_ : Option Nat) (msg : List Byte) (s : State) :
    Host.Outcome State Fault Refusal :=
  .next (s.ploam p (.ploamKeyControl p index confirm at_ msg) msg (fun s =>
    if !s.hasOnu p || index.val = 0 then s
    else match s.slotKey 0 (kekSlot p) with
      | none => (s.incRg R.PON_PLOAM_PLOAM_UNSUP p).ev .CIPH_NOKEK
      | some kek =>
        if !s.cipher.rngOk then (s.incRg R.PON_PLOAM_PLOAM_UNSUP p).ev .CIPH_NOKEK
        else if confirm then
          match s.xgemKey p false index with
          | some k => s.queuePloam p ([upKeyReport, index.val, 1] ++ cmac kek k)
          | none => s.queuePloam p [upKeyReport, index.val, 1]
        else
          let k := s.freeVal 4 (2 ^ 128)
          let s := s.spent.modPort p (fun x => { x with keyNew := some (index.val, k, at_) })
          s.queuePloam p ([upKeyReport, index.val, 0] ++ aesEnc (roundKeys kek) (natBlock k))))

/-- PON_KEY_SWITCH (R339): the drawn key is installed at the superframe that the head end named. -/
def execPonKeySwitch (p : Fin 2) (s : State) : Host.Outcome State Fault Refusal :=
  let x := s.port p
  match x.keyNew with
  | some (i, k, at_) =>
    .next (if at_.all (fun a => x.sf.any (fun n => decide (a ≤ n))) then
      s.modPort p (fun x => { x with keyNew := none, uni := (i, k) :: x.uni.filter (fun q => q.1 != i) }) else s)
  | none => .next s

/-- PLOAM_SLEEP_ALLOW (Table PON-7). -/
def execPloamSleepAllow (p : Fin 2) (on : Bool) (msg : List Byte) (s : State) : Host.Outcome State Fault Refusal :=
  .next (s.ploam p (.ploamSleepAllow p on msg) msg (fun s =>
    let pm := s.rg R.PON_STAT_PM p
    if on then
      if s.psOn p && pm = 0 then (s.setRg R.PON_STAT_PM 1 p).modPort p (fun x => { x with pmFrom := s.tk.localNs }) else s
    else if pm = 1 then s.setRg R.PON_STAT_PM 0 p
    else if pm = 2 || pm = 3 then s.ponWake p
    else s))

/-- The power level asked for is driven while the optic is accepted (R398). -/
def State.driveLevel (s : State) (p : Nat) : State :=
  if s.rg R.OPT_STAT_STATE p = 3 then s.setRg R.OPT_STAT_LEVEL (vget s.optics p).level p else s

/-- PLOAM_CHANGE_POWER_LEVEL (R398): levels 0 to 2 are driven, at the end of a burst in progress, and acknowledged; level 3 is a
parameter error. -/
def execPloamChangePowerLevel (p : Fin 2) (level : Fin 4) (msg : List Byte) (s : State) : Host.Outcome State Fault Refusal :=
  .next (s.ploam p (.ploamChangePowerLevel p level msg) msg (fun s =>
    if !s.hasOnu p then s
    else if level.val = 3 then s.queuePloam p [upAck, 4]
    else
      let s : State := { s with optics := vmod s.optics p (fun o => { o with level := level.val }) }
      if (s.port p).bursts.any (·.started) then s.modPort p (fun x => { x with levelAck := true })
      else (s.driveLevel p).queuePloam p [upAck, 0]))

/-- PLOAM_POWER_CONSUMPTION_INQUIRE: answered from the power telemetry. -/
def execPloamPowerConsumptionInquire (p : Fin 2) (msg : List Byte) (s : State) : Host.Outcome State Fault Refusal :=
  .next (s.ploam p (.ploamPowerConsumptionInquire p msg) msg (fun s =>
    if s.hasOnu p then s.queuePloam p [upPower, s.pacer.powerMw] else s))

/-- PLOAM_UNSUPPORTED: copied to the host and counted. -/
def execPloamUnsupported (p : Fin 2) (msg : List Byte) (s : State) : Host.Outcome State Fault Refusal :=
  .next (s.ploam p (.ploamUnsupported p msg) msg (fun s => s.incRg R.PON_PLOAM_PLOAM_UNSUP p))

/-! ## Grants of activation -/

/-- SN_GRANT: in O2-3 a serial-number grant schedules the answer after the recommendation's random delay. -/
def execSnGrant (p : Fin 2) (s : State) : Host.Outcome State Fault Refusal :=
  .next (if s.rg R.PON_STAT_OSTATE p = 2 then s.modPort p (fun x => { x with snPend := true }) else s)

/-- A message sent in a burst of its own; with the laser off the burst is not sent, and counted (Table DEF-3). -/
def State.sendAlone (s : State) (p : Nat) (m : List Nat) : State :=
  if s.flag R.PON_STAT_LASER p then s.emit (.port "pon_ploam" p m) else s.incRg R.PON_BURST_SKIP_SKIP p

/-- SN_SEND: the delay has passed, and Serial_Number_ONU is sent. -/
def execSnSend (p : Fin 2) (s : State) : Host.Outcome State Fault Refusal :=
  .next (if s.rg R.PON_STAT_OSTATE p = 2 && (s.port p).snPend then
    (s.modPort p (fun x => { x with snPend := false })).sendAlone p (upSerial :: (slice (s.port p).rec_ 24 8).map (·.toNat)) else s)

/-- RANGING_GRANT: in O4 Registration is sent. -/
def execRangingGrant (p : Fin 2) (s : State) : Host.Outcome State Fault Refusal :=
  .next (if s.rg R.PON_STAT_OSTATE p = 4 then s.sendAlone p (s.registration p) else s)

end Sys2Proof.Machine
end

