-- ==== Sys2Proof/Machine/Burst.lean ====
section
/-! DEFINITION. Upstream bursts (R326 to R332, R371, R375, R397, R399): what is fixed into a burst 12 µs before it starts, its start and
its end. -/

namespace Sys2Proof.Machine

/-! ## What waits -/

/-- The index of an Alloc-ID of a port (R328). -/
def Port.allocIdx (x : Port) (a : Nat) : Option Nat := (x.allocs.find? (fun q => q.2 == a + 1)).map (·.1)

/-- The weight of a member in sixteenths (R375). -/
def State.weight (s : State) (p : Nat) : Nat := if p = 0 then s.bond.weightA else 16 - s.bond.weightA

/-- The upstream entry of port `p` that carries an item held by port `q` (R328, R375): the item's own, or for a bonded item the entry
of the member with its PORT_ID. -/
def State.entryFor (s : State) (p q : Nat) (i : UpItem) : Option XgemEntry :=
  let e := (s.port q).entry i.entry
  if s.bonded q i.entry then
    if s.isMember p then ((s.port p).findEntry true e.portId).map (·.2) else none
  else if q = p then some e
  else none

/-- Bytes of SDU `k` of an item when it is sent: a bonded one gets its shim with its first fragment (R370). -/
def State.sduSize (s : State) (q : Nat) (i : UpItem) (k : Nat) : Nat :=
  i.sduLen k + (if s.bonded q i.entry && !(i.seqs.any (fun x => x.1 == k)) then 4 else 0)

/-- Whether the encryption of an entry lets it send: a key is installed where encryption is required (R319). -/
def Port.mayCipher (x : Port) (e : XgemEntry) : Bool := !e.encReq || !x.uni.isEmpty

/-- An SDU that waits: the port that holds it, its item and number, the bytes of it already sent, all its bytes, its place in the
order of R328 and the time it became ready. -/
structure Cand where
  port : Nat
  item : Nat
  seg : Nat
  off : Nat
  len : Nat
  cls : Nat
  ready : Nat
deriving DecidableEq, Repr

/-- The order of R328: fragments first, then KIND 0, KIND 4, KIND 3 by ready time, KIND 1. -/
def Cand.before (a b : Cand) : Bool :=
  if a.cls ≠ b.cls then decide (a.cls < b.cls)
  else if a.ready ≠ b.ready then decide (a.ready < b.ready)
  else if a.port ≠ b.port then decide (a.port < b.port)
  else if a.item ≠ b.item then decide (a.item < b.item)
  else decide (a.seg ≤ b.seg)

/-- Insertion in that order. -/
def insertCand (c : Cand) : List Cand → List Cand
  | [] => [c]
  | d :: ds => if c.before d then c :: d :: ds else d :: insertCand c ds

/-- The SDUs that port `p` may send in an allocation of index `k`, in order; data ready after `t` waits. -/
def State.cands (s : State) (p k t : Nat) : List Cand :=
  let all := [0, 1].flatMap (fun q => (s.port q).items.flatMap (fun i =>
    match s.entryFor p q i with
    | some e =>
      if e.valid && e.up && e.alloc == k && decide (i.ready ≤ t) && (s.port p).mayCipher e then
        (i.todo.filter (fun d => d.2 == 0 || !s.bonded q i.entry || i.seqs.any (fun x => x.1 == d.1 && x.2 / 2 ^ 24 == p))).map
          (fun d => ⟨q, i.id, d.1, d.2, s.sduSize q i d.1,
            if 0 < d.2 then 0 else match i.kind with | 0 => 1 | 3 => 3 | _ => 4, i.ready⟩)
      else []
    | none => []))
  all.foldr insertCand []

/-! ## The DBRu (R330, R371, R375) -/

/-- A frame's bytes: its 8-byte header and payload, rounded up to 4. -/
def framed (n : Nat) : Nat := (8 + n + 3) / 4 * 4

/-- The framed bytes of an uplink job that is not yet decoded. -/
def jobFramed (bonded : Bool) (tbs : Nat) : Nat :=
  (tbs / 8 + (if bonded then 28 else 24) * ceilDiv (tbs / 8) 8192 + 3) / 4 * 4

/-- The bytes predicted to join an Alloc-ID by the end of the look-ahead: those of its bonded entries, and the others. -/
def State.predicted (s : State) (p k start : Nat) : Nat × Nat :=
  let x := s.port p
  if !x.predict then (0, 0)
  else s.heatList.foldl (fun (acc : Nat × Nat) y =>
    let h := y.2
    match x.blockEntry h.carrier with
    | some e =>
      if h.live && h.uplinkRadio && h.fwd.isNone && (x.entry e).alloc == k &&
          decide (s.predictEnd h ≤ start + x.lookahead * 1000) then
        let b := s.bonded p e
        let n := ((h.jobs.filter (fun j => recF j.rec_ 0 0 2 == 0)).map (fun j => jobFramed b (rec32 j.rec_ 32))).sum
        if b then (acc.1 + n, acc.2) else (acc.1, acc.2 + n)
      else acc
    | none => acc) (0, 0)

/-- The tributaries that send in an allocation of index `k` of a port. -/
def State.frtsOn (s : State) (p k : Nat) : List Nat :=
  (List.range 16).filter (fun t =>
    let f := s.frt t
    let e := (s.port p).entry f.entry
    s.flag R.FRT_STAT_EN t && f.up && (f.port == p || (f.port == 2 && s.isMember p)) && e.valid && e.up && e.kind == 4 && e.alloc == k)

/-- The report of an Alloc-ID in words of 4 bytes. -/
def State.dbru (s : State) (p k start : Nat) : Nat :=
  let q := [0, 1].flatMap (fun q => (s.port q).items.flatMap (fun i =>
    match s.entryFor p q i with
    | some e =>
      if e.valid && e.up && e.alloc == k then
        i.todo.map (fun d => (s.bonded q i.entry, framed (s.sduSize q i d.1 - d.2)))
      else []
    | none => []))
  let pre := s.predicted p k start
  let frt := ((s.frtsOn p k).map (fun t => ((s.frt t).waiting.map (fun f => framed f.length)).sum)).sum
  let group := ((q.filter (·.1)).map (·.2)).sum + pre.1
  let own := ((q.filter (fun x => !x.1)).map (·.2)).sum + pre.2 + frt
  min (ceilDiv (own + ceilDiv (group * s.weight p) 16) 4) (2 ^ 24 - 1)

/-! ## Fixing -/

/-- Bytes `lo` to `lo + n − 1` of an item's data, from its buffers. -/
def State.itemRead (s : State) (i : UpItem) (lo n : Nat) : List Byte × State :=
  i.bufs.zipIdx.foldl (fun (x : List Byte × State) b =>
    let a := max lo (b.2 * i.size)
    let z := min (lo + n) (min i.len ((b.2 + 1) * i.size))
    if z ≤ a then x
    else
      let r := match x.2.handleMem b.1 with
        | some m => x.2.readOrLost (m.1 + (a - b.2 * i.size)) (z - a)
        | none => x.2.lostBytes (z - a)
      (x.1 ++ r.1, r.2)) ([], s)

/-- What stands ahead of the data of SDU `k`: the shim (Table BND-1), and a block's header with its OFFSET (Table PON-3). -/
def UpItem.leadBytes (i : UpItem) (k : Nat) : List Byte :=
  (match i.seqs.find? (fun q => q.1 == k) with | some q => leBytes 4 q.2 | none => []) ++
    (if i.kind = 3 then hdrAt i.hdr (8192 * k) else [])

/-- A shim given to an SDU of a bonded entry that is sent from its first byte: the next SEQ of its PORT_ID, and the member. -/
def State.giveShim (s : State) (p : Nat) (c : Cand) : State :=
  match (s.port c.port).items.find? (fun i => i.id == c.item) with
  | none => s
  | some i =>
    if s.bonded c.port i.entry && c.off = 0 then
      let id := ((s.port c.port).entry i.entry).portId
      let old := (i.seqs.find? (fun q => q.1 == c.seg)).map (·.2)
      let seq := match old with | some v => v % 2 ^ 24 | none => Store.get 0 s.bond.upSeq id
      let s : State := if old.isSome then s
        else { s with bond := { s.bond with upSeq := Store.put 0 s.bond.upSeq id ((seq + 1) % 2 ^ 24) } }
      s.modPort c.port (fun x => { x with items := x.items.map (fun j =>
        if j.id == c.item then { j with seqs := j.seqs.filter (fun q => q.1 != c.seg) ++ [(c.seg, seq + p * 2 ^ 24)] } else j) })
    else s

/-- One frame fixed: `n` bytes of an SDU. Its payload is encrypted under the port's unicast key where its entry asks for it. -/
def State.fixFrame (s : State) (p : Nat) (b : Burst) (c : Cand) (n : Nat) : Burst × State :=
  let s := s.giveShim p c
  match (s.port c.port).items.find? (fun i => i.id == c.item) with
  | none => (b, s)
  | some i =>
    let e := (s.entryFor p c.port i).getD {}
    let lead := i.leadBytes c.seg
    let hd := slice lead c.off n
    let base := if i.kind = 3 then 8192 * c.seg else 0
    let r := s.itemRead i (base + (c.off - lead.length)) (n - hd.length)
    let s := r.2
    let data := hd ++ r.1
    let key := if e.encReq then (s.port p).uni.head? else none
    let bytes := match key with
      | some k => ctrMode (roundKeys (natBlock k.2)) 128 (Config.xgemIcb b.start (b.body.map (·.bytes.length)).sum) (data.map (·.toNat))
      | none => data.map (·.toNat)
    let last := c.off + n == c.len
    let s := s.modPort c.port (fun x => { x with items := x.items.map (fun j =>
      if j.id == c.item then { j with todo := (j.todo.filter (fun t => t.1 != c.seg || !last)).map (fun t =>
        if t.1 == c.seg then (t.1, c.off + n) else t) } else j) })
    let piece : Piece := ⟨c.port, c.item, c.seg, c.off, n, last⟩
    ({ b with
      pieces := b.pieces ++ [piece]
      body := b.body ++ [⟨[e.portId, (key.map (·.1)).getD 0, if last then 1 else 0, n] ++ bytes, some piece, none⟩] }, s)

/-- SDUs fixed while room is left; one that does not fit is cut and the rest waits for the next allocation (R328). -/
def State.fixList (s : State) (p : Nat) (b : Burst) (room : Nat) : List Cand → Burst × Nat × State
  | [] => (b, room, s)
  | c :: cs =>
    let r := room / 4 * 4 - 8
    if r = 0 then (b, room, s)
    else
      let n := min (c.len - c.off) r
      let x := s.fixFrame p b c n
      if c.off + n < c.len then (x.1, 0, x.2) else x.2.fixList p x.1 (room - framed n) cs

/-- Frames of tributaries that fit whole, in order. -/
def State.fixFrts (s : State) (p : Nat) (b : Burst) (room : Nat) : List Nat → Burst × Nat × State
  | [] => (b, room, s)
  | t :: ts =>
    let go := (s.frt t).waiting.foldl (fun (x : Burst × Nat × List (List Byte)) f =>
      if x.2.2.isEmpty && decide (framed f.length ≤ x.2.1) then
        ({ x.1 with
          frt := x.1.frt ++ [(t, f)]
          body := x.1.body ++ [⟨[((s.port p).entry (s.frt t).entry).portId, 0, 1, f.length] ++ f.map (·.toNat), none, some t⟩] },
          x.2.1 - framed f.length, [])
      else (x.1, x.2.1, x.2.2 ++ [f])) (b, room, [])
    (s.modFrt t (fun y => { y with waiting := go.2.2 })).fixFrts p go.1 go.2.1 ts

/-- The PLOAMu message of an allocation: the first that waits, else a Sleep_Request, else an Acknowledgement with nothing queued. -/
def State.takePloam (s : State) (p : Nat) (b : Burst) : Burst × State :=
  let mic := if (s.slotKey 0 (8 + 4 * p)).isSome then 1 else 0
  let x := s.port p
  match x.ploamQ, x.sleepQ with
  | m :: ms, _ =>
    ({ b with ploam := b.ploam ++ [m], body := b.body ++ [⟨m.length :: m, none, none⟩] }, s.modPort p (fun x => { x with ploamQ := ms }))
  | [], some c =>
    ({ b with sleep := some c, body := b.body ++ [⟨[3, upSleep, c, mic], none, none⟩] }, s.modPort p (fun x => { x with sleepQ := none }))
  | [], none => ({ b with body := b.body ++ [⟨[3, upAck, 1, mic], none, none⟩] }, s)

/-- One allocation fixed (R328): an Alloc-ID, its bytes, and whether a PLOAMu and a DBRu are asked for. -/
def State.fixAlloc (s : State) (p : Nat) (b : Burst) (a : Nat × Nat × Bool × Bool) : Burst × State :=
  match (s.port p).allocIdx a.1 with
  | none => (b, s)
  | some k =>
    let room := a.2.1
    let pl := a.2.2.1 && decide (48 ≤ room)
    let x := if pl then s.takePloam p b else (b, s)
    let room := if pl then room - 48 else room
    let s := x.2
    let db := a.2.2.2 && decide (4 ≤ room)
    let rep := s.dbru p k b.start
    let b := if db then { x.1 with dbru := x.1.dbru ++ [(a.1, rep)], body := x.1.body ++ [⟨[a.1, rep], none, none⟩] } else x.1
    let room := if db then room - 4 else room
    let cs := s.cands p k (b.start - 12000)
    let y := s.fixList p b room (cs.filter (fun c => decide (c.cls < 2)))
    let z := y.2.2.fixFrts p y.1 y.2.1 (y.2.2.frtsOn p k)
    let w := z.2.2.fixList p z.1 z.2.1 (cs.filter (fun c => decide (2 < c.cls)))
    (w.1, w.2.2)

/-- BURST_FIX (R328, R329): 12 µs before its start (a TK_NS instant) the contents of a burst are fixed: its burst profile and its
allocations in order. A port that is not in O5 sends no burst. -/
def execBurstFix (p : Fin 2) (start : Nat) (profile : Fin 4) (allocs : List (Nat × Nat × Bool × Bool)) (s : State) :
    Host.Outcome State Fault Refusal :=
  if (s.port p).enabled && s.inO5 p then
    let s := s.reach (start - 12000)
    let b : Burst := ⟨start, profile, [], [], [], [], none, [], false⟩
    let x := allocs.foldl (fun (x : Burst × State) a => x.2.fixAlloc p x.1 a) (b, s)
    .next (x.2.modPort p (fun q => { q with bursts := q.bursts ++ [x.1] }))
  else .next s

/-! ## Start and end -/

/-- BURST_START (R331, R343, Table DEF-3): the burst fixed first starts; with the laser off it is not sent, what it held returns and it is
counted. Its start commits a Sleep_Request that it carries. -/
def execBurstStart (p : Fin 2) (s : State) : Host.Outcome State Fault Refusal :=
  match (s.port p).bursts.find? (fun b => !b.started) with
  | none => .next s
  | some b =>
    let s := s.reach b.start
    if s.flag R.PON_STAT_LASER p && s.inO5 p then
      let s := s.modPort p (fun x => { x with bursts := x.bursts.map (fun y => if y == b then { y with started := true } else y) })
      let ind := s.rg R.PON_DEF_RDI p + (if (s.port p).gasp then 2 else 0)
      let s := s.emit (.port "pon_burst" p ([b.start, b.profile, ind] ++ b.body.flatMap (·.bytes)))
      let go := s.rg R.PON_STAT_PM p = 1 && (b.sleep == some 1 || b.sleep == some 2)
      if go then
        let s := (s.setRg R.PON_STAT_PM 2 p).modPort p (fun x => { x with pmFrom := s.tk.localNs, frozen := b.sleep == some 2 })
        .next (s.laserUpdate p)
      else .next s
    else .next ((s.unfixBurst p b).incRg R.PON_BURST_SKIP_SKIP p)

/-- Laser-on time and a burst added to a port's ledger (Table OPT-4): OPT_BEN was low for `ns` nanoseconds. -/
def State.laserOn (s : State) (p ns bursts : Nat) : State :=
  let o := vget s.optics p
  if o.ledger.isEmpty then s
  else
    let t := o.laserNs + ns
    let l := putRec o.ledger 8 4 (rec32 o.ledger 8 + t / 1000000000)
    let l := putRec l 12 8 (rec64 l 12 + bursts)
    let s : State := { s with optics := vmod s.optics p (fun o => { o with ledger := l, laserNs := t % 1000000000 }) }
    s.setRg R.OPT_LASER_LASER_ON_S (rec32 l 8) p

/-- OPT_BEN_p is low around a burst from `start` to `stop` (R397): BEN_LEAD bit periods before and BEN_LAG after. -/
def State.benPulse (s : State) (p start stop : Nat) (lag : Bool) : State :=
  let o := vget s.optics p
  let bits (n : Nat) := n * 1000000 / (s.port p).upKbps
  let a := start - bits (rec16 o.rec_ 4)
  let z := stop + (if lag then bits (rec16 o.rec_ 6) else 0)
  -- windows of bursts close together join (R397)
  let low := z - (if a ≤ o.benEnd && o.benEnd ≤ z then o.benEnd else a)
  let s := (s.emit (.port "opt_ben_low" p [a, z])).laserOn p low 1
  { s with optics := vmod s.optics p (fun o => { o with benEnd := z }) }

/-- Buffers freed whose last byte a burst has carried (R326), and items with none left removed; the commands of PON_SEND complete (R513). -/
def State.sentPieces (s : State) (b : Burst) : State :=
  let s := b.pieces.foldl (fun s c =>
    match (s.port c.port).items.find? (fun i => i.id == c.item) with
    | none => s
    | some i =>
      (List.range i.bufs.length).foldl (fun s k =>
        let h := i.bufs.getD k 0
        if h != 0 && i.carries c k then
          ((s.pfree (portOwner c.port) h).st).modPort c.port (fun x => { x with items := x.items.map (fun j =>
            if j.id == i.id then { j with bufs := modAt j.bufs k (fun _ => 0) } else j) })
        else s) s) s
  [0, 1].foldl (fun s q =>
    let gone := (s.port q).items.filter (fun i => i.bufs.all (· == 0))
    let s := s.modPort q (fun x => { x with items := x.items.filter (fun i => !(i.bufs.all (· == 0))) })
    gone.foldl (fun s i => if i.kind = 3 then s else s.complete i.ring i.cid Sc.ok) s) s

/-- BURST_END (R326, R397, R398): the burst in progress ends `ns` nanoseconds after its start. -/
def execBurstEnd (p : Fin 2) (ns : Nat) (s : State) : Host.Outcome State Fault Refusal :=
  match (s.port p).bursts.find? (·.started) with
  | none => .next s
  | some b =>
    let s := s.reach (b.start + ns)
    let s := s.modPort p (fun x => { x with bursts := x.bursts.filter (fun y => !(y == b)) })
    let s := (s.sentPieces b).benPulse p b.start (b.start + ns) true
    let s := if (s.port p).levelAck then
        ((s.modPort p (fun x => { x with levelAck := false })).driveLevel p).queuePloam p [upAck, 0]
      else s
    -- a port disabled by the head end in mid-burst turns its laser off at the end
    .next (if s.rg R.PON_STAT_OSTATE p = 7 then s.laserUpdate p else s)

end Sys2Proof.Machine
end

