-- ==== Sys2Proof/Machine/LaneOps.lean ====
section
/-! DEFINITION. What a lane-operation entry computes (R62 to R72, R95 to R111, R181, R705 to R707): from operand bytes to the
accumulators and to the output bytes and saturation count. -/

namespace Sys2Proof.Machine

/-- K_lane of a pair of operand formats (Table LNE-2, R63: that of the wider operand). -/
def kLane (fa fb : Nat) : Nat :=
  let half (f : Nat) : Bool := f == 5 || f == 6 || f == 7
  let quad (f : Nat) : Bool := f == 0 || f == 8
  if half fa || half fb then 8 else if quad fa && quad fb then 32 else 16

/-- Whether an MMA entry's plan is complex. -/
def planCplx (plan : Nat) : Bool := decide (4 ≤ plan)

/-- Whether the tile is floating. -/
def tileFloat (e : List Byte) : Bool := fmtFloat (eFmtA e)

/-- Whether the tile is 64 bits wide (R67): an operand is INT16 or CQ16. -/
def tileWide (e : List Byte) : Bool := eFmtA e == 2 || eFmtA e == 10 || eFmtB e == 2 || eFmtB e == 10

/-- Tiles that one output block takes (R66, R67). -/
def tilesOf (e : List Byte) : Nat := (if tileWide e then 2 else 1) * (if planCplx (ePlan e) then 2 else 1)

/-- Sum of an integer function over 0 to n − 1. -/
def sumTo : Nat → (Nat → Int) → Int
  | 0, _ => 0
  | n + 1, f => sumTo n f + f n

/-- One pass of a floating plan over every K step in order (R96): `neg` for a pass listed as subtracted. -/
def passF (steps kl : Nat) (neg : Bool) (step : Nat → List FVal → FVal) (pr : Nat → FVal) (acc : FVal) : FVal :=
  (List.range steps).foldl (fun acc t =>
    let q := step t ((List.range kl).map (fun i => pr (t * kl + i)))
    fadd acc (if neg then q.neg else q)) acc

/-- Operand access of an MMA: A as M × K and B as K × N, with an optional second plane (R705). -/
structure MmaIn where
  a : Array Byte
  b : Array Byte
  sa : Array Byte
  sb : Array Byte
  bias : Array Byte
  m : Nat
  n : Nat
  k : Nat

/-- The accumulators of element (i, j): real and imaginary, from their values so far (R62 to R67, R76, R95 to R100). -/
def mmaEl (e : List Byte) (x : MmaIn) (i j : Nat) (re0 im0 : Int) : Int × Int :=
  let fa := eFmtA e
  let fb := eFmtB e
  let plan := ePlan e
  let kl := kLane fa fb
  let steps := eK e
  if tileFloat e then
    let pa := tensorBytes fa x.m x.k
    let pb := tensorBytes fb x.k x.n
    let ea (pl k : Nat) : FVal := (fmtOf fa).dec (elBits (if pl = 0 then x.a else x.a.extract pa x.a.size) fa x.k i k)
    let eb (pl k : Nat) : FVal := (fmtOf fb).dec (elBits (if pl = 0 then x.b else x.b.extract pb x.b.size) fb x.n k j)
    let st (_ : Nat) (ps : List FVal) : FVal := stepSum ps
    let st4 (t : Nat) (ps : List FVal) : FVal :=
      mxStep ps (elBits x.sa 9 (x.k / 32) i t) (elBits x.sb 9 x.n t j)
    let re := fFP32.dec re0.toNat
    let im := fFP32.dec im0.toNat
    let ps := passF steps kl
    let rnd (v : FVal) : FVal := (fmtOf fa).round (f32 v)
    let r : FVal × FVal :=
      match plan with
      | 0 => (ps false (if fa = 8 then st4 else st) (fun k => (ea 0 k).mulX (eb 0 k)) re, im)
      | 3 =>
        let r := ps false st (fun k => (splitLo (ea 0 k)).mulX (splitHi (eb 0 k))) re
        let r := ps false st (fun k => (splitHi (ea 0 k)).mulX (splitLo (eb 0 k))) r
        (ps false st (fun k => (splitHi (ea 0 k)).mulX (splitHi (eb 0 k))) r, im)
      | 4 =>
        let r := ps false st (fun k => (ea 0 k).mulX (eb 0 k)) re
        let r := ps true st (fun k => (ea 1 k).mulX (eb 1 k)) r
        let q := ps false st (fun k => (ea 0 k).mulX (eb 1 k)) im
        (r, ps false st (fun k => (ea 1 k).mulX (eb 0 k)) q)
      | 5 =>
        let k1 := fun k => (eb 0 k).mulX (rnd ((ea 0 k).addX (ea 1 k)))
        let k2 := fun k => (ea 0 k).mulX (rnd ((eb 1 k).addX (eb 0 k).neg))
        let k3 := fun k => (ea 1 k).mulX (rnd ((eb 0 k).addX (eb 1 k)))
        (ps true st k3 (ps false st k1 re), ps false st k2 (ps false st k1 im))
      | _ =>
        (ps false st (fun k => (ea 0 k).mulX (eb 0 k)) re, ps false st (fun k => (ea 1 k).mulX (eb 0 k)) im)
    (fFP32.enc r.1, fFP32.enc r.2)
  else
    let w := if tileWide e then 64 else 32
    let ba (k : Nat) := elBits x.a fa x.k i k
    let bb (k : Nat) := elBits x.b fb x.n k j
    let sI (f b : Nat) : Int := sext b (fmtBits f)
    let r : Int × Int :=
      if planCplx plan then
        let ca (k : Nat) := cplxParts fa (ba k)
        if plan = 6 then
          (sumTo x.k (fun k => (ca k).1 * sI fb (bb k)), sumTo x.k (fun k => (ca k).2 * sI fb (bb k)))
        else
          let cb (k : Nat) := cplxParts fb (bb k)
          (sumTo x.k (fun k => (ca k).1 * (cb k).1 - (ca k).2 * (cb k).2),
           sumTo x.k (fun k => (ca k).1 * (cb k).2 + (ca k).2 * (cb k).1))
      else (sumTo x.k (fun k => sI fa (ba k) * sI fb (bb k)), 0)
    (wrapInt (re0 + r.1) w, wrapInt (im0 + r.2) w)

/-- The initial value of a tile's column (R98): the bias row, or 0. -/
def biasEl (e : List Byte) (x : MmaIn) (j : Nat) : Int × Int :=
  if eBias e then
    let f := if tileFloat e then 7 else if tileWide e then 13 else 12
    let g (r : Nat) : Int := if tileFloat e then elBits x.bias f x.n r j else sext (elBits x.bias f x.n r j) (fmtBits f)
    (g 0, if planCplx (ePlan e) then g 1 else 0)
  else (0, 0)

/-- The accumulators of the whole entry, continued from the tiles held for its output tensor. -/
def mmaAll (e : List Byte) (x : MmaIn) (prev : Option AccBlock) : List (Int × Int) :=
  (List.range (x.m * x.n)).map (fun p =>
    let i := p / x.n
    let j := p % x.n
    let z := match prev with
      | some b => (b.re.getD p 0, b.im.getD p 0)
      | none => biasEl e x j
    mmaEl e x i j z.1 z.2)

/-- What a drain or a Field-unit result writes: the output bytes, the MXFP4 scale bytes, and the saturations. -/
structure Drained where
  out : List Byte
  scales : List Byte
  sat : Nat

/-- A row-major list of real values to an output format with parameters per column (R102 to R109). -/
def convTensor (fmt n : Nat) (q : Nat → QPar) (vs : List Val) : Drained :=
  if fmt = 8 then
    let rows := groups32 vs.length (vs.zipIdx.map (fun p => scaled p.1 (q (p.2 % n)).scale))
    let bl := rows.map mxBlock
    ⟨packEls 8 n (bl.flatMap (fun b => b.2.1)), bl.map (fun b => BitVec.ofNat 8 b.1), (bl.map (fun b => b.2.2)).sum⟩
  else
    let r := vs.zipIdx.map (fun p => convEl fmt p.1 (q (p.2 % n)))
    ⟨packEls fmt n (r.map (·.1)), [], (r.map (·.2)).sum⟩

/-- The drain of an MMA entry. -/
def drainAll (e : List Byte) (n : Nat) (q : Nat → QPar) (acc : List (Int × Int)) : Drained :=
  let fmt := eFmtO e
  let v (x : Int) : Val := if tileFloat e then .flt (fFP32.dec x.toNat) else .int x
  if fmtCplx fmt then
    let w := fmtBits fmt / 2
    let r := acc.zipIdx.map (fun p =>
      let a := convEl fmt (v p.1.1) (q (p.2 % n))
      let b := convEl fmt (v p.1.2) (q (p.2 % n))
      (a.1 + b.1 * 2 ^ w, a.2 + b.2))
    ⟨packEls fmt n (r.map (·.1)), [], (r.map (·.2)).sum⟩
  else
    let a := convTensor fmt n q (acc.map (fun p => v p.1))
    if planCplx (ePlan e) then
      let b := convTensor fmt n q (acc.map (fun p => v p.2))
      ⟨a.out ++ b.out, a.scales ++ b.scales, a.sat + b.sat⟩
    else a

/-- The value of an MXFP4 element with its block scale (R93): NaN for scale 0xFF. -/
def mxVal (bits scale : Nat) : FVal :=
  if scale = 255 then .nan
  else match fE2M1.dec bits with
    | .fin n m k => .fin n m (k + scale - 127)
    | v => v

/-- Element (r, c) of an operand as a value, block scales applied. -/
def opVal (a sc : Array Byte) (fmt cols r c : Nat) : Val :=
  if fmt = 8 then .flt (mxVal (elBits a 8 cols r c) (elBits sc 9 ((cols + 31) / 32) r (c / 32)))
  else decEl fmt (elBits a fmt cols r c)

/-- One FIELD operation (Table HEA-13, R110, R111) on elements of A, B and C, with the bits of A and B: the value,
or the bits passed through. -/
def fieldEl (e : List Byte) (va vb vc : Val) (a b : Nat) : Val ⊕ Nat :=
  let fl (v : Val) : FVal := match v with | .flt f => f | .int i => f32 (FVal.ofInt i)
  let it (v : Val) : Int := match v with | .int i => wrapInt i 32 | .flt _ => 0
  let fa := eFmtA e
  let fb := eFmtB e
  if fmtFloat fa then
    let x := fl va
    let y := fl vb
    let z := fl vc
    match eFn e with
    | 0 => .inl (.flt (fadd x y))
    | 1 => .inl (.flt (fsub x y))
    | 2 => .inl (.flt (fmul x y))
    | 3 => .inl (.flt (fma x y z))
    | 4 => .inl (.flt (fmin x y))
    | 5 => .inl (.flt (fmax x y))
    | 6 => .inl (.flt (match x with | .nan => .nan | .inf _ => .inf false | .fin _ m k => .fin false m k))
    | 7 => .inl (.flt x.neg)
    | 8 => .inl (if fmtFloat (eFmtO e) then .flt (if fcmp (eCmp e) x y then fOne else .fin false 0 0)
        else .int (if fcmp (eCmp e) x y then 1 else 0))
    | 9 =>
      let t := !z.isZero
      if eFmtO e = (if t then fa else fb) && eFmtO e ≠ 8 then .inr (if t then a else b) else .inl (.flt (if t then x else y))
    | 13 => .inl (.flt (frelu x))
    | _ => .inl (.flt (fmin (fmax x y) z))
  else
    let x := it va
    let y := it vb
    let z := it vc
    let r : Int := match eFn e with
      | 0 => x + y
      | 1 => x - y
      | 2 => x * y
      | 3 => x * y + z
      | 4 => min x y
      | 5 => max x y
      | 6 => if x < 0 then -x else x
      | 7 => -x
      | 8 => if icmp (eCmp e) x y then 1 else 0
      | 9 => if z ≠ 0 then x else y
      | 10 => x * (2 ^ (toBits y 5) : Nat)
      | 11 => x / (2 ^ (toBits y 5) : Nat)
      | 12 => (toBits x 32 / 2 ^ (toBits y 5) : Nat)
      | 13 => max x 0
      | _ => min (max x y) z
    let r := wrapInt r 32
    .inl (if eFn e = 8 && fmtFloat (eFmtO e) then .flt (FVal.ofInt r) else .int r)

/-- The output of a list of results, identity conversion on writeback (R70). -/
def writeback (e : List Byte) (n : Nat) (rs : List (Val ⊕ Nat)) : Drained :=
  let q := QPar.id (eSat e) (eSym e)
  if eFmtO e = 8 then
    convTensor 8 n (fun _ => q) (rs.map (fun r => match r with | .inl v => v | .inr b => decEl 8 b))
  else
    let r := rs.map (fun r => match r with
      | .inl v => convEl (eFmtO e) v q
      | .inr b => (b, 0))
    ⟨packEls (eFmtO e) n (r.map (·.1)), [], (r.map (·.2)).sum⟩

/-- FIELD over M × N (R706): each operand with its block scales. -/
def fieldAll (e : List Byte) (a sa b sb c sc : Array Byte) (m n : Nat) : Drained :=
  writeback e n ((List.range (m * n)).map (fun p =>
    let i := p / n
    let j := p % n
    fieldEl e (opVal a sa (eFmtA e) n i j) (opVal b sb (eFmtB e) n i j) (opVal c sc (eFmtA e) n i j)
      (elBits a (eFmtA e) n i j) (elBits b (eFmtB e) n i j)))

/-- REDUCE (R72): one row or one column of values. -/
def reduceVals (e : List Byte) (l : List Val) : Val :=
  if fmtFloat (eFmtA e) then
    let l := l.map (fun v => match v with | .flt f => f | .int i => f32 (FVal.ofInt i))
    .flt (match eFn e / 2, l with
      | 0, l => floatSum l
      | 1, v :: vs => vs.foldl fmax v
      | _, v :: vs => vs.foldl fmin v
      | _, [] => .nan)
  else
    let l := l.map (fun v => match v with | .int i => wrapInt i 32 | .flt _ => 0)
    .int (match eFn e / 2, l with
      | 0, l => wrapInt (l.foldl (· + ·) 0) 32
      | 1, v :: vs => vs.foldl max v
      | _, v :: vs => vs.foldl min v
      | _, [] => 0)

def reduceAll (e : List Byte) (a sa : Array Byte) (m n : Nat) : Drained :=
  let at_ (i j : Nat) := opVal a sa (eFmtA e) n i j
  if eFn e % 2 = 0 then
    writeback e 1 ((List.range m).map (fun i => .inl (reduceVals e ((List.range n).map (at_ i)))))
  else
    writeback e n ((List.range n).map (fun j => .inl (reduceVals e ((List.range m).map (fun i => at_ i j)))))

/-- LOOKUP over M × N (R71, R707). -/
def lookupAll (e : List Byte) (a sa : Array Byte) (t : Array Nat) (base inv m n : Nat) : Drained :=
  writeback e n ((List.range (m * n)).map (fun p =>
    let x := scaled (opVal a sa (eFmtA e) n (p / n) (p % n)) 0
    .inl (.flt (match eFn e with
      | 0 => lookup t base inv x
      | 1 => recip t base inv x
      | _ => rsqrt t base inv x))))

/-- CONVERT over M × N (R102 to R109); a complex word converts part by part. -/
def convertAll (e : List Byte) (a sa : Array Byte) (q : Nat → QPar) (m n : Nat) : Drained :=
  let fa := eFmtA e
  if fmtCplx fa then
    let w := fmtBits (eFmtO e) / 2
    let r := (List.range (m * n)).map (fun p =>
      let c := cplxParts fa (elBits a fa n (p / n) (p % n))
      let x := convEl (eFmtO e) (.int c.1) (q (p % n))
      let y := convEl (eFmtO e) (.int c.2) (q (p % n))
      (x.1 + y.1 * 2 ^ w, x.2 + y.2))
    ⟨packEls (eFmtO e) n (r.map (·.1)), [], (r.map (·.2)).sum⟩
  else convTensor (eFmtO e) n q ((List.range (m * n)).map (fun p => opVal a sa fa n (p / n) (p % n)))

end Sys2Proof.Machine
end

