-- ==== Sys2Proof/Machine/Lane.lean ====
section
/-! DEFINITION. Lanes (R61 to R88): which entry a Lane runs next (R179, R193), what each opcode of Table HEA-7 does but SYNC, and
the states of Table LNE-7. -/

namespace Sys2Proof.Machine

/-! ## What a Lane runs next -/

/-- Whether the Lanes skip an entry (R262, R265): its stage does not run, or was stopped at its split time. END is never
skipped, and the TAP_OUT of a stage stopped at its split time completes and is discarded (R184, R268). -/
def Heat.skips (h : Heat) (e : List Byte) : Bool :=
  eOp e != 0 && (h.skipSegs.contains (eSeg e) || (h.lateSegs.contains (eSeg e) && eOp e != 9))

/-- The next entry of a virtual Lane that is not skipped: its index and the entry. -/
def Heat.nextEntry (h : Heat) (img : List Byte) (v : Nat) : Option (Nat × List Byte) :=
  let pc := (h.vl.getD v {}).pc
  ((laneOps img v).zipIdx.find? (fun p => decide (pc ≤ p.2) && !h.skips p.1)).map (fun p => (p.2, p.1))

/-- Virtual Lanes of running Heats placed on Lane `n`, with their slot and Heat. -/
def State.placedOn (s : State) (n : Nat) : List (Nat × Nat × Heat) :=
  s.heatList.filterMap (fun p =>
    if p.2.st = .running then ((List.range p.2.vl.length).find? (fun v => s.laneOf p.2 v == n)).map (fun v => (p.1, v, p.2))
    else none)

def VLane.isHeld (v : VLane) : Bool := match v.run with | .held _ _ => true | _ => false

/-- The virtual Lane whose entry Lane `n` runs next (R193): one that holds the Lane in its current entry, else the Heat that an
MMA entry without LAST_K left on it, else the ready Heat that R193 chooses. -/
def State.cand (s : State) (n : Nat) : Option (Nat × Nat × Heat) :=
  let st := s.rg R.LANE_STAT_STATE n
  if st = 1 || st = 2 then
    let ps := s.placedOn n
    match ps.find? (fun p => (p.2.2.vl.getD p.2.1 {}).isHeld) with
    | some p => some p
    | none =>
      let ready := ps.filter (fun p => (p.2.2.vl.getD p.2.1 {}).run = .ready)
      match (vget s.lanes n).sticky with
      | some slot => ready.find? (fun p => p.1 == slot)
      | none => ready.foldl (fun b p => match b with
          | none => some p
          | some q => if before p.2.2 q.2.2 then some p else some q) none
  else none

/-- The Lane takes up the work of a Heat (Table LNE-7): BUSY, with its slot bound. -/
def State.bindLane (s : State) (n slot : Nat) : State :=
  ((s.setRg R.LANE_STAT_STATE 2 n).setRg R.LANE_STAT_HEAT slot n).setRg R.LANE_STAT_BOUND 1 n

/-- Run the next entry of Lane `n` when it has the opcode `op`: `f` gets the slot, virtual Lane, Heat, index and entry. -/
def State.issue (s : State) (n op : Nat) (f : Nat → Nat → Heat → Nat → List Byte → State → State) : State :=
  match if s.coreRuns then s.cand n else none with
  | none => s
  | some (slot, v, h) =>
    match h.nextEntry (s.imageOf h) v with
    | some (i, e) => if eOp e = op then f slot v h i e (s.bindLane n slot) else s
    | none => s

def State.modVl (s : State) (slot v : Nat) (f : VLane → VLane) : State :=
  s.modHeat slot (fun h => { h with vl := modAt h.vl v f })

/-- An entry completes: the virtual Lane goes to the next one, or ends after the last; the watchdog starts again (R195). -/
def State.doneEntry (s : State) (n slot v i : Nat) (stick : Bool) : State :=
  let s := s.modVl slot v (fun x => { x with pc := i + 1, run := .ready })
  let s := s.modHeat slot (fun h => { h with wdFrom := s.tk.localNs })
  let s := { s with lanes := vmod s.lanes n (fun l => { l with sticky := if stick then some slot else none }) }
  match s.heat slot with
  | some h => match h.nextEntry (s.imageOf h) v with
    | some _ => s
    | none => (s.modVl slot v (fun x => { x with run := .ended })).unbindLane n slot
  | none => s

/-- The virtual Lane holds its Lane in the current entry. -/
def State.hold (s : State) (slot v why : Nat) : State :=
  s.modVl slot v (fun x => match x.run with
    | .held _ _ => x
    | _ => { x with run := .held why s.tk.localNs })

/-! ## Reading operands -/

/-- Read tensors of a Heat in order: index and byte count of each. -/
def State.readTensors (s : State) (h : Heat) : List (Nat × Nat) → Option (List (Array Byte)) × State
  | [] => (some [], s)
  | (t, n) :: r =>
    if n = 0 then
      let y := s.readTensors h r
      (y.1.map (fun l => #[] :: l), y.2)
    else
      let x := s.readLoc (h.tensorLoc t) n
      let y := x.2.readTensors h r
      match x.1, y.1 with
      | some b, some l => (some (b.toArray :: l), y.2)
      | _, _ => (none, y.2)

/-- Whether an uncorrectable word that a Heat reads is re-fetchable (R660). -/
def Heat.refetchable (h : Heat) (w : Nat) : Bool :=
  let a : Int := (8 * w : Nat)
  h.refetch.any (fun x => decide (x.1 ≤ a + 7) && decide (a ≤ x.2)) ||
  h.batons.any (fun b =>
    let off := 8 * w % 0x0100_0000
    decide (8 * w < 0x0800_0000) && decide (b.2.1 ≤ off + 7) && decide (off < b.2.1 + b.2.2) &&
      (match h.tokens.find? (fun p => p.1 == b.1) with
       | some (_, t) => clearBit t.doneMask (8 * w / 0x0100_0000) != 0
       | none => false))

/-- An entry met an uncorrectable word (R145, R660): handled as a Lane fault when every such word is re-fetchable, else DATA_LOST. -/
def State.lostRead (s : State) (slot v : Nat) (h : Heat) (ts : List (Nat × Nat)) : State :=
  let ws := s.mem.bad.filter (fun w => ts.any (fun t => (h.tensorLoc t.1).any (fun p => touchesWord p.1 p.2 w)))
  if ws.all h.refetchable then s.heatLoss slot v
  else (s.incRg R.FLT_CNT_DATA_LOST).heatFail slot v Sc.dataLost

/-- What an entry wrote: bytes and block scales to its output tensor, saturations counted (R109). -/
def State.putOut (s : State) (slot : Nat) (h : Heat) (e : List Byte) (d : Drained) : State :=
  let s := s.writeLoc h.user (h.tensorLoc (eTO e)) d.out
  let s := if d.scales.isEmpty then s else s.writeLoc h.user (h.tensorLoc (eTO e + 1)) d.scales
  s.modHeat slot (fun h => { h with sat := h.sat + d.sat })

/-- The release flag (R126): the half that the last chunk WAIT gave is released; with none outstanding it is ignored and counted. -/
def State.relEntry (s : State) (slot v : Nat) (e : List Byte) : State :=
  if eRel e then
    match s.heat slot with
    | none => s
    | some h =>
      match (h.vl.getD v {}).pair with
      | none => s.modHeat slot (fun h => { h with errs := h.errs + 1 })
      | some (id, half) =>
        let r := s.releaseHalf id half
        let s := if r.1 then r.2 else r.2.modHeat slot (fun h => { h with errs := h.errs + 1 })
        s.modVl slot v (fun x => { x with pair := none })
  else s

/-- Sizes of an entry's blocks: M, N, K (R705). -/
def eRows (e : List Byte) : Nat := 32 * eM e
def eCols (e : List Byte) : Nat := 32 * eN e
def eDepth (e : List Byte) : Nat := eK e * kLane (eFmtA e) (eFmtB e)

/-- Bytes of the scale array of an operand or output of `els` elements, when its format is MXFP4. -/
def scaleBytes (fmt els : Nat) : Nat := if fmt = 8 then els / 32 else 0

/-- The parameters of an entry: per tensor, or per column from PARAM_TENSOR (R107). -/
def qOf (e : List Byte) (p : Array Byte) : Nat → QPar :=
  if ePercol e then
    let l := p.toList
    fun n => colQ e l n
  else fun _ => eQ e

/-! ## The opcodes -/

/-- The tensors of an MMA entry: A, B, their scales, the bias row, the parameters. -/
def mmaTensors (e : List Byte) : List (Nat × Nat) :=
  let m := eRows e
  let n := eCols e
  let k := eDepth e
  let two (f : Nat) (c : Bool) : Nat := if c && fmtFloat f then 2 else 1
  let w := if tileFloat e then 4 else if tileWide e then 8 else 4
  [(eTA e, two (eFmtA e) (planCplx (ePlan e)) * tensorBytes (eFmtA e) m k),
   (eTB e, two (eFmtB e) (ePlan e == 4 || ePlan e == 5) * tensorBytes (eFmtB e) k n),
   (eTA e + 1, scaleBytes (eFmtA e) (m * k)), (eTB e + 1, scaleBytes (eFmtB e) (k * n)),
   (eTC e, if eBias e then (if planCplx (ePlan e) then 2 else 1) * n * w else 0),
   (ePT e, if ePercol e then 16 * n else 0)]

/-- Tiles in use on a Lane: those that drains hold and those that open blocks hold (R66 to R69). -/
def LaneX.tilesUsed (l : LaneX) : Nat := l.drains.sum + (l.acc.map (·.tiles)).sum

/-- MMA (R62 to R69, R181): refused no operand; it waits, with no effect, while its tiles are not free (R69). -/
def State.mma (s : State) (n slot v : Nat) (h : Heat) (i : Nat) (e : List Byte) : State :=
  let l := vget s.lanes n
  let prev := l.acc.find? (fun b => b.heat == slot && b.tensor == eTO e)
  let need := if prev.isSome then 0 else if eLastK e then tilesOf e else tilesOf e * (eM e * eN e)
  if l.tilesUsed + need ≤ 8 then
    let r := s.readTensors h (mmaTensors e)
    match r.1 with
    | none => r.2.lostRead slot v h (mmaTensors e)
    | some ts =>
      let s := r.2
      let x : MmaIn := ⟨ts.getD 0 #[], ts.getD 1 #[], ts.getD 2 #[], ts.getD 3 #[], ts.getD 4 #[], eRows e, eCols e, eDepth e⟩
      let acc := mmaAll e x prev
      let rest := l.acc.filter (fun b => !(b.heat == slot && b.tensor == eTO e))
      let s := if eLastK e then
          let s := s.putOut slot h e (drainAll e (eCols e) (qOf e (ts.getD 5 #[])) acc)
          { s with lanes := vmod s.lanes n (fun l => { l with acc := rest, drains := l.drains ++ [tilesOf e] }) }
        else
          let b : AccBlock := ⟨slot, eTO e, (prev.map (·.tiles)).getD need, acc.map (·.1), acc.map (·.2)⟩
          { s with lanes := vmod s.lanes n (fun l => { l with acc := rest ++ [b] }) }
      (s.relEntry slot v e).doneEntry n slot v i (!eLastK e)
  else s

/-- The shape of FIELD, REDUCE, LOOKUP and CONVERT: read the operands, compute, write, complete. -/
def State.fieldOp (s : State) (n slot v : Nat) (h : Heat) (i : Nat) (e : List Byte) (ts : List (Nat × Nat))
    (f : List (Array Byte) → Drained) : State :=
  let r := s.readTensors h ts
  match r.1 with
  | none => r.2.lostRead slot v h ts
  | some bs => ((r.2.putOut slot h e (f bs)).relEntry slot v e).doneEntry n slot v i false

/-- Operand A with its scales. -/
def tensorsA (e : List Byte) : List (Nat × Nat) :=
  let k := eRows e * eCols e
  [(eTA e, tensorBytes (eFmtA e) (eRows e) (eCols e)), (eTA e + 1, scaleBytes (eFmtA e) k)]

/-- Which FIELD functions read B, and C (Table HEA-13). -/
def fnUsesB (fn : Nat) : Bool := fn != 6 && fn != 7 && fn != 13
def fnUsesC (fn : Nat) : Bool := fn == 3 || fn == 9 || fn == 14

def fieldTensors (e : List Byte) : List (Nat × Nat) :=
  let m := eRows e
  let n := eCols e
  let b := if fnUsesB (eFn e) then 1 else 0
  let c := if fnUsesC (eFn e) then 1 else 0
  tensorsA e ++ [(eTB e, b * tensorBytes (eFmtB e) m n), (eTB e + 1, b * scaleBytes (eFmtB e) (m * n)),
    (eTC e, c * tensorBytes (eFmtA e) m n), (eTC e + 1, c * scaleBytes (eFmtA e) (m * n))]

/-! ## Rows: the opcodes -/

/-- LANE_MMA; `upsets` are words that the entry finds uncorrectable. -/
def execLaneMma (n : Fin 8) (upsets : List Nat) (s : State) : Host.Outcome State Fault Refusal :=
  .next ((s.upset upsets).issue n 1 (fun slot v h i e s => s.mma n slot v h i e))

def execLaneField (n : Fin 8) (upsets : List Nat) (s : State) : Host.Outcome State Fault Refusal :=
  .next ((s.upset upsets).issue n 2 (fun slot v h i e s => s.fieldOp n slot v h i e (fieldTensors e) (fun t =>
    fieldAll e (t.getD 0 #[]) (t.getD 1 #[]) (t.getD 2 #[]) (t.getD 3 #[]) (t.getD 4 #[]) (t.getD 5 #[]) (eRows e) (eCols e))))

def execLaneReduce (n : Fin 8) (upsets : List Nat) (s : State) : Host.Outcome State Fault Refusal :=
  .next ((s.upset upsets).issue n 3 (fun slot v h i e s => s.fieldOp n slot v h i e (tensorsA e) (fun t =>
    reduceAll e (t.getD 0 #[]) (t.getD 1 #[]) (eRows e) (eCols e))))

def execLaneLookup (n : Fin 8) (upsets : List Nat) (s : State) : Host.Outcome State Fault Refusal :=
  .next ((s.upset upsets).issue n 4 (fun slot v h i e s => s.fieldOp n slot v h i e (tensorsA e) (fun t =>
    let l := lutOf (s.imageOf h) v (eLut e)
    lookupAll e (t.getD 0 #[]) (t.getD 1 #[]) l.1 l.2.1 l.2.2 (eRows e) (eCols e))))

def execLaneConvert (n : Fin 8) (upsets : List Nat) (s : State) : Host.Outcome State Fault Refusal :=
  .next ((s.upset upsets).issue n 5 (fun slot v h i e s =>
    s.fieldOp n slot v h i e (tensorsA e ++ [(ePT e, if ePercol e then 16 * eCols e else 0)]) (fun t =>
      convertAll e (t.getD 0 #[]) (t.getD 1 #[]) (qOf e (t.getD 2 #[])) (eRows e) (eCols e))))

/-- A tensor reference of a template resolved (R178, R263): the tensor's address plus the offset, a tap tensor's offset counted
through its chunks; the device identifier of a global template is kept. -/
def Heat.resolveRef (h : Heat) (w : Nat) : Option Nat :=
  let rec go : List (Nat × Nat) → Nat → Option Nat
    | [], _ => none
    | (a, l) :: r, off => if off < l || r.isEmpty then some (a + off) else go r (off - l)
  (go (h.tensorLoc (w % 65536)) (bitsOf w 16 30)).map (fun a => a % 2 ^ 46 + bitsOf w 46 18 * 2 ^ 46)

/-- STREAM (R119, R178): the template resolved, that of a chain too (its resolved DST_ADDR is then checked by R117), issued on this Lane's engine with the
entry's token number. A template whose reference does not resolve ends with BAD_FIELD. While no in-flight entry is free the Lane stops here (R125). -/
def State.streamOp (s : State) (n slot v : Nat) (h : Heat) (i : Nat) (e : List Byte) : State :=
  let t := (progTemplates (s.imageOf h)).getD (eDesc e) []
  let src := h.resolveRef (rec64 t 0)
  let dst := h.resolveRef (rec64 t 8)
  match src, dst with
  | some a, some b =>
    let d := leBytes 8 a ++ leBytes 8 b ++ slice t 16 42 ++ leBytes 2 (eTok e) ++ slice t 60 4
    let id := s.xferNext
    let s := s.modHeat slot (fun h => { h with tokens := h.tokens.filter (fun p => p.1 != eTok e)
                                               lastRel := h.lastRel.filter (fun p => p.1 != eTok e) })
    let s := s.issueXfer n h.user (.heat slot v) (h.finish != 0) d none
    -- copies that R660 lets the device fetch again
    let s := s.modHeat slot (fun h =>
      if dKind d = 1 then { h with batons := h.batons ++ [(eTok e, dDst d % 2 ^ 24, dTotal d)] }
      else if decide (lpBase ≤ dSrc d % 2 ^ 46) || h.binds.any (fun b => rec8 b 3 == 0 &&
          (h.locs.getD (rec64 t 0 % 65536) []).any (fun p => rec8 b 2 == 1 && p.1 == recF b 8 0 46 ||
            rec8 b 2 == 0 && s.handleMem (rec32 b 8) == some p)) then
        { h with refetch := h.refetch ++ dstExtents d }
      else h)
    match s.xfer? id with
    | some x => if x.st = .queued then s.hold slot v 6 else s.doneEntry n slot v i false
    | none => s.doneEntry n slot v i false
  | _, _ =>
    let s := s.modHeat slot (fun h => { h with
      tokens := (h.tokens.filter (fun p => p.1 != eTok e)) ++ [(eTok e, ⟨s.tk.ns, Sc.badField, 0, 0, true, 0, 0, 0⟩)] })
    s.doneEntry n slot v i false

/-- LANE_STREAM: issues the transfer; on a Lane stopped at the entry it completes once its transfer is admitted. -/
def execLaneStream (n : Fin 8) (s : State) : Host.Outcome State Fault Refusal :=
  .next (s.issue n 6 (fun slot v h i e s =>
    if (h.vl.getD v {}).isHeld then
      if s.xfers.any (fun x => x.issuer == .heat slot v && x.st == .queued) then s else s.doneEntry n slot v i false
    else s.streamOp n slot v h i e))

/-- How many chunk records of a token a virtual Lane's WAITs have taken. -/
def Heat.taken (h : Heat) (tok : Nat) : Nat := ((h.lastRel.find? (fun p => p.1 == tok)).map (·.2)).getD 0

/-- WAIT (Table HEA-7): the token final, or with REL its next chunk record. A token that ends other than OK ends the work
(R544's rule for a failed wait; notes/assumptions/9.md). -/
def State.waitOp (s : State) (n slot v : Nat) (h : Heat) (i : Nat) (e : List Byte) : State :=
  match h.tokens.find? (fun p => p.1 == eTok e) with
  | none => s.hold slot v 7
  | some (_, t) =>
    let k := h.taken (eTok e)
    -- chunks recorded so far: chunk numbers 0 to t.chunk
    if eRel e && decide (k ≤ t.chunk) && (!t.final || decide (k < t.chunk)) then
      let id := ((s.heatXfers slot).find? (fun x => dToken x.desc == eTok e)).map (·.id)
      let s := s.modHeat slot (fun h => { h with
        lastRel := (h.lastRel.filter (fun p => p.1 != eTok e)) ++ [(eTok e, k + 1)] })
      let s := s.modVl slot v (fun x => { x with pair := id.map (fun j => (j, k % 2)) })
      s.doneEntry n slot v i false
    else if t.final then
      if t.status = Sc.ok then s.doneEntry n slot v i false
      else s.heatFail slot v t.status
    else s.hold slot v 7

/-- LANE_WAIT: the entry issues, or is examined again while it holds the Lane. -/
def execLaneWait (n : Fin 8) (s : State) : Host.Outcome State Fault Refusal :=
  .next (s.issue n 7 (fun slot v h i e s => s.waitOp n slot v h i e))

/-- The tap that an entry belongs to: the tap bound with its SEG. -/
def Heat.tapOf (h : Heat) (e : List Byte) : Option Nat :=
  (List.range 3).find? (fun t => (h.tap t).st != .unbound && (h.tap t).seg == eSeg e)

/-- LANE_TAP_IN (R264): the entry completes when the tap's input tensor is ready. -/
def execLaneTapIn (n : Fin 8) (s : State) : Host.Outcome State Fault Refusal :=
  .next (s.issue n 8 (fun slot v h i e s =>
    match h.tapOf e with
    | some t =>
      let s := s.trackAdvance slot
      if ((s.heat slot).map (fun h => (h.tap t).inReady)).getD false then s.doneEntry n slot v i false else s.hold slot v 8
    | none => s.doneEntry n slot v i false))

/-- LANE_TAP_OUT (R184, R265, R268): once the Heat's writes to the output tensor have taken effect, the learned result is
present when the split time has not come; else it is discarded and counted. -/
def execLaneTapOut (n : Fin 8) (s : State) : Host.Outcome State Fault Refusal :=
  .next (s.issue n 9 (fun slot v h i e s =>
    match h.tapOf e with
    | none => s.doneEntry n slot v i false
    | some t =>
      let outs := (h.tap t).outBufs.filterMap s.handleMem
      if (s.heatXfers slot).any (fun x => dKind x.desc == 0 && (dstExtents x.desc).any (fun d =>
          outs.any (fun o => !disjoint d (o.1, (o.1 + o.2 : Nat) - 1)))) then s
      else if (h.tap t).st = .open_ && decide (s.tk.ns < h.split t || h.split t = 0) then
        ((s.setHeat slot (h.setTap t (fun x => { x with st := .learned }))).doneEntry n slot v i false).trackAdvance slot
      else (s.incRg R.TRK_LATE_DISCARD_LATE_DISCARD h.carrier).doneEntry n slot v i false))

/-- LANE_END: the virtual Lane's work for the Heat ends, at an END entry or past the last entry. -/
def execLaneEnd (n : Fin 8) (s : State) : Host.Outcome State Fault Refusal :=
  match s.cand n with
  | none => .next s
  | some (slot, v, h) =>
    let at_ := h.nextEntry (s.imageOf h) v
    .next (if at_.all (fun p => eOp p.2 == 0) then
      let s := s.modVl slot v (fun x => { x with pc := (at_.map (·.1)).getD x.pc + 1, run := .ended })
      (s.modHeat slot (fun h => { h with wdFrom := s.tk.localNs })).unbindLane n slot
    else s)

/-! ## Rows: Lane states (Table LNE-7) -/

/-- LANE_UNGATE: work placed on a GATED Lane that was not masked at the Heat's admission ungates it; its Field tables are
restored. -/
def execLaneUngate (n : Fin 8) (s : State) : Host.Outcome State Fault Refusal :=
  if s.rg R.LANE_STAT_STATE n = 0 then
    let work := s.heatList.find? (fun p => p.2.live && p.2.mask.testBit n &&
      (List.range p.2.vl.length).any (fun v => s.laneOf p.2 v == n && (p.2.vl.getD v {}).run == .ready))
    match work with
    | some (_, h) => .next ({ s with lanes := vmod s.lanes n (fun l => { l with tables := some h.prog, idleSince := s.tk.localNs }) }.setRg
        R.LANE_STAT_STATE 1 n)
    | none => .next s
  else .next s

/-- LANE_IDLE_GATE: a Lane IDLE for 1 ms with no Heat bound is power-gated while IDLE_GATE is 1. -/
def execLaneIdleGate (n : Fin 8) (s : State) : Host.Outcome State Fault Refusal :=
  if s.rg R.LANE_STAT_STATE n = 1 && s.flag R.LANE_CTL_IDLE_GATE && !s.flag R.LANE_STAT_BOUND n then
    let s := s.since (vget s.lanes n).idleSince 1000000
    .next ((s.setRg R.LANE_STAT_STATE 0 n).setRg R.SPLIT_STAT_VALID 0 n)
  else .next s

/-- LANE_FAULT (R83): a parity or residue fault with cause 2 + `kind` of Table LNE-8. -/
def execLaneFault (n : Fin 8) (kind : Fin 4) (s : State) : Host.Outcome State Fault Refusal :=
  .next (s.laneFault n (kind + 2))

/-- LANE_AUTO_RESET: a FAULTED Lane that is not held starts its reset. -/
def execLaneAutoReset (n : Fin 8) (s : State) : Host.Outcome State Fault Refusal :=
  .next (if s.rg R.LANE_STAT_STATE n = 3 && !s.flag R.LANE_STAT_HELD n then s.laneReset n else s)

/-- A requested lane reset of one Lane: a held Lane is released, and work of a Heat on it is lost as to a Lane fault. -/
def State.laneRst (s : State) (n : Nat) : State :=
  let bound := s.flag R.LANE_STAT_BOUND n && s.rg R.LANE_STAT_STATE n == 2
  let slot := s.rg R.LANE_STAT_HEAT n
  let chains := if s.rg R.LANE_STAT_STATE n == 4 then [] else s.headedBy n
  let s := (s.setRg R.LANE_STAT_HELD 0 n).laneReset n
  let s := if bound then
    match s.heat slot with
    | some h => match (List.range h.vl.length).find? (fun v => s.laneOf h v == n) with
      | some v => s.heatLoss slot v
      | none => s
    | none => s
  else s
  chains.foldl State.batonRepair s

/-- LANE_RST (R84): a write to LANE_RST. -/
def execLaneRst (lanes : BitVec 8) (s : State) : Host.Outcome State Fault Refusal :=
  .next ((List.range 8).foldl (fun s n => if lanes.getLsbD n then s.laneRst n else s) s)

/-- LANE_RESET_DONE: RESETTING to IDLE. -/
def execLaneResetDone (n : Fin 8) (s : State) : Host.Outcome State Fault Refusal :=
  .next (if s.rg R.LANE_STAT_STATE n = 4 then
      { s with lanes := vmod s.lanes n (fun l => { l with idleSince := s.tk.localNs }) }.setRg R.LANE_STAT_STATE 1 n
    else s)

/-- LANE_DRAIN_DONE (R68): the oldest drain ends and its tiles are free. -/
def execLaneDrainDone (n : Fin 8) (s : State) : Host.Outcome State Fault Refusal :=
  .next { s with lanes := vmod s.lanes n (fun l => { l with drains := l.drains.drop 1 }) }

end Sys2Proof.Machine
end

