-- ==== Sys2Proof/Machine/Sync.lean ====
section
/-! DEFINITION. Fences, signals and the Starter (R538 to R556): the SYNC entry, the barrier counters and their messages; and a Byklink target's side
of the tagged operations (R570, R573). -/

namespace Sys2Proof.Machine

/-! ## The target of tagged operations (R570, R573, R574) -/

/-- The device's own epoch. -/
def State.epoch (s : State) : Nat := s.rg R.BYK_STAT_EPOCH

/-- What a target does with a tagged operation (R570, R573): the next in sequence is applied, one already applied is acknowledged again, one past
a gap is dropped and asks for a resynchronisation; another epoch is answered with RESET_LOST, and a device that is not ready answers NOT_READY. `ack` sends the
acknowledgement with a status. -/
def State.tagged (s : State) (src seq epoch : Nat) (apply : State → State) (ack : Nat → State → State) : State :=
  if epoch ≠ s.epoch then ack Sc.resetLost s
  else if !s.flag R.BYK_CFG_READY then ack Sc.notReady s
  else
    let last := (s.peer src).lastAcc
    if seq = seqNext last then ack Sc.ok (apply (s.modPeer src (fun p => { p with lastAcc := seq })))
    else if seqAfter seq last then s.bykSend src 10 [2, (s.peer src).epoch] 0
    else ack Sc.ok s

/-- A TAG_ACK for an OPSEQ. -/
def tagAck (src seq status : Nat) (s : State) : State := s.bykSend src 4 [seq, status] 0

/-! ## Fields of a SYNC entry (Table SYN-3) -/

def yScope (e : List Byte) : Nat := recF e 24 0 2
def yDev (e : List Byte) : Nat := recF e 24 2 6
def yBarrier (e : List Byte) : Nat := recF e 25 0 7
def yGlobal (e : List Byte) : Bool := recF e 25 7 1 == 1
def yTensor (e : List Byte) : Nat := rec16 e 26
def yExpect (e : List Byte) : Nat := rec16 e 26
def yOff (e : List Byte) : Nat := rec32 e 28
def yValue (e : List Byte) : Nat := rec64 e 32

/-- The address at an offset of a tensor's pieces. -/
def locAt : List (Nat × Nat) → Nat → Option Nat
  | [], _ => none
  | (a, l) :: r, off => if off < l then some (a + off) else locAt r (off - l)

/-- The signal's local address (R547): all 8 bytes lie in its tensor. -/
def Heat.signal (h : Heat) (e : List Byte) : Option Nat :=
  let loc := h.tensorLoc (yTensor e)
  match locAt loc (yOff e), locAt loc (yOff e + 7) with
  | some a, some b => if b = a + 7 then some a else none
  | _, _ => none

/-! ## Fences (R539) -/

/-- The class of a write to an address field: 1 DEVICE, 2 HOST, 3 SYSTEM. -/
def writeClass (a : Nat) (global : Bool) : Nat :=
  if global then 3 else if windowBase ≤ a % 2 ^ 46 ∧ a % 2 ^ 46 < 0x30_0000_0000 then 2 else 1

/-- Whether a fence of a scope is complete for a virtual Lane: each transfer it issued whose writes the scope reaches is DONE. -/
def State.fenced (s : State) (slot v scope : Nat) : Bool :=
  s.xfers.all (fun x => !(x.issuer == .heat slot v) || decide (scope < writeClass (dDst x.desc) (dDstGlobal x.desc)))

/-- What a virtual Lane holds its Lane for in a SYNC entry: 10 a fence, 11 a signal, 12 a release. -/
def VLane.heldFor (x : VLane) (why : Nat) : Bool := match x.run with | .held w _ => w == why | _ => false

/-- The virtual Lane holds its Lane for a reason of its own, from now on. -/
def State.holdFor (s : State) (slot v why : Nat) : State :=
  s.modVl slot v (fun x => if x.heldFor why then x else { x with run := .held why s.tk.localNs })

/-- Run the SYNC entry of a function that a Lane is at. -/
def State.sync (s : State) (n fn : Nat) (f : Nat → Nat → Heat → Nat → List Byte → State → State) : State :=
  s.issue n 10 (fun slot v h i e s' => if eFn e = fn then f slot v h i e s' else s)

/-- After the entry's own fence (none with SCOPE 0), go on. -/
def State.afterFence (s : State) (slot v : Nat) (e : List Byte) (k : State → State) : State :=
  if yScope e = 0 || s.fenced slot v (yScope e) then k s else s.holdFor slot v 10

/-- SYNC_FENCE (R539). -/
def execSyncFence (n : Fin 8) (s : State) : Host.Outcome State Fault Refusal :=
  .next (s.sync n 0 (fun slot v _ i e s => s.afterFence slot v e (fun s => s.doneEntry n slot v i false)))

/-! ## Signals (R542 to R544) -/

/-- The Heat has emitted a signal or an arrival: it is never re-run. -/
def State.emits (s : State) (slot : Nat) : State := s.modHeat slot (fun h => { h with emitted := true })

/-- A request of a Lane to a device that is not ready ends its work with NOT_READY (R571). -/
def State.syncNotReady (s : State) (slot v d : Nat) : State := (s.noteNotReady d).heatFail slot v Sc.notReady

/-- SYNC_SIGNAL_SET (R543): one 8-byte write, sent to a peer as a tagged WRITE. -/
def execSyncSignalSet (n : Fin 8) (s : State) : Host.Outcome State Fault Refusal :=
  .next (s.sync n 1 (fun slot v h i e s => s.afterFence slot v e (fun s =>
    let a := (h.signal e).getD 0
    let b := leBytes 8 (yValue e)
    if yGlobal e && yDev e != s.dev then
      if s.bykNotReady (yDev e) then s.syncNotReady slot v (yDev e)
      else ((s.tagIssue (yDev e) { op := 3, addr := a, data := b, for_ := .nobody }).emits slot).doneEntry n slot v i false
    else ((s.deliver h.user a b).emits slot).doneEntry n slot v i false)))

/-- SYNC_SIGNAL_ADD (R543): atomic at the memory that holds the signal, sent to a peer as a tagged ADD. -/
def execSyncSignalAdd (n : Fin 8) (s : State) : Host.Outcome State Fault Refusal :=
  .next (s.sync n 2 (fun slot v h i e s => s.afterFence slot v e (fun s =>
    let a := (h.signal e).getD 0
    if yGlobal e && yDev e != s.dev then
      if s.bykNotReady (yDev e) then s.syncNotReady slot v (yDev e)
      else ((s.tagIssue (yDev e) { op := 5, addr := a, data := leBytes 8 (yValue e), for_ := .nobody }).emits slot).doneEntry n slot v i false
    else match s.readMem a 8 with
      | (some b, s) => ((s.write a (leBytes 8 (leNat b + yValue e))).emits slot).doneEntry n slot v i false
      | (none, s) => s.lostRead slot v h [(yTensor e, 8)])))

/-- One examination of the signal that a Lane waits on (R544). -/
def State.examine (s : State) (n slot v : Nat) (h : Heat) (i : Nat) (e : List Byte) : State :=
  match s.readMem ((h.signal e).getD 0) 8 with
  | (some b, s) => if yValue e ≤ leNat b then s.doneEntry n slot v i false else s.holdFor slot v 11
  | (none, s) => s.lostRead slot v h [(yTensor e, 8)]

/-- SYNC_WAIT (R544). -/
def execSyncWait (n : Fin 8) (s : State) : Host.Outcome State Fault Refusal :=
  .next (s.sync n 3 (fun slot v h i e s => s.examine n slot v h i e))

/-- SIGNAL_WAIT_SATISFIED (R544): the re-examination after a write to the signal's granule. -/
def execSignalWaitSatisfied (n : Fin 8) (s : State) : Host.Outcome State Fault Refusal :=
  .next (s.sync n 3 (fun slot v h i e s =>
    if (h.vl.getD v {}).heldFor 11 then s.examine n slot v h i e else s))

/-- SIGNAL_WAIT_TIMEOUT (R544): a WAIT of 64 × WD_US fails; the Heat, or its stage, ends ABORTED. -/
def execSignalWaitTimeout (n : Fin 8) (s : State) : Host.Outcome State Fault Refusal :=
  .next (s.sync n 3 (fun slot v h _ _ s =>
    match (h.vl.getD v {}).run with
    | .held 11 t => ((((s.since t (64 * h.wdUs * 1000)).incRg R.SYN_CNT_WAIT_TMO).ev .SYN_WAIT_TMO n).heatFail slot v Sc.aborted)
    | _ => s))

/-! ## The Starter (R551, R552) -/

def State.bar (s : State) (b : Nat) : Barrier := vget s.starter b
def State.modBar (s : State) (b : Nat) (f : Barrier → Barrier) : State := { s with starter := vmod s.starter b f }

/-- The barrier timeout in force: 0 reads as 100. -/
def State.barTmoMs (s : State) : Nat := if s.rg R.SYN_CTL_BAR_TMO_MS = 0 then 100 else s.rg R.SYN_CTL_BAR_TMO_MS

/-- A counter's state, kept with the number of counters in FILLING. -/
def State.barState (s : State) (b v : Nat) : State :=
  let s := s.setRg R.SYN_BAR_STATE v b
  s.setRg R.SYN_STAT_FILLING ((List.range 128).filter (fun i => s.rg R.SYN_BAR_STATE i == 1)).length

/-- The next generation, with no arrival (Table SYN-4). -/
def State.barNext (s : State) (b : Nat) : State :=
  (((s.setRg R.SYN_BAR_GEN (s.rg R.SYN_BAR_GEN b + 1) b).setRg R.SYN_BAR_COUNT 0 b).modBar b (fun _ => {})).barState b 0

/-- A member Lane's share in the counters: the Starter and counter it last arrived at, and the releases still to come; from 2^16 on, the
status of a break (notes/assumptions/24.md). -/
def VLane.member (x : VLane) (d b : Nat) : Bool := match x.gen with | some (d', b', k) => d' == d && b' == b && k != 0 && decide (k < 65536) | _ => false

/-- A Lane that waits for a release goes on, or fails, once its generation is settled. -/
def State.settle (s : State) (slot v : Nat) : State :=
  match s.heat slot with
  | none => s
  | some h =>
    let x := h.vl.getD v {}
    if x.heldFor 12 then
      match x.gen, h.nextEntry (s.imageOf h) v with
      | some (_, _, k), some (i, _) =>
        if k = 0 then s.doneEntry (s.laneOf h v) slot v i false
        else if 65536 ≤ k then s.heatFail slot v (k - 65536)
        else s
      | _, _ => s
    else s

/-- Every member Lane of a counter changed, and those that wait settled. -/
def State.members (s : State) (d b : Nat) (f : Nat → Nat) : State :=
  s.heatList.foldl (fun s p =>
    (List.range p.2.vl.length).foldl (fun s v =>
      if (p.2.vl.getD v {}).member d b then
        (s.modVl p.1 v (fun x => { x with gen := x.gen.map (fun g => (g.1, g.2.1, f g.2.2)) })).settle p.1 v
      else s) s) s

/-- A release reaches this device's Lanes; a break reaches them with its status. -/
def State.freeLanes (s : State) (d b : Nat) : State := s.members d b (· - 1)
def State.breakLanes (s : State) (d b status : Nat) : State := s.members d b (fun _ => 65536 + status)

/-- A release (SUB 6) or a break (SUB 7) sent to the other devices of a generation, in ascending order. -/
def State.tellDevices (s : State) (b sub status : Nat) : State :=
  let body := leBytes 1 b ++ leBytes 1 (s.rg R.SYN_BAR_GEN b) ++ leBytes 2 (s.rg R.SYN_BAR_EXPECT b) ++ leBytes 2 status
  (List.range 64).foldl (fun s d =>
    if (s.bar b).devs.contains d && d != s.dev then s.tagIssue d { op := 16 + sub, addr := 0, data := body, for_ := .nobody } else s) s

/-- A generation breaks (Table SYN-4): logged and counted, the local Lanes first. -/
def State.breakBar (s : State) (b status : Nat) : State :=
  let s := (s.ev .SYN_BREAK b [s.rg R.SYN_BAR_GEN b, status, s.rg R.SYN_BAR_COUNT b, s.rg R.SYN_BAR_EXPECT b]).incRg R.SYN_STAT_BREAKS
  let s := s.breakLanes s.dev b status
  let s := s.tellDevices b 7 status
  (s.modBar b (fun x => { x with since := s.tk.localNs, status := status })).barState b 2

/-- COUNT has reached EXPECT: the generation is released. -/
def State.releaseBar (s : State) (b : Nat) : State := ((s.freeLanes s.dev b).tellDevices b 6 Sc.ok).barNext b

/-- An arrival from a device (Table SYN-4). -/
def State.arriveAt (s : State) (d b expect : Nat) : State :=
  match s.rg R.SYN_BAR_STATE b with
  | 0 =>
    let s := ((s.setRg R.SYN_BAR_EXPECT expect b).setRg R.SYN_BAR_COUNT 1 b).modBar b (fun _ => { devs := [d], since := s.tk.localNs })
    if expect = 1 then s.releaseBar b else s.barState b 1
  | 1 =>
    let s := s.modBar b (fun x => { x with devs := if x.devs.contains d then x.devs else x.devs ++ [d] })
    if expect = s.rg R.SYN_BAR_EXPECT b then
      let s := s.setRg R.SYN_BAR_COUNT (s.rg R.SYN_BAR_COUNT b + 1) b
      if s.rg R.SYN_BAR_COUNT b = expect then s.releaseBar b else s
    else s.breakBar b Sc.aborted
  | _ =>
    let st := (s.bar b).status
    if d = s.dev then s
    else s.tagIssue d { op := 23, addr := 0, for_ := .nobody
                        data := leBytes 1 b ++ leBytes 1 (s.rg R.SYN_BAR_GEN b) ++ leBytes 2 expect ++ leBytes 2 st }

/-- A virtual Lane arrives at a counter, of this device or by message. -/
def State.arrival (s : State) (slot v : Nat) (e : List Byte) : State :=
  let d := yDev e
  let b := yBarrier e
  let s := (s.emits slot).modVl slot v (fun x => { x with gen := some (d, b, match x.gen with
    | some (d', b', k) => if d' = d && b' = b && decide (k < 65535) then k + 1 else 1
    | none => 1) })
  if d = s.dev then
    if s.rg R.SYN_BAR_STATE b = 2 then s.heatFail slot v (s.bar b).status else s.arriveAt d b (yExpect e)
  else s.tagIssue d { op := 21, addr := 0, for_ := .nobody
                      data := leBytes 1 b ++ leBytes 1 0 ++ leBytes 2 (yExpect e) ++ leBytes 2 0 }

/-- SYNC_ARRIVE: an arrival without waiting. -/
def execSyncArrive (n : Fin 8) (s : State) : Host.Outcome State Fault Refusal :=
  .next (s.sync n 4 (fun slot v _ i e s => s.afterFence slot v e (fun s =>
    if yDev e != s.dev && s.bykNotReady (yDev e) then s.syncNotReady slot v (yDev e)
    else (s.doneEntry n slot v i false).arrival slot v e)))

/-- SYNC_BARRIER: an arrival, then the wait for its release. -/
def execSyncBarrier (n : Fin 8) (s : State) : Host.Outcome State Fault Refusal :=
  .next (s.sync n 5 (fun slot v h _ e s =>
    if (h.vl.getD v {}).heldFor 12 then s
    else s.afterFence slot v e (fun s =>
      if yDev e != s.dev && s.bykNotReady (yDev e) then s.syncNotReady slot v (yDev e)
      else ((s.holdFor slot v 12).arrival slot v e).settle slot v)))

/-- SYNC_AWAIT: the wait for the release of the generation last arrived at. -/
def execSyncAwait (n : Fin 8) (s : State) : Host.Outcome State Fault Refusal :=
  .next (s.sync n 6 (fun slot v _ _ _ s => (s.holdFor slot v 12).settle slot v))

/-- ARRIVE (R577): an arrival from another device. -/
def execArrive (src : Fin 64) (seq epoch : Nat) (barrier : Fin 128) (expect : Nat) (s : State) : Host.Outcome State Fault Refusal :=
  .next (s.tagged src seq epoch (fun s => s.arriveAt src barrier (expect % 1024)) (tagAck src seq))

/-- RELEASE (R552): the Lanes that arrived at the sender's counter are freed. -/
def execRelease (src : Fin 64) (seq epoch : Nat) (barrier : Fin 128) (s : State) : Host.Outcome State Fault Refusal :=
  .next (s.tagged src seq epoch (fun s => s.freeLanes src barrier) (tagAck src seq))

/-- BREAK (R552): their Heats end with the break's status. -/
def execBreak (src : Fin 64) (seq epoch : Nat) (barrier : Fin 128) (status : BitVec 16) (s : State) : Host.Outcome State Fault Refusal :=
  .next (s.tagged src seq epoch (fun s => s.breakLanes src barrier status.toNat) (tagAck src seq))

/-- BARRIER_TIMEOUT (R551): BAR_TMO_MS after the first arrival, a FILLING counter of this device breaks with ABORTED. For a counter of another device that
has had no route for as long, this device's arrivals and awaits fail with LINK_LOST. -/
def execBarrierTimeout (d : Fin 64) (b : Fin 128) (s : State) : Host.Outcome State Fault Refusal :=
  .next (
    if d.val = s.dev then
      if s.rg R.SYN_BAR_STATE b = 1 then (s.since (s.bar b).since (s.barTmoMs * 1000000)).breakBar b Sc.aborted else s
    else match (s.peer d).lost with
      | some t => (s.since t (s.barTmoMs * 1000000)).breakLanes d b Sc.linkLost
      | none => s)

/-- BARRIER_BROKEN_RESET (R551): BAR_TMO_MS after the break the counter starts its next generation. -/
def execBarrierBrokenReset (b : Fin 128) (s : State) : Host.Outcome State Fault Refusal :=
  .next (if s.rg R.SYN_BAR_STATE b = 2 then (s.since (s.bar b).since (s.barTmoMs * 1000000)).barNext b else s)

/-- A device has become unreachable (R551, R577): generations that it belongs to break with LINK_LOST, and the Lanes of this device that wait on its
Starter fail. -/
def State.siteLost (s : State) (d : Nat) : State :=
  let s := (List.range 128).foldl (fun s b =>
    if s.rg R.SYN_BAR_STATE b = 1 && (s.bar b).devs.contains d then s.breakBar b Sc.linkLost else s) s
  (List.range 128).foldl (fun s b => s.breakLanes d b Sc.linkLost) s

end Sys2Proof.Machine
end

