-- ==== Sys2Proof/Machine/BykLink.lean ====
section
/-! DEFINITION. Byklink ports and their states (R564, R567 to R571), lost and returning routes (R561, R572, R575), tagged operations as the initiator
resolves them (R573 to R576). -/

namespace Sys2Proof.Machine

/-! ## Operations resolved -/

/-- A tagged operation resolved with a status: the transfer or block that waits for it goes on. A block answered with BAD_FIELD is freed at once (R579). -/
def State.resolveTag (s : State) (d : Nat) (o : TagOp) (status : Nat) : State :=
  match o.for_ with
  | .nobody => s
  | .xfer id =>
    let s := s.modXfer id (fun x => { x with
      acks := x.acks - 1, ackFail := if x.ackFail = 0 then status else x.ackFail })
    match s.xfer? id with
    | some x => match x.ended with
      | some st => if x.acks = 0 then s.endXfer id (if x.ackFail = 0 then st else x.ackFail) else s
      | none => s
    | none => s
  | .block id =>
    match s.byk.blocks.find? (fun b => b.id == id) with
    | none => s
    | some b =>
      let drop (s : State) : State := { s.freeAll 45 b.bufs with byk := { s.byk with blocks := s.byk.blocks.filter (fun x => x.id != id) } }
      if status = Sc.badField then (drop s).ev .BYK_BLOCK_REFUSED b.carrier [d, rec16 b.hdr 2]
      else if b.left ≤ 1 then drop s
      else { s with byk := { s.byk with blocks := s.byk.blocks.map (fun x => if x.id = id then { x with left := x.left - 1 } else x) } }

/-- Every operation to a device that is not resolved completes with a status. -/
def State.resolveAll (s : State) (d status : Nat) : State :=
  let p := s.peer d
  (p.ops ++ p.waiting).foldl (fun s o => s.resolveTag d o status) (s.modPeer d (fun p => { p with ops := [], waiting := [] }))

/-! ## Routes that are lost and return (R561, R572, R575) -/

/-- Remote reads from a device that have not been answered fail with LINK_LOST (R572), and relays whose next hop it is end there (R136). -/
def State.failRemote (s : State) (d : Nat) : State :=
  let ids := (s.byk.reads.filter (fun r => r.dev == d && r.got.isNone)).map (·.xfer)
  let s := ids.foldl (fun s id => s.endXfer id Sc.linkLost) s
  (s.xfers.filter (fun x => x.relayWait)).foldl (fun s x =>
    match (s.relayOf x)[x.hop]? with
    | some hop =>
      if recF hop 0 0 6 = d then
        (s.modXfer x.id (fun x => { x with relayStatus := Sc.linkLost, relayHop := x.hop + 1 })).endXfer x.id (chainStatus x)
      else s
    | none => s) s

/-- The resynchronisation exchange with a device starts (R575). -/
def State.startResync (s : State) (d : Nat) : State :=
  (s.modPeer d (fun p => { p with resync := true })).bykSend d 10 [2, (s.peer d).epoch] 0

/-- A device's route is lost: RESYNC_MS starts. -/
def State.routeLost (s : State) (d : Nat) : State :=
  (s.failRemote d).modPeer d (fun p => { p with lost := if p.lost.isNone then some s.tk.localNs else p.lost })

/-- A route to a device exists again. -/
def State.routeBack (s : State) (d : Nat) : State :=
  let p := s.peer d
  let s := s.modPeer d (fun p => { p with lost := none })
  if p.lost.isSome && p.heard then (s.incRg R.FLT_CNT_COVERED).startResync d else s.tagFlow d

/-- A change that may move routes, then what it means for each device of the installation. -/
def State.withRoutes (s : State) (f : State → State) : State :=
  let was := (List.range 64).map s.route
  (List.range 64).foldl (fun s d =>
    match was.getD d none, s.route d with
    | some q, some r => if q = r then s else (s.routeLost d).routeBack d
    | some _, none => s.routeLost d
    | none, some _ => s.routeBack d
    | none, none => s) (f s)

/-! ## Ports (Table BYK-6) -/

/-- A port enters a state other than UP, its training begun afresh. -/
def State.portTo (s : State) (q v : Nat) : State :=
  (s.withRoutes (fun s => s.setRg R.BYK_PORT_STATE v q)).modBport q (fun _ => { attempts := 1, sub := 1, since := s.tk.localNs })

/-- The link leaves UP: a time source taken from it is lost (Table TKP-1). -/
def State.linkLeaves (s : State) (q v : Nat) : State :=
  let s := s.portTo q v
  if s.rg R.TK_CTL_BYK_PORT = q then s.srcLost 4 else s

/-- FAULTED with a cause. -/
def State.portFault (s : State) (q cause : Nat) : State :=
  (((s.portTo q 6).setRg R.BYK_PORT_CAUSE cause q).ev .BYK_FAULT q).bykIrq

/-- UP to RETRAIN. -/
def State.portRetrain (s : State) (q : Nat) : State :=
  if s.portUp q then ((((s.linkLeaves q 5).incRg R.BYK_PORT_RETRAIN q).ev .BYK_DOWN q)).bykIrq else s

/-- A PORT_EN bit set: training starts where TOPO names a neighbour. -/
def State.portEnable (s : State) (q : Nat) : State :=
  if s.rgBit R.BYK_CTL_PORT_EN q then s
  else
    let s := s.putRgBit R.BYK_CTL_PORT_EN q true
    if s.rg R.BYK_PORT_STATE q = 0 && (s.neighbour q).isSome then (s.portTo q 1).setRg R.BYK_PORT_CAUSE 0 q else s

/-- A PORT_EN bit cleared. -/
def State.portDisable (s : State) (q : Nat) : State :=
  if s.rgBit R.BYK_CTL_PORT_EN q then
    let s := s.putRgBit R.BYK_CTL_PORT_EN q false
    if s.portUp q then s.linkLeaves q 0 else s.portTo q 0
  else s

/-- A LINK_RST bit written. -/
def State.linkRst (s : State) (q : Nat) : State :=
  if s.rg R.BYK_PORT_STATE q = 6 then (s.portTo q 1).setRg R.BYK_PORT_CAUSE 0 q else s

def execBykPortEnable (q : Fin 4) (s : State) : Host.Outcome State Fault Refusal := .next (s.portEnable q)
def execBykPortDisable (q : Fin 4) (s : State) : Host.Outcome State Fault Refusal := .next (s.portDisable q)
def execBykLinkRst (q : Fin 4) (s : State) : Host.Outcome State Fault Refusal := .next (s.linkRst q)

/-- BYK_LANES_EQUALISED: TRAINING to ALIGN, in RETRAIN too. -/
def execBykLanesEqualised (q : Fin 4) (s : State) : Host.Outcome State Fault Refusal :=
  .next (match s.rg R.BYK_PORT_STATE q with
    | 1 => s.setRg R.BYK_PORT_STATE 2 q
    | 5 => if (s.bport q).sub = 1 then s.modBport q (fun p => { p with sub := 2 }) else s
    | _ => s)

/-- BYK_TRAINING_TIMEOUT: 100 ms of an attempt have passed; the third faults the port with cause 1. -/
def execBykTrainingTimeout (q : Fin 4) (s : State) : Host.Outcome State Fault Refusal :=
  .next (if s.rg R.BYK_PORT_STATE q = 1 || (s.rg R.BYK_PORT_STATE q = 5 && (s.bport q).sub = 1) then
      let s := s.since (s.bport q).since 100000000
      if (s.bport q).attempts < 3 then s.modBport q (fun p => { p with attempts := p.attempts + 1, since := s.tk.localNs })
      else s.portFault q 1
    else s)

/-- BYK_ALIGN_DONE: FEC lock and lane deskew; HELLO is sent. -/
def execBykAlignDone (q : Fin 4) (s : State) : Host.Outcome State Fault Refusal :=
  .next (match s.rg R.BYK_PORT_STATE q with
    | 2 => (s.setRg R.BYK_PORT_STATE 3 q).sendHello q
    | 5 => if (s.bport q).sub = 2 then (s.modBport q (fun p => { p with sub := 3 })).sendHello q else s
    | _ => s)

/-- BYK_LINK_LOSS: loss of lane lock. -/
def execBykLinkLoss (q : Fin 4) (s : State) : Host.Outcome State Fault Refusal := .next (s.portRetrain q)

/-! ## Parcels (R563, R564) -/

/-- The sender resends from the first parcel not acknowledged; after 8 resends in a row without progress the port retrains. -/
def State.resend (s : State) (q : Nat) : State :=
  if 8 ≤ (s.bport q).resends then s.portRetrain q
  else ((s.modBport q (fun p => { p with resends := p.resends + 1, sentAt := s.tk.localNs })).incRg R.BYK_PORT_REPLAY q).emit
    (.port "byk_replay" q [(s.bport q).unacked])

/-- Parcels acknowledged up to a number. -/
def State.parcelAck (s : State) (q ackSeq : Nat) : State :=
  s.modBport q (fun p =>
    let left := (p.tx + 4096 - (ackSeq + 1) % 4096) % 4096
    if left < p.unacked then { p with unacked := left, resends := 0, sentAt := s.tk.localNs } else p)

/-- BYK_PARCEL_RECEIVE: a parcel with its trailer; `corr` and `unc` are the codewords that FEC corrected and could not correct in it, `bad` the flits with
a reserved OP or SUB (R566). -/
def execBykParcelReceive (q : Fin 4) (seq ackSeq : Fin 4096) (ack : Fin 3) (crcOk : Bool) (corr unc bad : Nat) (s : State) :
    Host.Outcome State Fault Refusal :=
  .next (if s.portUp q then
      let s := ((s.incRg R.BYK_PORT_FEC_CORR q 0 corr).incRg R.BYK_PORT_FEC_UNC q 0 unc).incRg R.BYK_PORT_CRC_ERR q 0 (bad + if crcOk then 0 else 1)
      let times := ((s.bport q).unc ++ List.replicate unc s.tk.localNs).filter (fun t => decide (s.tk.localNs ≤ t + 1000000))
      let s := s.modBport q (fun p => { p with unc := times })
      if 4 ≤ times.length then s.portRetrain q
      else if !crcOk || seq.val != (s.bport q).rx then s.emit (.port "byk_ack" q [2, ((s.bport q).rx + 4095) % 4096])
      else
        let s := (s.modBport q (fun p => { p with rx := (p.rx + 1) % 4096 })).emit (.port "byk_ack" q [1, seq])
        if ack.val = 0 then s
        else
          let s := s.parcelAck q ackSeq
          if ack.val = 2 then s.resend q else s
    else s)

/-- BYK_REPLAY_TIMEOUT: 10 µs without an acknowledgement. -/
def execBykReplayTimeout (q : Fin 4) (s : State) : Host.Outcome State Fault Refusal :=
  .next (if s.portUp q && decide (0 < (s.bport q).unacked) then (s.since (s.bport q).sentAt 10000).resend q else s)

/-! ## HELLO (R568 to R571) -/

/-- What a HELLO says. -/
structure Hello where
  dev : Nat
  edition : Nat
  topo : Nat
  dimX : Nat
  dimY : Nat
  epoch : Nat
  ready : Bool
  retryUs : Nat
  offer : Bool
  tkState : Nat
  hops : Nat
deriving DecidableEq, Repr

/-- A new epoch of a peer: every operation to it that is not resolved completes with RESET_LOST (R570), a partial block from it is freed (R579). -/
def State.newEpoch (s : State) (d : Nat) : State :=
  let s := s.resolveAll d Sc.resetLost
  let bufs := ((s.peer d).blk.map (·.bufs)).getD []
  (s.freeAll 45 bufs).modPeer d (fun p => { p with nextSeq := 1, abandoned := [], blk := none })

/-- What a HELLO says of a device is recorded. -/
def State.hear (s : State) (h : Hello) : State :=
  let p := s.peer h.dev
  let fresh := !p.heard || p.epoch != h.epoch
  let s := if p.heard && p.epoch != h.epoch then s.newEpoch h.dev else s
  let s := s.modPeer h.dev (fun p => { p with heard := true, ready := h.ready, retryUs := h.retryUs, epoch := h.epoch })
  if fresh && (s.route h.dev).isSome then (s.modPeer h.dev (fun p => { p with lost := none })).startResync h.dev else s

/-- What the neighbour's HELLO says of its port: its readiness and its offer of time. -/
def State.hearPort (s : State) (q : Nat) (h : Hello) : State :=
  let s := s.withRoutes (fun s => (s.setRg R.BYK_PORT_PEER h.dev q).setRg R.BYK_PORT_PEER_READY (if h.ready then 1 else 0) q)
  let s := s.modBport q (fun p => { p with tkState := h.tkState, hops := h.hops, offer := h.offer })
  if s.rg R.TK_CTL_BYK_PORT = q then
    let s := if s.rg R.TK_STAT_SRC = 4 then s.setRg R.TK_STAT_UPSTREAM h.tkState else s
    if h.offer then s else s.srcLost 4
  else s

/-- HELLO: the checks of R569 in HELLO or in the last stage of a RETRAIN; in UP the values are taken over, those of a device that is not the
neighbour too (notes/assumptions/26.md). -/
def State.hello (s : State) (q : Nat) (h : Hello) : State :=
  if s.rg R.BYK_PORT_STATE q = 3 || (s.rg R.BYK_PORT_STATE q = 5 && (s.bport q).sub = 3) then
    if h.edition ≠ s.rg R.ID_REV_ROM_EDITION then s.portFault q 2
    else if s.neighbour q ≠ some h.dev then s.portFault q 3
    else if h.dev = s.dev then s.portFault q 4
    else if h.topo ≠ s.topo || h.dimX ≠ s.rg R.BYK_CTL_DIM_X || h.dimY ≠ s.rg R.BYK_CTL_DIM_Y then s.portFault q 5
    else
      let s := (s.withRoutes (fun s => s.setRg R.BYK_PORT_STATE 4 q)).modBport q (fun p => { p with sub := 0 })
      (((s.hearPort q h).hear h).ev .BYK_UP q).bykIrq
  else if s.portUp q then
    if s.neighbour q = some h.dev then (s.hearPort q h).hear h
    else if s.inSite h.dev && h.dev != s.dev then s.hear h
    else s
  else s

def execHello (q : Fin 4) (dev : Fin 64) (edition topo dimX dimY : Nat) (epoch : Fin 65536) (ready : Bool) (retryUs : Fin 65536) (offer : Bool)
    (tkState : Fin 5) (hops : Fin 256) (s : State) : Host.Outcome State Fault Refusal :=
  .next (s.hello q ⟨dev, edition, topo, dimX, dimY, epoch, ready, retryUs, offer, tkState, hops⟩)

/-! ## Acknowledgements and resynchronisation (R573 to R576) -/

/-- An acknowledgement of an OPSEQ. A NOT_READY answer records the hint (R571). -/
def State.tagAcked (s : State) (d seq status retryUs : Nat) : State :=
  match (s.peer d).ops.find? (fun o => o.seq == seq) with
  | none => s
  | some o =>
    let s := s.modPeer d (fun p => { p with ops := p.ops.filter (fun x => x.seq != seq) })
    let s := if status = Sc.notReady then (s.modPeer d (fun p => { p with ready := false, retryUs := retryUs })).noteNotReady d else s
    (s.resolveTag d o status).tagFlow d

/-- BYK_TAG_ACK. -/
def execBykTagAck (src : Fin 64) (seq : Nat) (status retryUs : Fin 65536) (s : State) : Host.Outcome State Fault Refusal :=
  .next (s.tagAcked src seq status retryUs)

/-- BYK_ADD_RSP: an ADD is acknowledged. No unit of this device uses the prior value that comes with it. -/
def execBykAddRsp (src : Fin 64) (seq : Nat) (status : Fin 65536) (s : State) : Host.Outcome State Fault Refusal :=
  .next (s.tagAcked src seq status 1000)

/-- RESYNC_REQ: answered with LAST_ACC. From a target that has dropped an operation past a gap it also starts this device's own exchange. -/
def execResyncReq (src : Fin 64) (epoch : Fin 65536) (s : State) : Host.Outcome State Fault Refusal :=
  .next (if epoch.val ≠ s.epoch then s.bykSend src 10 [3, Sc.resetLost, 0] 0
    else
      let s := s.bykSend src 10 [3, Sc.ok, (s.peer src).lastAcc] 0
      if (s.peer src).ops.isEmpty || (s.peer src).resync then s else s.startResync src)

/-- RESYNC_RSP: operations up to LAST_ACC are confirmed, later ones re-issued in order; those abandoned are reported and skipped (R576). -/
def State.resyncDone (s : State) (d last : Nat) : State :=
  let p := s.peer d
  let conf := p.ops.filter (fun o => !seqAfter o.seq last)
  let rest := p.ops.filter (fun o => seqAfter o.seq last)
  let s := s.incRg R.BYK_PORT_RESYNC ((s.ways d).headD 0) 0 p.ops.length
  let s := p.abandoned.foldl (fun s o =>
    s.ev .BYK_LATE_RESOLVE ((s.ways d).headD 0) [d, o.seq, if seqAfter o.seq last then Sc.linkLost else Sc.ok]) s
  let s := match p.abandoned.getLast? with
    | some o => s.bykSend d 10 [4, p.epoch, o.seq] 0
    | none => s
  let s := s.modPeer d (fun p => { p with
    ops := rest, abandoned := [], resync := false
    nextSeq := if p.nextSeq = 1 && p.ops.isEmpty && last != 0 then seqNext last else p.nextSeq })
  let s := conf.foldl (fun s o => s.resolveTag d o Sc.ok) s
  (rest.foldl (fun s o => s.sendTag d o) s).tagFlow d

def execResyncRsp (src : Fin 64) (status : Fin 65536) (last : Nat) (s : State) : Host.Outcome State Fault Refusal :=
  .next (if (s.peer src).resync then
      if status.val = Sc.resetLost then (s.resolveAll src Sc.resetLost).modPeer src (fun p => { p with resync := false, nextSeq := 1, abandoned := [] })
      else s.resyncDone src last
    else s)

/-- SKIP: LAST_ACC passes abandoned operations, and a partial block of that sender is freed (R576, R579). -/
def execSkip (src : Fin 64) (epoch : Fin 65536) (last : Nat) (s : State) : Host.Outcome State Fault Refusal :=
  .next (if epoch.val = s.epoch && seqAfter last (s.peer src).lastAcc then
      (s.freeAll 45 (((s.peer src).blk.map (·.bufs)).getD [])).modPeer src (fun p => { p with lastAcc := last, blk := none })
    else s)

/-- BYK_RESYNC_TIMEOUT (R576, R577): RESYNC_MS after the loss without a route, operations complete with LINK_LOST and the device is
unreachable for the Starter. -/
def execBykResyncTimeout (d : Fin 64) (s : State) : Host.Outcome State Fault Refusal :=
  .next (match (s.peer d).lost with
    | none => s
    | some t =>
      let s := s.since t (s.rg R.BYK_CFG_RESYNC_MS * 1000000)
      let ab := (s.peer d).ops
      ((s.resolveAll d Sc.linkLost).modPeer d (fun p => { p with abandoned := p.abandoned ++ ab })).siteLost d)

end Sys2Proof.Machine
end

