-- ==== Sys2Proof/Machine/BykMsg.lean ====
section
/-! DEFINITION. Byklink messages as their target takes them: reads, writes, ADDs, blocks, Baton relays, isochronous frames, and the time exchange
(R135 to R137, R562, R572, R573, R579 to R583). -/

namespace Sys2Proof.Machine

/-! ## Reads, writes, ADDs (R562, R572, R573) -/

/-- Whether a remote request may use a local range: memory, or the mapped pages of a user's host window. -/
def State.remoteOk (s : State) (a n : Nat) (wr : Bool) : Bool :=
  s.inMem a n || (decide (windowBase ≤ a) && s.winOk ((a - windowBase) / 0x2_0000_0000) a n wr)

/-- The refusals that a request may meet at its target before it is read (R570, R571). -/
def State.refuseAt (s : State) (epoch : Nat) : Option Nat :=
  if epoch ≠ s.epoch then some Sc.resetLost else if s.flag R.BYK_CFG_READY then none else some Sc.notReady

/-- A READ_RSP. -/
def State.readRsp (s : State) (src xid status : Nat) (bs : List Byte) : State :=
  s.bykSend src 2 ([xid, status] ++ bs.map (·.toNat)) bs.length

/-- BYK_READ_REQ: `host` holds the bytes of a source in a host window, none where that read failed. -/
def execBykReadReq (src : Fin 64) (xid epoch : Fin 65536) (addr : Nat) (len : Nat) (host : Option (List Byte)) (s : State) :
    Host.Outcome State Fault Refusal :=
  .next (match s.refuseAt epoch with
    | some st => s.readRsp src xid st []
    | none =>
      if len = 0 || decide (4096 < len) || !s.remoteOk addr len false then s.readRsp src xid Sc.badField []
      else if s.inMem addr len then
        match s.readMem addr len with
        | (some b, s) => s.readRsp src xid Sc.ok b
        | (none, s) => s.readRsp src xid Sc.dataLost []
      else match host with
        | some b => s.readRsp src xid Sc.ok (fitBytes len b)
        | none => s.readRsp src xid Sc.hostReadTimeout [])

/-- BYK_READ_RSP: the bytes of a remote read, or its failure. -/
def execBykReadRsp (src : Fin 64) (xid status : Fin 65536) (bytes : List Byte) (s : State) : Host.Outcome State Fault Refusal :=
  .next (match s.byk.reads.find? (fun r => r.xid == xid.val && r.dev == src.val && r.got.isNone) with
    | none => s
    | some r =>
      if status.val = Sc.ok then
        { s with byk := { s.byk with reads := s.byk.reads.map (fun x => if x == r then { r with got := some (fitBytes r.len bytes) } else x) } }
      else if status.val = Sc.notReady then
        ((s.modPeer src (fun p => { p with ready := false })).noteNotReady src).endXfer r.xfer Sc.notReady
      else s.endXfer r.xfer status)

/-- An acknowledgement that carries a status of the target's own where the operation was taken. -/
def ackWith (src seq own : Nat) (status : Nat) (s : State) : State := tagAck src seq (if status = Sc.ok then own else status) s

/-- BYK_WRITE. -/
def execBykWrite (src : Fin 64) (seq : Nat) (epoch : Fin 65536) (addr : Nat) (bytes : List Byte) (s : State) : Host.Outcome State Fault Refusal :=
  let ok := s.remoteOk addr bytes.length true
  .next (s.tagged src seq epoch
    (fun s => if ok then s.deliver ((addr - windowBase) / 0x2_0000_0000) addr bytes else s)
    (ackWith src seq (if ok then Sc.ok else Sc.badField)))

/-- BYK_ADD: the prior value is kept for 256 ADDs of each initiator; a word that cannot be read is left alone (DATA_LOST). -/
def execBykAdd (src : Fin 64) (seq : Nat) (epoch : Fin 65536) (addr : Nat) (addend : BitVec 64) (s : State) : Host.Outcome State Fault Refusal :=
  let ok := s.inMem addr 8 && addr % 8 == 0
  let keep (v : Nat) (s : State) : State := s.modPeer src (fun p => { p with adds := ((p.adds ++ [(seq, v)]).drop (p.adds.length - 255)) })
  .next (s.tagged src seq epoch
    (fun s =>
      if !ok then s
      else match s.readMem addr 8 with
        | (some b, s) => keep (leNat b) (s.write addr (leBytes 8 (leNat b + addend.toNat)))
        | (none, s) => s)
    (fun st s =>
      match (s.peer src).adds.find? (fun a => a.1 == seq) with
      | some a => s.bykSend src 6 [seq, if st = Sc.ok then Sc.ok else st, a.2] 0
      | none => s.bykSend src 6 [seq, if st ≠ Sc.ok then st else if ok then Sc.dataLost else Sc.badField, 0] 0))

/-! ## Blocks (R579) -/

/-- Bytes put at an offset of a list of buffers of `z` bytes each. -/
def State.putBufs (s : State) (z : Nat) (bufs : List Nat) (off : Nat) (bs : List Byte) : State :=
  (bufs.zipIdx).foldl (fun s b =>
    let lo := max off (b.2 * z)
    let hi := min (off + bs.length) ((b.2 + 1) * z)
    match s.handleMem b.1 with
    | some m => if lo < hi then s.write (m.1 + (lo - b.2 * z)) (slice bs (lo - off) (hi - lo)) else s
    | none => s) s

/-- The BYK_PEER entry of a sender's carrier whose KIND 3 entry stands: port and entry. -/
def State.blockPeer (s : State) (src carrier : Nat) : Option (Nat × Nat) :=
  ((List.range 16).find? (fun n => s.flag R.BYK_PEER_VALID n && s.rg R.BYK_PEER_DEV n == src && s.rg R.BYK_PEER_CARRIER n == carrier &&
    (let e := (s.port (s.rg R.BYK_PEER_PON n)).entry (s.rg R.BYK_PEER_ENTRY n)
     e.valid && e.up && e.kind == 3))).map (fun n => (s.rg R.BYK_PEER_PON n, s.rg R.BYK_PEER_ENTRY n))

/-- What a BLOCK message comes to: held for want of a buffer, or taken with a status. -/
def State.blockIn (s : State) (src : Nat) (hdr data : List Byte) : Option Nat × State :=
  let off := recF hdr 12 0 24
  let blk : Option RxBlock := if off = 0 then
      (s.blockPeer src (recF hdr 1 0 2)).map (fun x => ⟨hdr.take 12, 0, [], s.rg R.BYK_CFG_RX_CLASS, x.1, x.2⟩)
    else (s.peer src).blk
  match blk with
  | none => (some Sc.badField, s)
  | some b =>
    if b.hdr ≠ hdr.take 12 || b.got ≠ off then (some Sc.badField, s)
    else
      let z := 2 ^ (s.pclass b.cls).size
      let r := s.allocN 45 b.cls (ceilDiv (off + data.length) z - b.bufs.length) []
      if r.1 = Sc.ok then
        let bufs := b.bufs ++ r.2.1
        let s := r.2.2.putBufs z bufs off data
        let len := ceilDiv (rec32 hdr 8) 8
        if len ≤ off + data.length then
          let g := s.giveAll 45 (portOwner b.pon) bufs
          (some Sc.ok, (g.2.modPeer src (fun p => { p with blk := none })).queueBlock b.pon b.entry (hdrAt hdr 0) g.1 len true)
        else (some Sc.ok, s.modPeer src (fun p => { p with blk := some { b with got := off + data.length, bufs := bufs } }))
      else if r.1 = Sc.badField then (some Sc.badField, r.2.2)
      else (none, r.2.2)

/-- BYK_BLOCK: the next message in sequence is stored; one that a refused allocation holds stays on the link, not accepted. -/
def execBykBlock (src : Fin 64) (seq : Nat) (epoch : Fin 65536) (hdr data : List Byte) (s : State) : Host.Outcome State Fault Refusal :=
  let hdr := fitBytes 16 hdr
  .next (if (s.refuseAt epoch).isNone && seq == seqNext (s.peer src).lastAcc then
      match s.blockIn src hdr data with
      | (none, t) => t
      | (some st, t) => t.tagged src seq epoch id (ackWith src seq st)
    else s.tagged src seq epoch id (tagAck src seq))

/-! ## Baton relays (R135 to R137) -/

/-- A hop's refusal, reported to the device that fed it. -/
def State.refuseRelay (s : State) (src plan hop status : Nat) : State :=
  s.tagIssue src { op := 27, addr := 0, for_ := .nobody
                   data := leBytes 1 plan ++ leBytes 1 hop ++ leBytes 2 status ++ leBytes 1 0 ++ leBytes 2 0 ++ leBytes 1 0 }

/-- A descriptor with the MEMBERS, HEAD and RELAY_EN of a hop. -/
def setRelay (d : List Byte) (members head : Nat) (more : Bool) : List Byte :=
  let w := rec32 d 60
  d.take 60 ++ leBytes 4 (w / 4096 * 4096 + members % 256 + head * 256 + if more then 2048 else 0)

/-- BYK_BATON: the data of a relay has reached this hop: `prog` is the program whose plan it follows. Fewer bytes than the descriptor's mean that the
path was lost meanwhile: the prefix is kept and the hop ends with LINK_LOST (R136). In Rest it is a work stimulus and waits (R619): the row is
served once Rest has ended. -/
def execBykBaton (src : Fin 64) (plan hop : Nat) (prog : Nat) (desc data : List Byte) (s : State) : Host.Outcome State Fault Refusal :=
  .next (if s.rg R.PST_STAT_STATE = 2 then s.stimulus 4 else match s.prog? prog with
    | none => s.refuseRelay src plan hop Sc.notReady
    | some p =>
      match ((relayPlans p.image).getD plan [])[hop - 1]? with
      | none => s.refuseRelay src plan hop Sc.notReady
      | some h =>
        if !p.ready || !s.flag R.BYK_CFG_READY then s.refuseRelay src plan hop Sc.notReady
        else
          let d := setRelay (fitBytes 64 desc) (rec8 h 1) (recF h 2 0 3) (recF h 3 0 1 == 0)
          let id := s.xferNext
          let s := s.issueXfer (16 + src) p.user (.relay src prog) false d none
          if data.length < dTotal d then
            let m := match s.xfer? id with | some x => x.members | none => 0
            ((match s.xfer? id with | some x => s.batonWrite x m data | none => s)).endXfer id Sc.linkLost
          else s.modXfer id (fun x => { x with hop := hop, inbound := data.take (dTotal d) }))

/-- RELAY_DONE (R137): the next hop's report; the final token is written. -/
def execRelayDone (src : Fin 64) (seq : Nat) (epoch : Fin 65536) (plan hop : Nat) (status : Fin 65536) (relayStatus : Fin 65536) (relayHop : Fin 64)
    (s : State) : Host.Outcome State Fault Refusal :=
  .next (s.tagged src seq epoch (fun s =>
    match s.xfers.find? (fun x => x.relayWait && dRelayPlan x.desc == plan && x.hop + 1 == hop &&
        (match (s.relayOf x)[x.hop]? with | some h => recF h 0 0 6 == src.val | none => false)) with
    | none => s
    | some x =>
      (s.modXfer x.id (fun x => { x with
        relayStatus := if status.val = Sc.ok then relayStatus else status
        relayHop := if status.val = Sc.ok then relayHop else hop })).endXfer x.id (chainStatus x)) (tagAck src seq))

/-! ## Isochronous channels (R580 to R582) -/

def State.isoCh (s : State) (n : Nat) : IsoCh := vget s.byk.iso n
def State.modIso (s : State) (n : Nat) (f : IsoCh → IsoCh) : State := { s with byk := { s.byk with iso := vmod s.byk.iso n f } }

/-- Frames dropped or repeated on a channel are counted there and on its port. -/
def State.isoSlip (s : State) (n : Nat) (f : Fld) (k : Nat) : State :=
  (s.incRg f n 0 k).incRg R.BYK_PORT_ISO_SLIP (s.rg R.BYK_ISO_PORT n) 0 k

/-- BYK_ISO: a frame of the sender's channel `ch` arrives on a port; with DEPTH frames held the oldest is displaced. -/
def execBykIso (q : Fin 4) (ch : Fin 16) (sfn : Fin 1024) (subframe : Fin 10) (slot : Fin 8) (sym : Fin 14) (seq : Nat) (data : List Byte) (s : State) :
    Host.Outcome State Fault Refusal :=
  .next (match (List.range 16).find? (fun n => s.flag R.BYK_ISO_EN n && s.rg R.BYK_ISO_DIR n == 1 && s.rg R.BYK_ISO_PORT n == q.val &&
      s.rg R.BYK_ISO_PEER_CH n == ch.val) with
    | none => s
    | some n =>
      if s.portUp q then
        let f : IsoFrame := ⟨[sfn, subframe, slot, sym], seq, fitBytes (s.isoBytes n) data⟩
        if s.rg R.BYK_ISO_DEPTH n ≤ (s.isoCh n).frames.length then
          (s.modIso n (fun x => { x with frames := x.frames.drop 1 ++ [f] })).isoSlip n R.BYK_ISO_DROP 1
        else s.modIso n (fun x => { x with frames := x.frames ++ [f] })
      else s)

/-- Locked mode: both Timekeepers LOCKED, and one of the two takes its time from the Byklink (notes/assumptions/27.md). -/
def State.isoLocked (s : State) (n : Nat) : Bool :=
  let p := s.bport (s.rg R.BYK_ISO_PORT n)
  s.rg R.TK_STAT_STATE == 2 && p.tkState == 2 && (s.rg R.TK_STAT_SRC == 4 || decide (0 < p.hops))

/-- A frame delivered whole into the ring: its label, its bytes, and the count advanced. -/
def State.isoPut (s : State) (n : Nat) (f : IsoFrame) (again : Bool) : State :=
  let x := s.isoCh n
  let slot := x.count % max 1 (s.rg R.BYK_ISO_SLOTS n)
  let s := s.deliver 0 (s.rg R.BYK_ISO_RING_ADDR n + slot * (64 + s.isoBytes n))
    ((List.range 64).map (Config.isoLabel f.label f.seq again) ++ f.data)
  let s := s.deliver 0 (s.rg R.BYK_ISO_CTRL_ADDR n) (leBytes 8 (x.count + 1))
  s.modIso n (fun x => { x with last := some f, count := x.count + 1 })

/-- The previous frame again, where there is one. -/
def State.isoAgain (s : State) (n : Nat) : State :=
  match (s.isoCh n).last with
  | some f => (s.isoPut n f true).isoSlip n R.BYK_ISO_REPEAT 1
  | none => s

/-- ISO_DELIVER: the boundary of a symbol coded U of the channel's carrier, offset by one symbol. -/
def execIsoDeliver (n : Fin 16) (sfn : Fin 1024) (subframe : Fin 10) (slot : Fin 8) (sym : Fin 14) (s : State) : Host.Outcome State Fault Refusal :=
  let c := s.rg R.BYK_ISO_CARRIER n
  if s.flag R.BYK_ISO_EN n && s.rg R.BYK_ISO_DIR n == 1 && (s.carrier c).active && decide (2 ≤ s.symCode c sfn subframe slot sym) then
    let r := (s.carrier c).rec_
    let s := s.reach (s.slotAt r sfn subframe slot s.tk.ns + symNs (cScs r) (14 * slot + sym + 1) - symNs (cScs r) (14 * slot))
    if s.isoLocked n then
      let mine (f : IsoFrame) : Bool := f.label == [sfn.val, subframe.val, slot.val, sym.val]
      let held := (s.isoCh n).frames
      let s := (s.modIso n (fun x => { x with frames := [] })).isoSlip n R.BYK_ISO_DROP (held.filter (fun f => !mine f)).length
      .next (match held.find? mine with
        | some f => s.isoPut n f false
        | none => s.isoAgain n)
    else .next (match (s.isoCh n).frames with
      | f :: fs => (s.modIso n (fun x => { x with frames := fs })).isoPut n f false
      | [] => s.isoAgain n)
  else .next s

/-! ## Time (R583) -/

/-- BYK_TIME_EXCHANGE: a master's TIME_SYNC leaves on a port that offers time. -/
def execBykTimeExchange (q : Fin 4) (s : State) : Host.Outcome State Fault Refusal :=
  .next (if s.rgBit R.BYK_CTL_TIME_OFFER q && s.portUp q && s.flag R.TK_STAT_EPOCH_VALID && decide (s.byk.hops < 16) &&
      !(s.rg R.TK_STAT_SRC == 4 && s.rg R.TK_CTL_BYK_PORT == q.val) then
      s.bykOut q 10 [(s.neighbour q).getD s.dev, s.dev, 8, s.tk.ns, s.rg R.EPOCH_TAI_TAI, s.rg R.TK_STAT_STATE, s.byk.hops] 0
    else s)

/-- TIME_SYNC on BYK_PORT: t2 is stamped, and TIME_REQ leaves `turn` nanoseconds later, stamped t3. Offers on other ports are ignored. -/
def execTimeSync (q : Fin 4) (t1 : Nat) (epoch : BitVec 64) (state : Fin 5) (hops : Fin 256) (turn : Nat) (s : State) :
    Host.Outcome State Fault Refusal :=
  .next (if s.portUp q && s.rg R.TK_CTL_BYK_PORT == q.val then
      let s := s.modBport q (fun p => { p with t1 := t1, t2 := s.tk.ns, masterEpoch := some epoch.toNat, tkState := state, hops := hops })
      let s := if s.rg R.TK_STAT_SRC = 4 then s.setRg R.TK_STAT_UPSTREAM state else s
      let s := s.elapse turn
      (s.modBport q (fun p => { p with t3 := s.tk.ns })).bykOut q 10 [(s.neighbour q).getD s.dev, s.dev, 9] 0
    else s)

/-- TIME_REQ: t4 is stamped and returned. -/
def execTimeReq (q : Fin 4) (s : State) : Host.Outcome State Fault Refusal :=
  .next (if s.portUp q then s.bykOut q 10 [(s.neighbour q).getD s.dev, s.dev, 10, s.tk.ns] 0 else s)

/-- The mean of a second's samples, rounded down. -/
def meanOf (xs : List Int) : Int := xs.sum / (max 1 xs.length : Nat)

/-- This device's HOPS; HELLO is resent when it changes. -/
def State.setHops (s : State) (v : Nat) : State :=
  if s.byk.hops = v then s else ({ s with byk := { s.byk with hops := v } } : State).helloAll

/-- TIME_RSP: the sample t2 − t1 − d; sixteen samples, those of one second, form a comparison when source 4 is in use. -/
def execTimeRsp (q : Fin 4) (t4 : Nat) (s : State) : Host.Outcome State Fault Refusal :=
  .next (if s.portUp q && s.rg R.TK_CTL_BYK_PORT == q.val && (s.bport q).masterEpoch.isSome then
      let p := s.bport q
      let d : Int := (((p.t2 : Int) - p.t1) + ((t4 : Int) - p.t3)) / 2 + Config.bykAsymmetry q
      let xs := p.samples ++ [(p.t2 : Int) - p.t1 - d]
      let s := if s.rg R.TK_STAT_SRC = 4 then s.setHops (p.hops + 1) else s
      if xs.length < 16 then s.modBport q (fun p => { p with samples := xs })
      else
        let s := s.modBport q (fun p => { p with samples := [] })
        if s.rg R.TK_STAT_SRC = 4 then s.compareMaster ((s.tk.ns : Int) - meanOf xs).toNat p.masterEpoch else s
    else s)

end Sys2Proof.Machine
end

