-- ==== Sys2Proof/Machine/Cipher.lean ====
section
/-! DEFINITION. The cipher engine (R409 to R433, R522 to R525): key slots, the lock and the shared context, cipher operations. -/

namespace Sys2Proof.Machine

/-! ## Key slots (R415 to R421) -/

/-- The key check value: bytes 0 to 2 of AES_K(0), byte 0 highest. -/
def kcvOf (key : List Nat) : Nat :=
  let b := aesEnc (roundKeys key) (List.replicate 16 0)
  b.getD 0 0 * 65536 + b.getD 1 0 * 256 + b.getD 2 0

/-- A key installed in a slot of a page. -/
def State.setKey (s : State) (u slot len usage : Nat) (key : List Nat) : State :=
  let s := { s with cipher := { s.cipher with
    keys := s.cipher.keys.filter (fun (k : Nat × List Nat) => k.1 != 16 * u + slot) ++ [(16 * u + slot, key)] } }
  (((s.setRg R.KEY_STAT_VALID 1 slot u).setRg R.KEY_STAT_LEN len slot u).setRg R.KEY_STAT_USAGE usage slot u).setRg
    R.KEY_STAT_KCV (kcvOf key) slot u

/-- A slot zeroed. -/
def State.zeroKey (s : State) (u slot : Nat) : State :=
  let s := { s with cipher := { s.cipher with keys := s.cipher.keys.filter (fun k => k.1 != 16 * u + slot) } }
  [R.KEY_STAT_VALID, R.KEY_STAT_LEN, R.KEY_STAT_USAGE, R.KEY_STAT_KCV].foldl (fun s f => s.setRg f 0 slot u) s

/-- The bytes of the staging words of a page. -/
def State.staged (s : State) (u len : Nat) : List Nat :=
  (List.range (if len = 1 then 8 else 4)).flatMap (fun i => (leBytes 4 (s.rg R.KEY_STAGE_WORD i u)).map (·.toNat))

/-- Every staging word zeroed. -/
def State.unstage (s : State) (u : Nat) : State := (List.range 8).foldl (fun s i => s.setRg R.KEY_STAGE_WORD 0 i u) s

/-- Whether an admitted command, or the open session, uses a slot (R417). -/
def State.slotBusy (s : State) (u slot : Nat) : Bool :=
  s.cipher.jobs.any (fun j => match s.cmd? j.1 j.2.1 with | some c => c.user == u && c.arg 9 0 3 == slot | none => false) ||
    (s.cipher.holder == some u && (match s.cipher.session with | some x => x.slot == slot | none => false))

/-- Whether a commit is refused (R416). -/
def State.commitBad (s : State) (u slot len usage : Nat) : Bool :=
  s.flag R.KEY_STAT_VALID slot u || (decide (8 ≤ slot) && (u != 0 || [10, 11, 14, 15].contains slot || len == 1)) ||
    (decide (slot < 8) && (usage == 0 || (decide (16 ≤ usage) && (usage != 16 || len == 0))))

/-- A write of KEY_CTL (R415 to R417). -/
def State.keyCtl (s : State) (u slot len usage : Nat) (commit erase : Bool) : State :=
  let rej (s : State) : State := s.setRg R.CIPH_STAT_CFG_REJ 1 0 u
  if commit && erase then rej (s.unstage u)
  else if commit then
    if s.commitBad u slot len usage then rej (s.unstage u)
    else (s.setKey u slot len usage (s.staged u len)).unstage u
  else if erase then
    if s.slotBusy u slot || (decide (8 ≤ slot) && u != 0) then rej s else s.zeroKey u slot
  else s

/-- KEY_COMMIT and KEY_ERASE: KEY_CTL of user `u` written with COMMIT, or with ERASE. -/
def execKeyCommit (u : Fin 8) (slot : Fin 16) (len : Fin 2) (usage : Fin 32) (s : State) : Host.Outcome State Fault Refusal :=
  .next (s.keyCtl u slot len usage true false)
def execKeyErase (u : Fin 8) (slot : Fin 16) (s : State) : Host.Outcome State Fault Refusal :=
  .next (s.keyCtl u slot 0 0 false true)

/-! ## The lock (Table CIP-4) -/

/-- CIPH_LOCK of every page brought up to date. -/
def State.showLock (s : State) : State :=
  let h := s.cipher.holder
  let s := (List.range 8).foldl (fun s u =>
    let mine := h == some u
    ((s.setRg R.CIPH_LOCK_HELD (if mine then 1 else 0) 0 u).setRg R.CIPH_LOCK_BUSY (if h.isSome && !mine then 1 else 0) 0 u).setRg
      R.CIPH_LOCK_OPEN (if mine && s.cipher.session.isSome then 1 else 0) 0 u) s
  s.setRg R.CIPH_LOCK_OWNER (h.getD 0) 0 0

/-- The context zeroed and the lock FREE. -/
def State.freeLock (s : State) : State :=
  ({ s with cipher := { s.cipher with holder := none, session := none, relPend := false } }).showLock

/-- The lock requested by a user. -/
def State.lockReq (s : State) (u : Nat) : State :=
  if s.cipher.holder.isNone then
    ({ s with cipher := { s.cipher with holder := some u, session := none, relPend := false, leaseFrom := s.tk.localNs } }).showLock
  else s

/-- The lock released by a user; a part that runs ends first. -/
def State.lockRel (s : State) (u : Nat) : State :=
  if s.cipher.holder = some u then
    if s.cipher.jobs.any (fun j => j.2.2) then { s with cipher := { s.cipher with relPend := true } } else s.freeLock
  else s

def execCiphLockReq (u : Fin 8) (s : State) : Host.Outcome State Fault Refusal := .next (s.lockReq u)
def execCiphLockRel (u : Fin 8) (s : State) : Host.Outcome State Fault Refusal := .next (s.lockRel u)

/-- The lease of a user in microseconds (Table CIP-6). -/
def State.leaseUs (s : State) (u : Nat) : Nat :=
  let v := s.rg R.CIPH_LEASE_LEASE_US 0 u
  if 100 ≤ v ∧ v ≤ 1000000 then v else 10000

/-- The lock lost by its holder: logged and counted. -/
def State.lockLost (s : State) (u : Nat) : State :=
  ((s.freeLock).ev .CIPH_LEASE u).incRg R.CIPH_STAT_LOCK_LOST 0 0

/-- CIPH_LEASE_EXPIRY: the lease of the holder has run with no part running or queued. -/
def execCiphLeaseExpiry (s : State) : Host.Outcome State Fault Refusal :=
  match s.cipher.holder with
  | some u =>
    let queued := s.host.cmds.any (fun c => c.user == u && c.opcode == 0x70 && !c.done && c.arg 8 4 2 != 0)
    if queued then .next s else .next ((s.since s.cipher.leaseFrom (s.leaseUs u * 1000)).lockLost u)
  | none => .next s

/-- The entropy source (R422). -/
def execEntropyHealthFail (s : State) : Host.Outcome State Fault Refusal :=
  .next (({ s with cipher := { s.cipher with rngOk := false } }).ev .CIPH_RNG_FAIL)
def execEntropyHealthRecover (s : State) : Host.Outcome State Fault Refusal :=
  .next { s with cipher := { s.cipher with rngOk := true } }

/-- A user's page cleared (R431, Table CIP-4): its slots, and the lock if it holds it; a part that runs ends with ABORTED unless its command is gone. -/
def State.clearPage (s : State) (u : Nat) : State :=
  let s := (List.range 16).foldl (fun s k => s.zeroKey u k) s
  if s.cipher.holder = some u then
    let parts := s.cipher.jobs.filter (fun j => j.2.2)
    let s := { s with cipher := { s.cipher with jobs := s.cipher.jobs.filter (fun j => !j.2.2) } }
    (parts.foldl (fun s j => s.complete j.1 j.2.1 Sc.aborted) s).freeLock
  else s

/-! ## Operations (R418, R423 to R430) -/

/-- Fields of a CIPHER command (Table CMO-7). -/
def Cmd.mode (c : Cmd) : Nat := c.arg 8 0 3
def Cmd.dec (c : Cmd) : Bool := c.arg 8 3 1 == 1
def Cmd.part (c : Cmd) : Nat := c.arg 8 4 2
def Cmd.slot (c : Cmd) : Nat := c.arg 9 0 3
def Cmd.ctrBits (c : Cmd) : Nat := 32 * 2 ^ c.arg 9 4 2
def Cmd.tagLen (c : Cmd) : Nat := c.arg 10 0 5
def Cmd.len (c : Cmd) : Nat := c.arg 12 0 32
def Cmd.csrc (c : Cmd) : Nat := c.arg 16 0 46
def Cmd.cdst (c : Cmd) : Nat := c.arg 24 0 46
def Cmd.cparam (c : Cmd) : Nat := c.arg 32 0 46
def Cmd.aadLen (c : Cmd) : Nat := c.arg 40 0 32
def Cmd.first (c : Cmd) : Bool := c.part == 0 || c.part == 1
def Cmd.final (c : Cmd) : Bool := c.part == 0 || c.part == 3

/-- The usage bits that an operation needs (Table CIP-2). -/
def Cmd.needs (c : Cmd) : Nat :=
  match c.mode with
  | 4 => if c.dec then 8 else 4
  | 5 => if c.dec then 10 else 5
  | _ => if c.dec then 2 else 1

/-- Bytes of the parameter block, from its start, that a part reads (R523): the IV, the tag to verify, the AAD. -/
def Cmd.paramLen (c : Cmd) : Nat :=
  if c.mode = 5 && c.first && c.aadLen != 0 then 32 + c.aadLen
  else if (c.mode = 4 || c.mode = 5) && c.final && c.dec then 32
  else if c.mode ≠ 4 && c.first then 16 else 0

/-- The checks of a CIPHER command that give BAD_FIELD and need no session. -/
def State.cipherFieldsOk (s : State) (c : Cmd) : Bool :=
  let usage := s.rg R.KEY_STAT_USAGE c.slot c.user
  let tagOut := (c.mode == 4 || c.mode == 5) && c.final && !c.dec
  c.only [(8, 0, 6), (9, 0, 3), (9, 4, 2), (10, 0, 5), (12, 0, 32), (16, 0, 46), (24, 0, 46), (32, 0, 46), (40, 0, 32)] &&
    decide (c.mode < 6) && c.arg 9 4 2 != 3 && s.flag R.KEY_STAT_VALID c.slot c.user && usage &&& c.needs == c.needs &&
    !(c.mode == 5 && !c.first && c.aadLen != 0) && s.fieldOk c false c.csrc c.len false &&
    (c.mode == 4 || s.fieldOk c false c.cdst c.len true) && s.fieldOk c false c.cparam c.paramLen false &&
    (!tagOut || s.fieldOk c false (c.cparam + 16) c.tagLen true)

/-- The lengths of Table CIP-5, with the bytes already processed in the session. -/
def Cmd.lengthOk (c : Cmd) (before : Nat) : Bool :=
  let n := c.len
  let total := before + n
  decide (n ≤ 2 ^ 24) &&
  match c.mode with
  | 0 | 2 => n % 16 == 0 && decide (16 ≤ n) && decide (total ≤ 2 ^ 40)
  | 1 | 3 => decide (1 ≤ n) && (c.final || n % 16 == 0) && decide (total ≤ 2 ^ 40)
  | 4 => (c.part == 0 || decide (1 ≤ n)) && (c.final || n % 16 == 0) && decide (total ≤ 2 ^ 40) &&
    decide (8 ≤ c.tagLen) && decide (c.tagLen ≤ 16)
  | _ => (c.final || n % 16 == 0) && decide (total ≤ 2 ^ 36 - 32) && decide (12 ≤ c.tagLen) && decide (c.tagLen ≤ 16) &&
    decide (c.aadLen ≤ 65536)

/-- Whether the counter field of a CTR part stays within its all-ones value (R429). -/
def Cmd.ctrOk (c : Cmd) (icb : List Nat) : Bool :=
  c.mode != 1 || decide (blockNat icb % 2 ^ c.ctrBits + ceilDiv c.len 16 ≤ 2 ^ c.ctrBits)

/-- What a part leaves: the bytes for DST, the session after it, and the tag when it is the last. -/
def cipherRun (key : List Nat) (c : Cmd) (x : Session) (data aad : List Nat) : List Nat × Session × List Nat :=
  let rks := roundKeys key
  let n := data.length
  let y0 := if c.first && c.mode == 5 then ghash (blockNat (aesEnc rks (List.replicate 16 0))) x.y aad else x.y
  match c.mode with
  | 0 => let r := cbcMode rks c.dec x.chain data; (r.1, { x with chain := r.2, total := x.total + n }, [])
  | 1 => (ctrMode rks x.ctrBits x.chain data, { x with chain := ctrAdd x.ctrBits (n / 16) x.chain, total := x.total + n }, [])
  | 2 => let r := cfbMode rks c.dec x.chain data; (r.1, { x with chain := r.2, total := x.total + n }, [])
  | 3 => let r := ofbMode rks x.chain data; (r.1, { x with chain := r.2, total := x.total + n }, [])
  | 4 =>
    if c.final then ([], { x with total := x.total + n }, cmacFinal rks x.chain data)
    else ([], { x with chain := cmacBlocks rks x.chain data, total := x.total + n }, [])
  | _ =>
    let out := ctrMode rks 32 x.chain data
    let y := ghash (blockNat (aesEnc rks (List.replicate 16 0))) y0 (if c.dec then data else out)
    let x := { x with chain := ctrAdd 32 (n / 16) x.chain, y := y, total := x.total + n }
    (out, x, if c.final then gcmTag rks x.iv y x.aadLen x.total else [])

/-- The session that a SINGLE or FIRST part starts. -/
def newSession (c : Cmd) (iv : List Nat) : Session :=
  { ring := c.ring, slot := c.slot, mode := c.mode, dec := c.dec, ctrBits := c.ctrBits, tagLen := c.tagLen
    iv := if c.mode = 5 then iv.take 12 else iv
    chain := if c.mode = 4 then List.replicate 16 0 else if c.mode = 5 then iv.take 12 ++ [0, 0, 0, 2] else iv
    y := 0, aadLen := c.aadLen, total := 0 }

/-- Whether a part repeats what FIRST fixed (R523). -/
def Session.same (x : Session) (c : Cmd) : Bool :=
  x.slot == c.slot && x.mode == c.mode && x.dec == c.dec && x.ctrBits == c.ctrBits && x.tagLen == c.tagLen

/-- The session put in the shared context, and the lease begun again after a part (R425). -/
def State.partDone (s : State) (c : Cmd) (x : Option Session) : State :=
  if c.part = 0 then s
  else
    let s := { s with cipher := { s.cipher with session := x, leaseFrom := s.tk.localNs } }
    if s.cipher.relPend then s.freeLock else s.showLock

/-- A command admitted, run on its source data and parameter block, or failing to read them. -/
def State.cipherDo (s : State) (c : Cmd) (src par : Option (List Byte)) (host : Bool) : State :=
  let open_ := s.cipher.session
  let old := if c.part = 0 then none else open_
  let end_ (s : State) (x : Option Session) (st res : Nat) : State := (s.partDone c x).fin c st res
  if c.part ≠ 0 && s.cipher.holder ≠ some c.user then s.fin c Sc.ciphLocked
  else if (c.part = 1 && old.isSome) || (c.part ≠ 0 && c.part ≠ 1 && (match old with | some x => !x.same c | none => true)) then
    end_ s open_ Sc.badField 0
  else
    let nat (b : Option (List Byte)) := (b.getD []).map (·.toNat)
    let iv := (nat par).take 16
    let x := match old with | some x => x | none => newSession c iv
    if !c.lengthOk x.total || !c.ctrOk x.chain then end_ s open_ Sc.ciphLength 0
    else if src.isNone || par.isNone then
      end_ s none (if host then Sc.hostReadTimeout else Sc.dataLost) 0
    else match s.slotKey c.user c.slot with
      | none => end_ s open_ Sc.badField 0
      | some key =>
        let r := cipherRun key c x (nat src) (((nat par).drop 32).take c.aadLen)
        let next := if c.final then none else some r.2.1
        let s := s.deliver c.user c.cdst (r.1.map (BitVec.ofNat 8))
        let tagged := (c.mode == 4 || c.mode == 5) && c.final
        let tag := r.2.2.take c.tagLen
        if tagged && c.dec then
          if tag == ((nat par).drop 16).take c.tagLen then end_ s next Sc.ok r.1.length
          else
            let s := if c.part = 0 && c.mode = 5 then s.deliver c.user c.cdst (List.replicate c.len 0) else s
            end_ s next 0x0140 0
        else
          let s := if tagged then s.deliver c.user (c.cparam + 16) (tag.map (BitVec.ofNat 8)) else s
          end_ s next Sc.ok r.1.length

/-- CIPHER (R522): fields are fixed at admission, and the command waits for a pipeline. -/
def execCipher (ring : Fin 64) (cid : Fin 65536) (s : State) : Host.Outcome State Fault Refusal :=
  .next (s.start ring cid 0x70 (fun c s =>
    s.check c (s.cipherFieldsOk c) (fun s =>
      if c.part ≠ 0 && s.cipher.holder ≠ some c.user then s.fin c Sc.ciphLocked
      else { s with cipher := { s.cipher with jobs := s.cipher.jobs ++ [(ring.val, cid.val, c.part != 0)] } })))

/-- CIPHER_PART_DONE (R412, R424): a command on a command pipeline has been processed; session parts in order. `host` gives source data and
parameter block as they were read through host windows, none where that read failed. -/
def execCipherPartDone (ring : Fin 64) (cid : Fin 65536) (host : Option (List Byte × List Byte)) (s : State) :
    Host.Outcome State Fault Refusal :=
  match if s.coreRuns then s.cipher.jobs.find? (fun j => j.1 == ring.val && j.2.1 == cid.val) else none, s.cmd? ring cid with
  | some j, some c =>
    let ahead := s.cipher.jobs.takeWhile (fun k => !(k == j))
    if j.2.2 && ahead.any (fun k => k.2.2) then .next s
    else
      let s := { s with cipher := { s.cipher with jobs := s.cipher.jobs.filter (fun k => !(k == j)) } }
      let get (s : State) (a n : Nat) (h : Option (List Byte)) : Option (List Byte) × State :=
        if n = 0 then (some [], s) else if inWindows a n then (h.map (fitBytes n), s) else s.readMem a n
      let a := get s c.csrc c.len (host.map (·.1))
      let b := get a.2 c.cparam c.paramLen (host.map (·.2))
      let ext := (a.1.isNone && inWindows c.csrc c.len) || (b.1.isNone && inWindows c.cparam c.paramLen)
      .next (b.2.cipherDo c a.1 b.1 ext)
  | _, _ => .next s

/-- KEY_UNWRAP (R420, R525): a wrapped broadcast key installed in its port's slot. -/
def execKeyUnwrap (ring : Fin 64) (cid : Fin 65536) (s : State) : Host.Outcome State Fault Refusal :=
  .next (s.start ring cid 0x71 (fun c s =>
    let p := c.arg 8 0 1
    let i := c.arg 9 0 2
    let kek := s.slotKey 0 (kekSlot p)
    s.check c (c.only [(8, 0, 1), (9, 0, 2), (16, 0, 128)] && (i == 1 || i == 2) && kek.isSome) (fun s =>
      s.user0 c (fun s =>
        let key := aesDec (roundKeys (kek.getD [])) ((slice c.args 8 16).map (·.toNat))
        let slot := 9 + 4 * p + i
        (s.setKey 0 slot 0 0 key).fin c Sc.ok (kcvOf key)))))

end Sys2Proof.Machine
end

