-- ==== Sys2Proof/Machine/Hurdle.lean ====
section
/-! DEFINITION. The coding block (R281 to R312): decoder reservation and lending, radio codewords, soft buffers, encoders and
polar requests. -/

namespace Sys2Proof.Machine

/-! ## Ports and reservation (R300 to R304) -/

def State.dec (s : State) (d : Nat) : Decoder := vget s.coding.dec d
def State.modDec (s : State) (d : Nat) (f : Decoder → Decoder) : State :=
  { s with coding := { s.coding with dec := vmod s.coding.dec d f } }

def State.decHeld (s : State) (d : Nat) : Bool := s.rgBit R.COD_RESV_HELD d
def State.decFree (s : State) (d : Nat) : Bool := (s.dec d).work.isNone && !s.decHeld d

/-- A decoder joins, or leaves, a reservation. -/
def State.reserve (s : State) (d : Nat) (p : Option Nat) : State :=
  (s.modDec d (fun x => { x with resv := p })).putRgBit R.COD_RESV_RESERVED d p.isSome

/-- The highest-numbered unheld decoder of the radio share joins a port's reservation. -/
def State.joinResv (s : State) (p : Nat) : State :=
  match (List.range 16).reverse.find? (fun d => !s.decHeld d && (s.dec d).resv.isNone) with
  | some d => s.reserve d (some p)
  | none => s

/-- A port's reservation as its mode has it (R300): four decoders in 50G mode while enabled, else none. -/
def State.setResv (s : State) (p : Nat) : State :=
  let want := (s.port p).enabled && (s.port p).mode == 1
  let has := (List.range 16).any (fun d => (s.dec d).resv == some p)
  if want then
    if has then s
    else
      let base := if p = 0 then 12 else 8
      (List.range 4).foldl (fun s k => if s.decHeld (base + k) then s.joinResv p else s.reserve (base + k) (some p)) s
  else (List.range 16).foldl (fun s d => if (s.dec d).resv == some p then s.reserve d none else s) s

/-! ## The radio queue (R292) -/

/-- Whether a radio codeword still has to be decoded: its Heat is live and its job has no result. -/
def State.cwLive (s : State) (slot j : Nat) : Bool :=
  match s.heat slot with
  | some h => h.live && (match h.jobs[j]? with | some x => x.ready && x.result.isNone | none => false)
  | none => false

/-- The first codeword of a Heat that waits, by job and codeword order. -/
def State.heatCw (s : State) (slot : Nat) (h : Heat) : Option Work :=
  (h.jobs.zipIdx.flatMap (fun x => (List.range (jC x.1.rec_)).filterMap (fun c =>
    let w := Work.radio slot x.2 c
    if x.1.ready && x.1.result.isNone && jKind x.1.rec_ == 0 && !(x.1.cwOut.any (fun o => o.1 == c)) &&
        !(s.coding.dec.toList.any (fun d => d.work == some w)) && !s.coding.again.contains w then some w else none))).head?

/-- The radio codeword at the head of the queue: one requeued by a fault, else of the Heat with the earliest finish line. -/
def State.radioHead (s : State) : Option Work :=
  match s.coding.again.find? (fun w => match w with | .radio a b _ => s.cwLive a b | .pon _ => false) with
  | some w => some w
  | none =>
    ((s.heatList.filter (fun p => p.2.live && p.2.uplinkRadio)).foldl (fun (b : Option (Heat × Work)) p =>
      match s.heatCw p.1 p.2 with
      | none => b
      | some w => match b with
        | none => some (p.2, w)
        | some q => if before p.2 q.1 then some (p.2, w) else b) none).map (·.2)

/-- Whether a codeword of a port waits. -/
def State.ponWaits (s : State) (p : Nat) : Bool := decide (0 < (s.port p).wait) || s.coding.again.contains (.pon p)

/-- A work item taken from the queue by a decoder. -/
def State.takeWork (s : State) (d : Nat) (w : Work) (lent : Bool) : State :=
  let again := s.coding.again.contains w
  let s := if again then { s with coding := { s.coding with again := s.coding.again.erase w } }
    else match w with
      | .pon p => s.modPort p (fun x => { x with wait := x.wait - 1 })
      | .radio _ _ _ => s
  ((s.modDec d (fun x => { x with work := some w, lent := lent })).putRgBit R.COD_STAT_BUSY d true).putRgBit R.COD_STAT_LENT d lent

/-- A decoder is FREE again. -/
def State.freeDec (s : State) (d : Nat) : State :=
  ((s.modDec d (fun x => { x with work := none, lent := false })).putRgBit R.COD_STAT_BUSY d false).putRgBit R.COD_STAT_LENT d false

/-- DECODER_START (Table COD-4): a FREE decoder takes a codeword. -/
def execDecoderStart (d : Fin 16) (s : State) : Host.Outcome State Fault Refusal :=
  let s := s.trackAll
  if s.coreRuns && s.decFree d then
    let share := (List.range 16).find? (fun k => s.decFree k && (s.dec k).resv.isNone)
    match (s.dec d).resv with
    | some p =>
      if s.ponWaits p then .next (s.takeWork d (.pon p) false)
      else if !s.inO5 p && s.coding.lendEn && share.isNone then
        match s.radioHead with
        | some w => .next (s.takeWork d w true)
        | none => .next s
      else .next s
    | none =>
      if share = some d.val then
        match s.radioHead with
        | some w => .next (s.takeWork d w false)
        | none => .next s
      else .next s
  else .next s

/-! ## Soft buffers (R295 to R298) -/

def State.dirFind (s : State) (c key : Nat) : Option HarqEntry := s.coding.dir.find? (fun e => e.carrier == c && e.key == key)

def State.setDir (s : State) (d : List HarqEntry) : State := { s with coding := { s.coding with dir := d } }

/-- The entry a job combines with: a retransmission whose entry matches in TBS and BG (R296). -/
def State.matching (s : State) (c : Nat) (r : List Byte) : Option HarqEntry :=
  if jNew r then none
  else (s.dirFind c (jKey r)).filter (fun e => e.tbs == jTbs r && e.bg == (if jBg2 r then 1 else 0))

/-- A job's fresh buffers given up: no soft buffer is kept for it (R298). -/
def State.noSoft (s : State) (slot j : Nat) : State :=
  match (s.heat slot).bind (fun h => h.jobs[j]?) with
  | some x =>
    let s := s.freeAll 42 (x.fresh.map (·.2))
    let s := if x.noSoft then s else s.incRg R.COD_HARQ_HARQ_NOSB
    s.modHeat slot (fun h => { h with jobs := modAt h.jobs j (fun x => { x with fresh := [], noSoft := true }) })
  | none => s

/-- The combined soft values of codeword `i` put in a fresh buffer. -/
def State.keepSoft (s : State) (slot j i cls : Nat) (buf : Array Int) : State :=
  match (s.heat slot).bind (fun h => h.jobs[j]?) with
  | some x =>
    if x.noSoft then s
    else
      let a := s.alloc 42 cls
      if a.status = Sc.ok then
        let s := match a.st.handleMem a.val with
          | some m => a.st.write m.1 (buf.toList.map (fun v => BitVec.ofInt 8 v))
          | none => a.st
        s.modHeat slot (fun h => { h with jobs := modAt h.jobs j (fun x => { x with fresh := x.fresh ++ [(i, a.val)] }) })
      else a.st.noSoft slot j
  | none => s

/-- A job's soft-buffer state commits with its result (R297). -/
def State.harqCommit (s : State) (slot j : Nat) (decoded : Bool) : State :=
  match s.heat slot with
  | none => s
  | some h =>
    match h.jobs[j]? with
    | none => s
    | some x =>
      let c := h.carrier
      let key := jKey x.rec_
      let old := s.dirFind c key
      let rest := s.coding.dir.filter (fun e => !(e.carrier == c && e.key == key))
      let clear (s : State) := s.modHeat slot (fun h => { h with jobs := modAt h.jobs j (fun x => { x with fresh := [] }) })
      if decoded then
        let s := (s.setDir rest).freeAll 42 (((old.map (·.bufs)).getD []) ++ x.fresh.map (·.2))
        clear s
      else if x.noSoft then clear (s.freeAll 42 (x.fresh.map (·.2)))
      else if old.isNone && decide (16384 ≤ s.coding.dir.length) then
        clear ((s.freeAll 42 (x.fresh.map (·.2))).incRg R.COD_HARQ_HARQ_NOSB)
      else
        let e : HarqEntry := ⟨c, key, jTbs x.rec_, if jBg2 x.rec_ then 1 else 0,
          (List.range (jC x.rec_)).filterMap (fun i => (x.fresh.find? (fun f => f.1 == i)).map (·.2))⟩
        clear ((s.freeAll 42 ((old.map (·.bufs)).getD [])).setDir (rest ++ [e]))

/-! ## Codewords and blocks -/

def State.modJob (s : State) (slot j : Nat) (f : Job → Job) : State :=
  s.modHeat slot (fun h => { h with jobs := modAt h.jobs j f })

/-- The last codeword of a job has ended (R287, R291): the TB CRC, the block's buffers, the result, the soft buffers. -/
def State.blockDone (s : State) (slot j : Nat) : State :=
  match s.heat slot with
  | none => s
  | some h =>
    match h.jobs[j]? with
    | none => s
    | some x =>
      let cws := (List.range (jC x.rec_)).map (fun c => ((x.cwOut.find? (fun o => o.1 == c)).map (·.2.2)).getD [])
      let b := joinBlock x.rec_ cws
      if b.2 then
        let cls := cTbClass h.carRec
        let size := (s.pclass cls).size
        let a := s.allocN 42 cls (blockBufs (jTbs x.rec_) size) []
        if a.1 = Sc.ok then
          let bytes := packBits (jTbs x.rec_ / 8) b.1
          let s := a.2.1.zipIdx.foldl (fun s p => match s.handleMem p.1 with
            | some m => s.write m.1 (slice bytes (p.2 * 2 ^ size) (2 ^ size))
            | none => s) a.2.2
          (s.harqCommit slot j true).modJob slot j (fun x => { x with result := some 0, bufs := a.2.1 })
        else
          let s := (a.2.2.harqCommit slot j true).modJob slot j (fun x => { x with result := some 2 })
          s.modHeat slot (fun h => { h with undelivered := h.undelivered + 1 })
      else ((s.incRg R.COD_FAIL_TB_CRC).harqCommit slot j false).modJob slot j (fun x => { x with result := some 3 })

/-- A radio codeword decoded (R288 to R291, R296). -/
def State.codewordDone (s : State) (slot j c : Nat) : State :=
  match s.heat slot with
  | none => s
  | some h =>
    match h.jobs[j]? with
    | none => s
    | some x =>
      if h.live && x.result.isNone then
        let r := x.rec_
        let e := deinterleave (jQm r) ((x.llr.drop (jEoff r c)).take (jE r c)).toArray
        let buf := recover r e
        let m := s.matching h.carrier r
        let s := if !jNew r && m.isNone && x.cwOut.isEmpty then s.incRg R.COD_HARQ_HARQ_MISS else s
        let old := match m.bind (fun k => (k.bufs[c]?).bind s.handleMem) with
          | some y => s.readMem y.1 (jNcb r)
          | none => (some [], s)
        match old.1 with
        | none => (old.2.incRg R.FLT_CNT_DATA_LOST).loseJob slot j
        | some b =>
          let s := old.2
          let prev : Array Byte := b.toArray
          let buf : Array Int := ((List.range buf.size).map (fun i =>
            llr8 (buf.getD i 0 + (if i < prev.size then sext (prev.getD i 0).toNat 8 else 0)))).toArray
          let s := s.keepSoft slot j c (cHarqClass h.carRec) buf
          let d := ldpcDecode r buf
          let s := s.incRg R.COD_CW_CW
          let s := if jEt r && d.1 == jIterMax r then s.incRg R.COD_FAIL_ITER_CAP else s
          let s := s.modJob slot j (fun x => { x with cwOut := x.cwOut ++ [(c, d.1, d.2)], iters := max x.iters d.1 })
          if x.cwOut.length + 1 = jC r then s.blockDone slot j else s
      else s

/-- CODEWORD_DECODE_DONE (Table COD-4, R290): the decoder delivers its output and is FREE. Of a codeword of a port, `pon` is the
number of bits corrected, none where it could not be corrected (R360). -/
def execCodewordDecodeDone (d : Fin 16) (pon : Option Nat) (s : State) : Host.Outcome State Fault Refusal :=
  let x := s.dec d
  match if s.coreRuns then x.work else none with
  | some (.radio slot j c) =>
    let s := (s.freeDec d).codewordDone slot j c
    .next (if x.lent then s.incRg R.COD_LENT_CW_LENT_CW else s)
  | some (.pon p) =>
    let s := (s.freeDec d).incRg R.PON_FEC_CW_CW p
    .next (match pon with
      | some k => s.incRg R.PON_FEC_CORR_CORR p 0 k
      | none => s.incRg R.PON_FEC_UNC_UNC p)
  | none => .next s

/-- DECODER_PARITY_FAULT (Table COD-4): the codeword goes back to the head of the queue; the third fault in 1 s holds the decoder. -/
def execDecoderParityFault (d : Fin 16) (s : State) : Host.Outcome State Fault Refusal :=
  let x := s.dec d
  match x.work with
  | none => .next s
  | some w =>
    let now := s.tk.localNs
    let times := (x.faults.filter (fun t => decide (now < t + 1000000000))) ++ [now]
    let s := ((s.freeDec d).modDec d (fun x => { x with faults := times })).incRg R.COD_FAULT_FAULTS
    let s := { s with coding := { s.coding with again := w :: s.coding.again } }
    let s := (s.ev .COD_FAULT).incRg R.FLT_CNT_COVERED
    if times.length < 3 then .next s
    else
      let s := ((s.putRgBit R.COD_RESV_HELD d true).putRgBit R.COD_STAT_BUSY d true).ev .COD_HELD
      .next (match x.resv with
        | some p => (s.reserve d none).joinResv p
        | none => s)

/-- Held decoders freed by a reset (Table COD-4), each port's reservation as its mode has it. -/
def State.freeHeldDecs (s : State) : State :=
  let s := (List.range 16).foldl (fun s d => if s.decHeld d then s.putRgBit R.COD_STAT_BUSY d (s.dec d).work.isSome else s) s
  let s := s.setRg R.COD_RESV_HELD 0
  let s := (List.range 16).foldl (fun s d => (s.reserve d none).modDec d (fun x => { x with faults := [] })) s
  (s.setResv 0).setResv 1

/-- The soft-buffer directory emptied (R299). -/
def State.dirClear (s : State) : State := s.setDir []

/-! ## Encoders and polar requests -/

/-- ENCODE_CODEWORD_DONE (R305): the queued codeword with the earliest finish line has been encoded. -/
def execEncodeCodewordDone (s : State) : Host.Outcome State Fault Refusal :=
  match if s.coreRuns then s.coding.enc else [] with
  | [] => .next s
  | x :: xs =>
    let m := xs.foldl (fun a b => if b.1 < a.1 then b else a) x
    .next { s with coding := { s.coding with enc := (x :: xs).erase m } }

/-- Fields of a polar request (Table COD-5). -/
def pDecode (d : List Byte) : Bool := recF d 0 0 1 == 1
def pType (d : List Byte) : Nat := recF d 0 1 2
def pA (d : List Byte) : Nat := rec16 d 2
def pE (d : List Byte) : Nat := rec16 d 4
def pIn (d : List Byte) : Nat := rec32 d 8
def pOut (d : List Byte) : Nat := rec32 d 12

/-- Bytes that a request reads, and writes. -/
def pInBytes (d : List Byte) : Nat := if pDecode d then pE d else (pA d + 7) / 8
def pOutBytes (d : List Byte) : Nat := if pDecode d then 8 + (pA d + 7) / 8 else (pE d + 7) / 8

/-- The limits of Table COD-6. -/
def polarOk (d : List Byte) : Bool :=
  let a := pA d
  let e := pE d
  let crc := if a ≤ 19 then 6 else 11
  recF d 0 3 5 == 0 && rec8 d 1 == 0 && zeroAt d 16 16 && (match pType d with
    | 0 => decide (12 ≤ a) && decide (a ≤ 140) && decide (25 ≤ e) && decide (e ≤ 8192)
    | 1 => decide (12 ≤ a) && decide (a ≤ 1706) && decide (a + crc ≤ e) && decide (e ≤ 16384)
    | 2 => a == 32 && e == 864
    | _ => false)

/-- The result of a request: its bytes, and CRC_OK of a decode. -/
def polarResult (d inp : List Byte) : List Byte × Bool :=
  let req := d.take 8
  if pDecode d then
    let ok := (Config.polarByte req inp 0).getLsbD 0
    ([if ok then 1 else 0, 0] ++ leBytes 2 (pA d) ++ List.replicate 4 0 ++
      (List.range ((pA d + 7) / 8)).map (fun i => Config.polarByte req inp (i + 8)), ok)
  else ((List.range ((pE d + 7) / 8)).map (Config.polarByte req inp), true)

/-- POLAR_DONE (R306 to R309): the oldest request ends and its command completes. -/
def execPolarDone (s : State) : Host.Outcome State Fault Refusal :=
  match if s.coreRuns then s.coding.polar else [] with
  | [] => .next s
  | q :: rest =>
    let s := { s with coding := { s.coding with polar := rest } }
    match s.handleMem (pIn q.desc), s.handleMem (pOut q.desc) with
    | some a, some b =>
      let r := s.readMem a.1 (pInBytes q.desc)
      match r.1 with
      | none => .next ((r.2.incRg R.FLT_CNT_DATA_LOST).complete q.ring q.cid Sc.dataLost)
      | some inp =>
        let o := polarResult q.desc inp
        let s := r.2.write b.1 o.1
        let s := if pDecode q.desc then
            let s := s.incRg R.COD_POLAR_DECODES
            if o.2 then s else s.incRg R.COD_POLAR_CRC_FAIL
          else s
        .next (s.complete q.ring q.cid Sc.ok (if pDecode q.desc then (if o.2 then 1 else 0) else pE q.desc))
    | _, _ => .next (s.complete q.ring q.cid Sc.badField)

end Sys2Proof.Machine
end

