-- ==== Sys2Proof/Machine/Optic.lean ====
section
/-! DEFINITION. Pluggable optics (R389 to R408): the states of a port's optic, identity and acceptance, the wear ledger and end of life. -/

namespace Sys2Proof.Machine

def State.optic (s : State) (p : Nat) : Optic := vget s.optics p
def State.modOptic (s : State) (p : Nat) (f : Optic → Optic) : State := { s with optics := vmod s.optics p f }
def State.optState (s : State) (p : Nat) : Nat := s.rg R.OPT_STAT_STATE p

/-- Vector 68 and its cause. -/
def State.optIrq (s : State) : State := s.cause R.INT_CAUSE_OPTIC 68

/-- A port's optic enters a state (Table OPT-2): OPT_BEN_p and the laser follow it, and vector 68 is raised. -/
def State.setOptic (s : State) (p v : Nat) : State :=
  let s := ((s.setRg R.OPT_STAT_STATE v p).modOptic p (fun o => { o with since := s.tk.localNs })).laserUpdate p
  s.optIrq

/-- Fields of the OPTIC_CONFIG record (R519). -/
def Optic.i2cFast (o : Optic) : Bool := recF o.rec_ 0 1 1 == 1
def Optic.waveTol (o : Optic) : Nat := rec8 o.rec_ 1
def Optic.waveNm (o : Optic) : Nat := rec16 o.rec_ 2
def Optic.ledgerS (o : Optic) : Nat := rec32 o.rec_ 8
def Optic.tempHi (o : Optic) : Int := sext (rec8 o.rec_ 12) 8 * 256
def Optic.tempLo (o : Optic) : Int := sext (rec8 o.rec_ 13) 8 * 256

/-- What identification read: vendor OUI, part number and serial number (Table OPT-3, R395). -/
def Optic.oui (o : Optic) : List Byte := slice o.a0 37 3
def Optic.part (o : Optic) : List Byte := slice o.a0 40 16
def Optic.serial (o : Optic) : List Byte := slice o.a0 68 16
def Optic.ident (o : Optic) : List Byte := o.oui ++ o.serial

/-! ## Checks (Table OPT-3) -/

/-- The sum of bytes, modulo 256. -/
def sum8 (bs : List Byte) : Nat := (bs.map (·.toNat)).sum % 256

/-- Whether the accept list has an optic (R394). -/
def State.listed (s : State) (o : Optic) : Bool :=
  s.acceptList.any (fun e => e.take 3 == o.oui && o.part.take (rec8 e 3) == slice e 4 (rec8 e 3))

/-- The reject reason of an optic whose reads came back; 0 when every check passes. -/
def State.rejectReason (s : State) (o : Optic) : Nat :=
  let a := o.a0
  let nm := rec8 a 60 * 256 + rec8 a 61
  if rec8 a 0 ≠ 3 then 1
  else if sum8 (a.take 63) ≠ rec8 a 63 || sum8 (slice a 64 31) ≠ rec8 a 95 then 2
  else if recF a 92 6 1 = 0 then 3
  else if o.waveNm ≠ 0 && (decide (nm + o.waveTol < o.waveNm) || decide (o.waveNm + o.waveTol < nm)) then 4
  else if rec8 a 94 = 0 then 5
  else if s.acceptMode && !s.listed o then 6
  else 0

/-! ## The ledger (R399 to R403) -/

/-- Whether a slot holds a valid record (R400). -/
def ledgerOk (r : List Byte) : Bool :=
  r.length == 56 && rec16 r 0 == 0x4C57 && rec8 r 2 == 1 && rec32 r 52 == crc32 (r.take 52)

def ledgerSeq (r : List Byte) : Nat := rec32 r 4

/-- Whether record `a` is newer than `b`, by SEQ in serial order. -/
def ledgerNewer (a b : List Byte) : Bool := serialAhead (ledgerSeq a) (ledgerSeq b) 32

/-- The slot of an optic that holds the newer valid record. -/
def Optic.newer (o : Optic) : Option Nat :=
  match ledgerOk o.slot0, ledgerOk o.slot1 with
  | true, true => if ledgerNewer o.slot1 o.slot0 then some 1 else some 0
  | true, false => some 0
  | false, true => some 1
  | false, false => none

/-- The newer valid record of an optic. -/
def Optic.newerRec (o : Optic) : Option (List Byte) := o.newer.map (fun k => if k = 0 then o.slot0 else o.slot1)

/-- A record with its CRC. -/
def sealLedger (r : List Byte) : List Byte := putRec r 52 4 (crc32 (r.take 52))

/-- A record stored in an optic's EEPROM; a write that fails its readback leaves the ledger in the mirror only (R402). -/
def State.eepromWrite (s : State) (p : Nat) (r : List Byte) (ok : Bool) : State :=
  let o := s.optic p
  if s.flag R.OPT_STAT_LEDGER_RO p then s
  else if ok then
    if o.newer = some 0 then s.modOptic p (fun o => { o with slot1 := r }) else s.modOptic p (fun o => { o with slot0 := r })
  else (s.setRg R.OPT_STAT_LEDGER_RO 1 p).ev .OPT_LEDGER p

/-- The ledger written (R403) to the mirror, and to the optic unless it has gone. None starts once PWR_FAIL_N is asserted. -/
def State.writeLedger (s : State) (p : Nat) (toOptic ok : Bool) : State :=
  let o := s.optic p
  if o.ledger.isEmpty || s.flag R.PWR_RAIL_PWR_FAIL then s
  else
    let r := putRec o.ledger 4 4 ((ledgerSeq o.ledger + 1) % 2 ^ 32)
    let r := sealLedger (putRec r 24 4 (s.secAt s.tk.ns % 2 ^ 32))
    let s := s.modOptic p (fun o => { o with ledger := r, sinceWrite := 0 })
    let s := if toOptic then s.eepromWrite p r ok else s
    s.saveMirror o.ident r

/-- A new ledger record (R402). -/
def State.newLedger (s : State) : List Byte :=
  sealLedger (leBytes 4 0x14C57 ++ leBytes 16 0 ++ leBytes 4 (s.secAt s.tk.ns) ++ leBytes 32 0)

/-! ## End of life (R404, R405) -/

/-- The levels of Table OPT-5 that hold now; a criterion whose threshold, or whose baseline, is 0 does not count. -/
def Optic.wears (o : Optic) : Bool × Bool :=
  let l := o.ledger
  let on := rec32 l 8
  let base := rec16 l 28
  let now := rec16 l 30
  let life (h : Nat) := decide (0 < h) && decide (h * 3600 ≤ on)
  let bias (pct : Nat) := decide (0 < pct) && decide (0 < base) && decide (base * pct ≤ now * 100)
  let alarm := rec8 o.a2 8 * 256 + rec8 o.a2 9
  (life (rec32 o.rec_ 20) || bias (rec16 o.rec_ 14) || (decide (0 < rec32 o.rec_ 28) && decide (rec32 o.rec_ 28 ≤ rec32 l 36)),
    life (rec32 o.rec_ 24) || bias (rec16 o.rec_ 16) || (decide (0 < alarm) && decide (alarm ≤ now)))

/-- A level handled as at its declaration (R405). -/
def State.wearEvents (s : State) (p : Nat) (warn eol : Bool) : State :=
  let s := if warn then (s.ev .OPT_EOL_WARN p).optIrq else s
  if eol then (s.ev .OPT_EOL p).optIrq else s

/-- The latched levels shown in OPT_STAT, and the laser's permission with them. -/
def State.showWear (s : State) (p : Nat) : State :=
  let l := (s.optic p).ledger
  (s.setRg R.OPT_STAT_WEAR (if recF l 3 1 1 = 1 then 2 else recF l 3 0 1) p).laserUpdate p

/-- The criteria evaluated: levels latch, are logged, and a change writes the ledger. -/
def State.wearCheck (s : State) (p : Nat) (ok : Bool) : State :=
  let o := s.optic p
  let w := o.wears
  let warn := w.1 && recF o.ledger 3 0 1 == 0
  let eol := w.2 && recF o.ledger 3 1 1 == 0
  if warn || eol then
    let f := rec8 o.ledger 3 + (if warn then 1 else 0) + (if eol then 2 else 0)
    let s := (s.modOptic p (fun o => { o with ledger := putRec o.ledger 3 1 f })).wearEvents p warn eol
    (s.showWear p).writeLedger p true ok
  else s

/-! ## States -/

/-- An optic accepted (R402): its ledger is the newest of its slots and the mirror, or a new one; its level is driven and the laser permitted. -/
def State.acceptOptic (s : State) (p : Nat) (ok : Bool) : State :=
  let o := s.optic p
  let own := o.newerRec
  let mir := s.mirrorOf o.ident
  let take_ := match own, mir with
    | some a, some b => some (if ledgerNewer b a then b else a)
    | some a, none => some a
    | none, b => b
  let fresh := s.newLedger
  let l := take_.getD fresh
  let s := s.modOptic p (fun o => { o with ledger := l, sinceWrite := 0, hour := [], base := [], hot := false, cold := false, laserNs := 0 })
  let s := if (match own, take_ with | some a, some b => a != b && ledgerNewer b a | none, some _ => true | _, _ => false)
    then s.eepromWrite p l ok else s
  let s := (s.setRg R.OPT_LASER_LASER_ON_S (rec32 l 8) p).setRg R.OPT_BIAS_BASE (rec16 l 28) p
  let s := ((s.setRg R.OPT_STAT_REASON 0 p).ev .OPT_ACCEPT p).setOptic p 3
  let s := (s.driveLevel p).showWear p
  (s.wearEvents p (recF l 3 0 1 == 1) (recF l 3 1 1 == 1)).leaveO1 p

/-- OPTIC_INSERT (Table OPT-2): OPT_ABS_p has been low for 100 ms; OPT_ABSENT clears with it. -/
def execOpticInsert (p : Fin 2) (s : State) : Host.Outcome State Fault Refusal :=
  if s.optState p = 0 then
    let d := s.defect p 0
    let s := if d.st = .leaving then s.since d.since 100000000 else s
    let s := s.modPort p (fun x => { x with raw := putBit x.raw 0 false })
    let s := if (s.defect p 0).st = .clear then s else s.clearDefect p 0
    .next (((s.ev .OPT_INSERT p).modOptic p (fun o => { o with level := 0 })).setOptic p 1)
  else .next s

/-- OPTIC_SETTLED: 300 ms after insertion the identity is read. -/
def execOpticSettled (p : Fin 2) (s : State) : Host.Outcome State Fault Refusal :=
  if s.optState p = 1 then .next ((s.since (s.optic p).since 300000000).setOptic p 2) else .next s

/-- OPTIC_IDENTIFY_DONE (R393, R395, R402): A0h bytes 0 to 95, A2h bytes 0 to 127 and the two ledger slots, or none when a read failed;
`ok` is whether a ledger write reads back. -/
def execOpticIdentifyDone (p : Fin 2) (reads : Option (List Byte × List Byte × List Byte × List Byte)) (ok : Bool) (s : State) :
    Host.Outcome State Fault Refusal :=
  if s.optState p = 2 then
    let reject (s : State) (r : Nat) : State := ((s.setRg R.OPT_STAT_REASON r p).ev .OPT_REJECT p [r]).setOptic p 4
    match reads with
    | none => .next (reject (s.incRg R.OPT_FAULT_I2C p) 7)
    | some (a0, a2, s0, s1) =>
      let s := s.modOptic p (fun o => { o with a0 := a0, a2 := a2, slot0 := s0, slot1 := s1 })
      let r := s.rejectReason (s.optic p)
      let overridden := r = 6 && s.overrides.contains (s.optic p).ident
      let s := s.setRg R.OPT_STAT_OVERRIDE (if overridden then 1 else 0) p
      .next (if r = 0 || overridden then s.acceptOptic p ok else reject s r)
  else .next s

/-- A burst in progress cut short: its first `sent` frames have gone, the others return (R377). -/
def State.cutBurst (s : State) (p sent : Nat) : State :=
  match (s.port p).bursts.find? (·.started) with
  | none => s
  | some b =>
    let s := s.modPort p (fun x => { x with bursts := x.bursts.filter (fun y => !(y == b)) })
    let s := (b.pieces.drop sent).reverse.foldl State.unfixPiece s
    (s.sentPieces { b with pieces := b.pieces.take sent }).benPulse p b.start s.tk.ns false

/-- OPTIC_TX_FAULT (Table OPT-2): OPT_TXF_p has been high for 10 µs; a burst in progress is cut after `sent` frames. The first fault in 60 s
holds the laser off for 10 ms, another moves the optic to FAULT. -/
def execOpticTxFault (p : Fin 2) (sent : Nat) (s : State) : Host.Outcome State Fault Refusal :=
  let s := s.incRg R.OPT_FAULT_TXF p
  if s.optState p = 3 then
    let now := s.tk.localNs
    let again := match (s.optic p).lastFault with | some t => decide (now < t + 60000000000) | none => false
    let s := (s.modOptic p (fun o => { o with lastFault := some now, txHold := !again })).cutBurst p sent
    .next (if again then (s.ev .OPT_FAULT p).setOptic p 5 else s.laserUpdate p)
  else .next s

/-- OPTIC_TX_REPERMIT: the 10 ms hold ends. -/
def execOpticTxRepermit (p : Fin 2) (s : State) : Host.Outcome State Fault Refusal :=
  let o := s.optic p
  if o.txHold then
    let s := s.since (o.lastFault.getD s.tk.localNs) 10000000
    .next (((s.modOptic p (fun o => { o with txHold := false })).laserUpdate p).leaveO1 p)
  else .next s

/-- OPTIC_REMOVE (Table OPT-2): OPT_ABS_p has gone high; a burst in progress is cut after `sent` frames, the ledger goes to the mirror and
OPT_ABSENT begins. -/
def execOpticRemove (p : Fin 2) (sent : Nat) (s : State) : Host.Outcome State Fault Refusal :=
  if s.optState p = 0 then .next s
  else
    let s := ((s.cutBurst p sent).writeLedger p false false).ev .OPT_REMOVE p
    let s := s.modOptic p (fun o => { o with
      a0 := [], a2 := [], slot0 := [], slot1 := [], ledger := [], diag := [0, 0, 0, 0, 0], hour := [], base := [], txHold := false
      lastFault := none })
    let s := [R.OPT_STAT_REASON, R.OPT_STAT_WEAR, R.OPT_STAT_LEDGER_RO, R.OPT_STAT_OVERRIDE, R.OPT_STAT_LEVEL, R.OPT_BIAS_NOW,
      R.OPT_BIAS_BASE, R.OPT_LASER_LASER_ON_S].foldl (fun s f => s.setRg f 0 p) s
    .next ((s.setOptic p 0).defCond p 0 true)

/-- The monitor values of a second folded into the ledger (Table OPT-4). -/
def State.monitor (s : State) (p : Nat) (d : List Nat) : State :=
  let o := s.optic p
  let bias := d.getD 2 0 % 65536
  let temp := sext (d.getD 0 0) 16
  let hot := decide (o.tempHi ≤ temp)
  let cold := decide (temp < o.tempLo)
  let l := o.ledger
  let on := s.flag R.PON_STAT_LASER p
  let hour := if on then (o.hour ++ [bias]).drop ((o.hour.length + 1) - 3600) else o.hour
  let base := if on && rec16 l 28 == 0 then o.base ++ [bias] else o.base
  let mean (x : List Nat) := if x.isEmpty then 0 else x.sum / x.length
  let l := if hour.isEmpty then l else putRec l 30 2 (mean hour)
  let l := putRec l 32 2 (max (rec16 l 32) bias)
  let l := if decide (sext (rec16 l 34) 16 < temp) || rec32 l 44 == 0 then putRec l 34 2 (toBits temp 16) else l
  let l := if hot then putRec l 36 4 (rec32 l 36 + 1) else l
  let l := if hot && !o.hot then putRec l 40 2 (rec16 l 40 + 1) else l
  let l := if cold && !o.cold then putRec l 42 2 (rec16 l 42 + 1) else l
  let l := putRec l 44 4 (rec32 l 44 + 1)
  let l := if base.length = 60 then putRec l 28 2 (mean base) else l
  let s := s.modOptic p (fun o => { o with
    diag := d, ledger := l, hour := hour, base := if base.length = 60 then [] else base, hot := hot, cold := cold
    sinceWrite := o.sinceWrite + 1 })
  (s.setRg R.OPT_BIAS_NOW bias p).setRg R.OPT_BIAS_BASE (rec16 l 28) p

/-- OPTIC_MONITOR_POLL (R390, R404): a PM second has come while the optic is ACCEPTED or FAULT. `diag` gives temperature, VCC, TX bias, TX
power and RX power, calibrated as SFF-8472 defines, or none when the reads failed; `ok` is whether a ledger write reads back. -/
def execOpticMonitorPoll (p : Fin 2) (diag : Option (List Nat)) (ok : Bool) (s : State) : Host.Outcome State Fault Refusal :=
  if s.optState p = 3 || s.optState p = 5 then
    match diag with
    | none => .next ((s.modOptic p (fun o => { o with
        ledger := putRec o.ledger 44 4 (rec32 o.ledger 44 + 1), sinceWrite := o.sinceWrite + 1 })).incRg R.OPT_FAULT_I2C p)
    | some d => .next ((s.monitor p d).wearCheck p ok)
  else .next s

/-- OPTIC_LEDGER_WRITE (R403): LEDGER_S seconds of POWERED_S have gone since the last write. -/
def execOpticLedgerWrite (p : Fin 2) (ok : Bool) (s : State) : Host.Outcome State Fault Refusal :=
  if (s.optState p = 3 || s.optState p = 5) && decide ((s.optic p).ledgerS ≤ (s.optic p).sinceWrite) then
    .next (s.writeLedger p true ok)
  else .next s

end Sys2Proof.Machine
end

