-- ==== Sys2Proof/Machine/PonCmd.lean ====
section
/-! DEFINITION. The fibre and optic commands (R511 to R521). -/

namespace Sys2Proof.Machine

/-! ## PON_CONFIG (R511) -/

/-- Whether a record obeys Table CMO-4. -/
def ponRecOk (r : List Byte) : Bool :=
  let mode := recF r 0 0 2
  let up := rec8 r 1
  recF r 0 6 2 == 0 && decide (mode ≤ 2) && !(recF r 0 2 1 == 1 && mode == 0) && decide (up ≤ 2) && !(mode == 2 && up != 0) &&
    decide (rec8 r 2 ≤ 8) && rec8 r 3 == 0 && decide (rec16 r 4 ≤ 500) &&
    (rec16 r 8 == 0 || (decide (1000 ≤ rec16 r 8) && decide (rec16 r 8 ≤ 60000))) &&
    (rec16 r 10 == 0 || (decide (10 ≤ rec16 r 10) && decide (rec16 r 10 ≤ 1000))) &&
    zeroAt r 22 2 && zeroAt r 68 60

/-- The static fields of a record: MODE, UP_RATE, the serial number and the registration ID. -/
def ponStatic (r : List Byte) : Nat × Nat × List Byte := (recF r 0 0 2, recF r 1 0 2, slice r 24 44)

/-- What waits for a frame boundary of a port takes effect now. -/
def State.pendNow (s : State) (p : Nat) : State :=
  let pend := (s.port p).xgemPend
  let s := s.modPort p (fun x => { x with xgemPend := [], pmRec := x.rec_ })
  pend.foldl (fun s (x : Nat × XgemEntry × Nat × Nat) => (s.setXgem p x.1 x.2.1).complete x.2.2.1 x.2.2.2 Sc.ok) s

/-- A port disabled (Table PON-5): the laser goes off, activation data, defects and downstream data are cleared, and upstream data goes
back (R327, R513). -/
def State.ponDisable (s : State) (p : Nat) : State :=
  let s := s.setO p 1
  let s := (s.clearActivation p).setRg R.PON_STAT_SYNC 0 p
  let s := (s.port p).bursts.foldl (fun s b => if b.started then s else s.unfixBurst p b) s
  let s := (s.pendNow p).returnItems p (fun _ => true)
  let s := (s.port p).sdus.foldl (fun s o => (s.dropSdu p o R.PON_DROP_REASM_DROP).setSdu p o.entry none) s
  let s := (s.port p).blocks.foldl (fun s b => s.dropBlock p b.entry R.PON_BLOCK_BLOCK_DROP) s
  let s := s.modPort p (fun x => { x with
    to1 := 0, to2 := 0, ploamQ := [], sleepQ := none, profiles := [], latches := [], sf := none, snPend := false, wait := 0 })
  ((s.defClearAll p).setResv p).laserUpdate p

/-- A record put in force on a port (Table PON-8); ENABLE starts activation, in O7 where the disabled flag is set (R335, R336). -/
def State.ponConfig (s : State) (p : Nat) (r : List Byte) : State :=
  let was := (s.port p).enabled
  let modeWas := (s.port p).mode
  let s := s.modPort p (fun x => { x with rec_ := r })
  let en := (s.port p).enabled
  if was && !en then s.ponDisable p
  else if was then s
  else
    let s := s.modPort p (fun x => { x with pmRec := r })
    let s := if modeWas = (s.port p).mode then s else (s.defClearAll p).defStart p
    if en then
      let s := (s.setRg R.PON_STAT_OSTATE 1 p).setResv p
      let s := if (s.port p).disabled then s.setO p 7 else s
      s.laserUpdate p
    else s

/-- PON_CONFIG. -/
def execPonConfig (ring : Fin 64) (cid : Fin 65536) (d : HostData) (s : State) : Host.Outcome State Fault Refusal :=
  .next (s.start ring cid 0x50 (fun c s =>
    let p := c.arg 8 0 1
    s.check c (c.only [(8, 0, 1), (9, 0, 1), (16, 0, 64)]) (fun s =>
      s.withRecord c (c.arg 9 0 1 == 1) (c.arg 16 0 64) 128 d (fun r s =>
        s.check c (ponRecOk r) (fun s =>
          let x := s.port p
          let same := ponStatic r == ponStatic (fitBytes 128 x.rec_)
          if x.enabled && !same then s.fin c Sc.cfgBusy
          else s.user0 c (fun s => (s.ponConfig p r).fin c Sc.ok (if same then 1 else 0)))))))

/-! ## The XGEM table (R322, R512) -/

/-- The rules of R322 for a new entry `e` of a port. -/
def State.xgemOk (s : State) (p e : Nat) (x : XgemEntry) : Bool :=
  let tab := ((s.port p).xgemPend.foldl (fun t y => Store.put {} t y.1 y.2.1) (s.port p).xgem).filter (fun y => y.1 != e && y.2.valid)
  decide (x.kind ≤ 4) && (!x.valid ||
    (!tab.any (fun y => y.2.up == x.up && y.2.portId == x.portId) &&
      (x.kind != 3 || !tab.any (fun y => y.2.kind == 3 && y.2.carriers &&& x.carriers != 0)) &&
      (if x.up then x.alloc == 0 || Store.get 0 (s.port p).allocs x.alloc != 0
        else decide (1 ≤ x.ring) && (s.ring x.ring).st != .absent && (x.kind != 0 || x.ring == 1) &&
          (x.kind != 2 || ((s.pclass x.cls).conf && decide (13 ≤ (s.pclass x.cls).size))))))

/-- PON_XGEM_SET: the entry changes at the next PON frame; at once where the port has none. -/
def execPonXgemSet (ring : Fin 64) (cid : Fin 65536) (s : State) : Host.Outcome State Fault Refusal :=
  .next (s.start ring cid 0x51 (fun c s =>
    let p := c.arg 8 0 1
    let e := c.arg 9 0 8
    let x : XgemEntry := ⟨c.arg 10 0 1 == 1, c.arg 10 1 1 == 1, c.arg 10 2 3, c.arg 10 5 1 == 1, c.arg 10 6 1 == 1, c.arg 11 0 5,
      c.arg 12 0 16, c.arg 14 0 6, c.arg 15 0 5, c.arg 16 0 4⟩
    s.check c (c.only [(8, 0, 1), (9, 0, 8), (10, 0, 7), (11, 0, 5), (12, 0, 16), (14, 0, 6), (15, 0, 5), (16, 0, 4)] && s.xgemOk p e x)
      (fun s =>
        if ((s.port p).entry e).up && (s.port p).items.any (fun i => i.entry == e) then s.fin c Sc.cfgBusy
        else s.user0 c (fun s =>
          if (s.port p).enabled && s.flag R.PON_STAT_SYNC p then
            s.modPort p (fun q => { q with xgemPend := q.xgemPend ++ [(e, x, c.ring, c.cid)] })
          else (s.setXgem p e x).fin c Sc.ok))))

/-! ## Upstream data and status (R513, R514) -/

/-- PON_SEND. -/
def execPonSend (ring : Fin 64) (cid : Fin 65536) (s : State) : Host.Outcome State Fault Refusal :=
  .next (s.start ring cid 0x52 (fun c s =>
    let p := c.arg 8 0 1
    let e := c.arg 9 0 8
    let h := c.arg 12 0 32
    let n := c.arg 16 0 17
    let x := (s.port p).entry e
    let size := match s.classOf (hIndex h) with | some k => 2 ^ (s.pclass k).size | none => 0
    s.check c (c.only [(8, 0, 1), (9, 0, 8), (12, 0, 32), (16, 0, 17)] && x.valid && x.up && decide (x.kind ≤ 1) &&
        decide (1 ≤ n) && decide (n ≤ size)) (fun s =>
      s.user0 c (fun s =>
        if !s.inO5 p then s.fin c Sc.ponNotOperating
        else
          let a := s.pgive (32 + c.user) h (portOwner p)
          if a.status = Sc.ok then
            (a.st.pushItem p { id := 0, entry := e, kind := x.kind, bufs := [a.val], size := size, len := n, ready := 0, todo := []
                               ring := c.ring, cid := c.cid }).ponStimulus p
          else a.st.fin c a.status))))

/-- PON_WAKE: RESULT is the power-saving state before. -/
def execPonWake (ring : Fin 64) (cid : Fin 65536) (s : State) : Host.Outcome State Fault Refusal :=
  .next (s.start ring cid 0x53 (fun c s =>
    let p := c.arg 8 0 1
    s.check c (c.only [(8, 0, 1)]) (fun s => s.user0 c (fun s => (s.ponStimulus p).fin c Sc.ok (s.rg R.PON_STAT_PM p)))))

/-- A command of user 0 that writes bytes at the ADDR of its ARGS, whose H bit stands at `hb`. -/
def State.reply (s : State) (c : Cmd) (hb : Nat) (b : List Byte) : State :=
  s.check c (s.fieldOk c (c.arg hb 0 1 == 1) (c.arg 16 0 64) b.length true) (fun s =>
    s.user0 c (fun s => (s.writeField c (c.arg hb 0 1 == 1) (c.arg 16 0 64) b).fin c Sc.ok b.length))

/-- PON_STATUS. -/
def execPonStatus (ring : Fin 64) (cid : Fin 65536) (s : State) : Host.Outcome State Fault Refusal :=
  .next (s.start ring cid 0x54 (fun c s =>
    s.check c (c.only [(8, 0, 1), (9, 0, 1), (16, 0, 64)]) (fun s => s.reply c 9 (s.regBytes (0x3700 + 0x40 * c.arg 8 0 1) 16))))

/-! ## Performance bins (R515, R516) -/

/-- The bin that PM_READ names: a current bin ends at the latest second mark. -/
def State.pmBin (s : State) (kind index : Nat) : Option ClosedBin :=
  let at_ : State := { s with tk := { s.tk with localNs := s.pm.markLocal } }
  match kind with
  | 0 => s.pm.image
  | 1 => some (at_.closeBin s.pm.quarter false s.pm.mark)
  | 2 => some (at_.closeBin s.pm.day true s.pm.mark)
  | 3 => s.pm.hist[index]?
  | _ => s.pm.prevDay

/-- PM_READ. -/
def execPmRead (ring : Fin 64) (cid : Fin 65536) (s : State) : Host.Outcome State Fault Refusal :=
  .next (s.start ring cid 0x55 (fun c s =>
    let kind := c.arg 8 0 3
    s.check c (c.only [(8, 0, 3), (9, 0, 8), (10, 0, 1), (16, 0, 64)] && decide (kind ≤ 4) && decide (kind != 3 || c.arg 9 0 8 ≤ 95) &&
        s.fieldOk c (c.arg 10 0 1 == 1) (c.arg 16 0 64) 2080 true) (fun s =>
      match s.pmBin kind (c.arg 9 0 8) with
      | some b => s.reply c 10 b.bytes
      | none => s.user0 c (fun s => s.fin c 0x0144))))

/-- PM_THRESH_SET. -/
def execPmThreshSet (ring : Fin 64) (cid : Fin 65536) (s : State) : Host.Outcome State Fault Refusal :=
  .next (s.start ring cid 0x56 (fun c s =>
    let pt := c.arg 8 0 8
    s.check c (c.only [(8, 0, 8), (16, 0, 64), (24, 0, 64)] && !(decide (89 ≤ pt) && decide (pt ≤ 95)) && decide (pt < 196)) (fun s =>
      s.user0 c (fun s =>
        ({ s with pm := { s.pm with
          thrQ := Store.put 0 s.pm.thrQ pt (c.arg 16 0 64), thrD := Store.put 0 s.pm.thrD pt (c.arg 24 0 64) } }).fin c Sc.ok))))

/-! ## The bonded group and tributaries (R517, R518) -/

/-- BOND_SET with its map read. -/
def State.bondSet (s : State) (c : Cmd) (map : List Nat) : State :=
  let en := c.arg 8 0 1 == 1
  let gap := c.arg 10 0 8
  let static := map != s.bond.map || gap != s.bond.gapWait
  s.check c (!en || ((s.port 0).enabled && (s.port 1).enabled && (s.port 0).mode == (s.port 1).mode)) (fun s =>
    if s.bndState ≠ 0 && static then s.fin c Sc.cfgBusy
    else s.user0 c (fun s =>
      ({ s with bond := { s.bond with
        weightA := c.arg 9 0 8, gapWait := gap, map := map
        pendEn := if en == (s.bndState != 0) then none else some en } }).fin c Sc.ok (if static then 0 else 1)))

/-- BOND_SET. -/
def execBondSet (ring : Fin 64) (cid : Fin 65536) (d : HostData) (s : State) : Host.Outcome State Fault Refusal :=
  .next (s.start ring cid 0x57 (fun c s =>
    let w := c.arg 9 0 8
    let g := c.arg 10 0 8
    let n := c.arg 11 0 8
    s.check c (c.only [(8, 0, 1), (9, 0, 8), (10, 0, 8), (11, 0, 8), (12, 0, 1), (16, 0, 64)] && decide (1 ≤ w) && decide (w ≤ 15) &&
        decide (1 ≤ g) && decide (g ≤ 20) && decide (n ≤ 64)) (fun s =>
      if n = 0 then s.bondSet c []
      else s.withRecord c (c.arg 12 0 1 == 1) (c.arg 16 0 64) (2 * n) d (fun r s =>
        s.bondSet c ((List.range n).map (fun i => rec16 r (2 * i)))))))

/-- Whether a range lies in the Field pool or in LPDDR5X. -/
def State.inFieldOrLp (s : State) (a n : Nat) : Bool := s.inMem a n && decide (0x0800_0000 ≤ a)

/-- FRT_SET. -/
def execFrtSet (ring : Fin 64) (cid : Fin 65536) (s : State) : Host.Outcome State Fault Refusal :=
  .next (s.start ring cid 0x58 (fun c s =>
    let t := c.arg 8 0 4
    let en := c.arg 8 4 1 == 1
    let y := s.frt t
    let x : Frt := { y with
      up := c.arg 8 5 1 == 1, slip := c.arg 8 6 1 == 1, port := c.arg 9 0 2, entry := c.arg 10 0 8, thresh := c.arg 11 0 8
      n := c.arg 12 0 16, cap := c.arg 16 0 32, centre := c.arg 20 0 32, buf := c.arg 24 0 46, ctrl := c.arg 32 0 46 }
    let entryOk (p : Nat) : Bool :=
      let e := (s.port p).entry x.entry
      e.valid && e.kind == 4 && e.up == x.up
    s.check c (c.only [(8, 0, 7), (9, 0, 2), (10, 0, 8), (11, 0, 8), (12, 0, 16), (16, 0, 32), (20, 0, 32), (24, 0, 46), (32, 0, 46)] &&
        decide (x.port ≤ 2) && decide (1 ≤ x.thresh) && decide (8 ≤ x.n) && decide (x.n ≤ 8000) && x.cap % x.n == 0 &&
        decide (4 * x.n ≤ x.cap) && decide (x.centre + 3 * x.n ≤ x.cap) && x.ctrl % 64 == 0 && s.inFieldOrLp x.buf x.cap &&
        s.inFieldOrLp x.ctrl 64 && (if x.port = 2 then entryOk 0 && entryOk 1 && s.bndState != 0 else entryOk x.port)) (fun s =>
      let static := !({ x with thresh := y.thresh } == y)
      if s.flag R.FRT_STAT_EN t && static then s.fin c Sc.cfgBusy
      else s.user0 c (fun s =>
        (s.modFrt t (fun _ => { x with pendEn := if en == s.flag R.FRT_STAT_EN t then none else some en })).fin c Sc.ok
          (if static then 0 else 1)))))

/-! ## Optics (R519 to R521) -/

/-- Whether the header of an OPTIC_CONFIG record obeys Table OPT-6. -/
def opticRecOk (r : List Byte) : Bool :=
  recF r 0 4 4 == 0 && decide (1 ≤ rec8 r 1) && decide (rec8 r 1 ≤ 20) && decide (rec16 r 2 ≤ 1650) && decide (rec16 r 4 ≤ 4095) &&
    decide (rec16 r 6 ≤ 1023) && decide (600 ≤ rec32 r 8) && decide (rec32 r 8 ≤ 86400) && decide (100 ≤ rec16 r 14) &&
    decide (rec16 r 14 ≤ 400) && decide (100 ≤ rec16 r 16) && decide (rec16 r 16 ≤ 400) && decide (rec8 r 18 ≤ 32) && rec8 r 19 == 0 &&
    zeroAt r 32 16

/-- The part of the record that is the port's own: everything but ACCEPT_MODE, LIST_WR and N_LIST. -/
def opticOwn (r : List Byte) : List Byte := putRec (putRec (r.take 48) 0 1 (recF r 0 1 2 * 2)) 18 1 0

/-- OPTIC_CONFIG with its whole record. -/
def State.opticConfig (s : State) (c : Cmd) (p : Nat) (r : List Byte) : State :=
  let old := (s.optic p).rec_
  let listWr := recF r 0 3 1 == 1
  let es := (List.range (rec8 r 18)).map (fun i => slice r (48 + 20 * i) 20)
  let static := rec16 r 4 != rec16 old 4 || rec16 r 6 != rec16 old 6
  s.check c (es.all (fun e => decide (1 ≤ rec8 e 3) && decide (rec8 e 3 ≤ 16))) (fun s =>
    if (s.port p).enabled && static then s.fin c Sc.cfgBusy
    else s.user0 c (fun s =>
      let s := s.modOptic p (fun o => { o with rec_ := opticOwn r })
      let s : State := if listWr then { s with acceptMode := recF r 0 0 1 == 1, acceptList := es } else s
      s.fin c Sc.ok (if static then 0 else 1)))

/-- OPTIC_CONFIG: the header says how many entries follow it; `d` gives the whole record. -/
def execOpticConfig (ring : Fin 64) (cid : Fin 65536) (d : HostData) (s : State) : Host.Outcome State Fault Refusal :=
  .next (s.start ring cid 0x60 (fun c s =>
    let h := c.arg 9 0 1 == 1
    let a := c.arg 16 0 64
    s.check c (c.only [(8, 0, 1), (9, 0, 1), (16, 0, 64)]) (fun s =>
      let header (k : List Byte → State → State) : State :=
        if 48 ≤ (c.rdata.getD []).length then k (fitBytes 48 (c.rdata.getD [])) s else s.withRecord c h a 48 d k
      header (fun hd s =>
        s.check c (opticRecOk hd && s.fieldOk c h a (48 + 20 * rec8 hd 18) false) (fun s =>
          s.withRecord c h a (48 + 20 * rec8 hd 18) d (fun r s => s.opticConfig c (c.arg 8 0 1) r))))))

/-- OPTIC_CTRL (Table CMO-6). `txf` is the level of OPT_TXF_p, `ok` whether a ledger write reads back. -/
def execOpticCtrl (ring : Fin 64) (cid : Fin 65536) (txf ok : Bool) (s : State) : Host.Outcome State Fault Refusal :=
  .next (s.start ring cid 0x61 (fun c s =>
    let p := c.arg 8 0 1
    let act := c.arg 9 0 8
    let o := s.optic p
    let st := s.optState p
    s.check c (c.only [(8, 0, 1), (9, 0, 8)] && decide (act ≤ 3)) (fun s =>
      s.user0 c (fun s =>
        match act with
        | 0 =>
          if st ≠ 4 then s.fin c 0x0141
          else if s.rg R.OPT_STAT_REASON p ≠ 6 then s.fin c Sc.opticRejected
          else
            let s : State := { s with overrides := s.overrides.filter (· != o.ident) ++ [o.ident] }
            ((s.setRg R.OPT_STAT_OVERRIDE 1 p).acceptOptic p ok).fin c Sc.ok
        | 1 =>
          if s.overrides.contains o.ident then
            ({ s with overrides := s.overrides.filter (· != o.ident) }).fin c Sc.ok
          else s.fin c Sc.ok 1
        | 2 =>
          if st ≠ 5 || txf then s.fin c 0x0141
          else (((s.setOptic p 3).driveLevel p).leaveO1 p).fin c Sc.ok
        | _ => if st = 0 then s.fin c 0x0141 else (s.writeLedger p true ok).fin c Sc.ok))))

/-- The status record of an optic (R521). -/
def State.opticRecord (s : State) (p : Nat) : List Byte :=
  let o := s.optic p
  let st := s.regBytes (0x3980 + 0x20 * p) 4
  if s.optState p = 0 then fitBytes 128 st
  else st ++ fitBytes 4 o.oui ++ fitBytes 16 o.part ++ fitBytes 16 o.serial ++ o.diag.flatMap (leBytes 2 ·) ++ [0, 0] ++
    fitBytes 56 o.ledger ++ List.replicate 8 0

/-- OPTIC_QUERY. -/
def execOpticQuery (ring : Fin 64) (cid : Fin 65536) (s : State) : Host.Outcome State Fault Refusal :=
  .next (s.start ring cid 0x62 (fun c s =>
    s.check c (c.only [(8, 0, 1), (9, 0, 1), (16, 0, 64)]) (fun s => s.reply c 9 (fitBytes 128 (s.opticRecord (c.arg 8 0 1))))))

end Sys2Proof.Machine
end

