-- ==== Sys2Proof/Machine/RadioCmd.lean ====
section
/-! DEFINITION. The radio commands (R503 to R510). -/

namespace Sys2Proof.Machine

/-! ## CARRIER_SET (R240, R503, R504) -/

/-- Whether a link's half of a record stands: its parameter set serves the antennas at the carrier's rate, on lanes 0 to 15. -/
def halfOk (r : List Byte) (ant set lane0 first : Nat) : Bool :=
  ant == 0 || (match jesdSet set with
    | some x => x.ants == ant && decide (cRate r ≤ if cModeB r then x.maxB else x.maxC) && decide (lane0 + x.l ≤ 16) &&
        decide (first + ant ≤ 16)
    | none => false)

/-- The lanes of a half. -/
def lanesOf (ant set lane0 : Nat) : Nat × Nat :=
  if ant = 0 then (0, 0) else (lane0, lane0 + ((jesdSet set).map (·.l)).getD 0)

/-- Whether two ranges share something. -/
def share (a b : Nat × Nat) : Bool := decide (a.1 < b.2) && decide (b.1 < a.2)

/-- Whether two carriers' records can stand together: no lane, stream or receive pair is shared. -/
def carriersApart (a b : List Byte) : Bool :=
  let rx (r : List Byte) := lanesOf (cRxAnt r) (cRxSet r) (cRxLane0 r)
  let tx (r : List Byte) := lanesOf (cTxAnt r) (cTxSet r) (cTxLane0 r)
  !share (rx a) (rx b) && !share (tx a) (tx b) && !share (cTx0 a, cTx0 a + cTxAnt a) (cTx0 b, cTx0 b + cTxAnt b) &&
    (cPairs a).all (fun p => !(cPairs b).contains p)

/-- Whether a carrier record is in order. -/
def State.carrierOk (s : State) (c : Nat) (r : List Byte) : Bool :=
  let cls (i : Nat) := (s.pclass (recF r i 0 5)).conf
  recOnly r [(0, 0, 5), (1, 0, 3), (2, 0, 16), (4, 0, 5), (4, 8, 5), (6, 0, 8), (7, 0, 8), (8, 0, 8), (9, 0, 4), (10, 0, 16), (12, 0, 32),
      (16, 0, 8), (18, 0, 16), (20, 0, 5), (21, 0, 5), (22, 0, 5), (23, 0, 5), (24, 0, 5), (32, 0, 46)] &&
    decide (recF r 1 0 3 ≤ 4) && decide (1 ≤ cPrb r) && decide (cPrb r ≤ 275) && decide (cRxAnt r ≤ 16) && decide (cTxAnt r ≤ 16) &&
    decide (1 ≤ cUlPorts r) && decide (cUlPorts r ≤ 8) && decide (1 ≤ cRbd r) && decide (cRbd r ≤ 256) && decide (cTxAdv r ≤ 100000) &&
    decide (1 ≤ cPeriod r) && decide (cPeriod r ≤ 160) && decide (50 ≤ cTxLead r) && decide (cTxLead r ≤ 500) &&
    [30720, 61440, 122880, 245760].contains (cRate r) && (20 * 2 ^ cScs r) % max 1 (cPeriod r) == 0 &&
    halfOk r (cRxAnt r) (cRxSet r) (cRxLane0 r) (cRx0 r) && halfOk r (cTxAnt r) (cTxSet r) (cTxLane0 r) (cTx0 r) &&
    (List.range 4).all (fun k => k == c || !(s.carrier k).conf || carriersApart r (s.carrier k).rec_) &&
    [20, 21, 22, 23, 24].all cls &&
    s.inMem (cBlankAddr r) 1 && decide (0x0800_0000 ≤ cBlankAddr r)

/-- A record with its shadowed fields, BLANK_MODE and the classes, at 0. -/
def carrierStatic (r : List Byte) : List Byte := putRec (putRec r 0 1 (rec8 r 0 % 16)) 20 5 0

/-- CARRIER_SET. -/
def execCarrierSet (ring : Fin 64) (cid : Fin 65536) (d : HostData) (s : State) : Host.Outcome State Fault Refusal :=
  .next (s.start ring cid 0x40 (fun c s =>
    let n := c.arg 8 0 2
    let k := s.carrier n
    s.check c (c.only [(8, 0, 2), (9, 0, 2), (16, 0, 64)]) (fun s =>
      if c.arg 9 1 1 = 1 then
        if k.active || k.pend.isSome then s.fin c Sc.cfgBusy
        else s.user0 c (fun s => (s.modCarrier n (fun _ => {})).fin c Sc.ok (if k.conf then 0 else 1))
      else s.withRecord c (c.arg 9 0 1 == 1) (c.arg 16 0 64) 64 d (fun r s =>
        s.check c (s.carrierOk n r) (fun s =>
          let same := k.conf && carrierStatic k.rec_ == carrierStatic r
          -- an activation read before makes the carrier active (chapter edge case)
          if (k.active || k.pend.any (·.2.2)) && !same then s.fin c Sc.cfgBusy
          else s.user0 c (fun s =>
            (s.modCarrier n (fun k => { k with
              conf := true, rec_ := r, tab := if k.conf then k.tab else List.replicate 160 0
              blank := if k.active then k.blank else cBlank r })).fin c Sc.ok (if same then 1 else 0)))))))

/-- CARRIER_ACTIVATE (R505): the change waits for its boundary; an activation is a wake stimulus of both ports (R342). -/
def execCarrierActivate (ring : Fin 64) (cid : Fin 65536) (s : State) : Host.Outcome State Fault Refusal :=
  .next (s.start ring cid 0x41 (fun c s =>
    let n := c.arg 8 0 2
    let on := c.arg 9 0 1 == 1
    let k := s.carrier n
    s.check c (c.only [(8, 0, 2), (9, 0, 1)] && k.conf && (!on || s.sysrefFits k.rec_)) (fun s =>
      if k.pend.isSome then s.fin c Sc.cfgBusy
      else s.user0 c (fun s =>
        if k.active = on then s.fin c Sc.ok (2 ^ 31)
        else
          let s := s.modCarrier n (fun k => { k with pend := some (c.ring, c.cid, on) })
          if on then (s.ponStimulus 0).ponStimulus 1 else s))))

/-- SLOT_TABLE_SET (R507). -/
def execSlotTableSet (ring : Fin 64) (cid : Fin 65536) (d : HostData) (s : State) : Host.Outcome State Fault Refusal :=
  .next (s.start ring cid 0x42 (fun c s =>
    let k := c.arg 8 0 8
    let first := c.arg 10 0 8
    let n := c.arg 11 0 8
    s.check c (c.only [(8, 0, 8), (9, 0, 1), (10, 0, 8), (11, 0, 8), (16, 0, 64)] && decide (k < 4) && decide (first ≤ 159) &&
        decide (1 ≤ n) && decide (n ≤ 160) && (s.carrier k).conf && decide (first + n ≤ cPeriod (s.carrier k).rec_)) (fun s =>
      s.withRecord c (c.arg 9 0 1 == 1) (c.arg 16 0 64) (4 * n) d (fun r s =>
        let es := (List.range n).map (fun i => rec32 r (4 * i))
        s.check c (es.all (fun e => decide (e < 2 ^ 28))) (fun s =>
          s.user0 c (fun s =>
            if (s.carrier k).active then
              s.modCarrier k (fun x => { x with upds := x.upds ++ [⟨c.ring, c.cid, first, es, s.tk.ns⟩] })
            else
              (s.modCarrier k (fun x => { x with
                tab := (es.zipIdx).foldl (fun t e => modAt t (first + e.2) (fun _ => e.1)) x.tab })).fin c Sc.ok (2 ^ 31)))))))

/-! ## Gain and links (R508, R509) -/

/-- The fields of AGC_SET; STEP in half decibels. -/
def Cmd.agc (c : Cmd) : AgcCfg :=
  { en := c.arg 8 3 1 == 1, step := match c.arg 8 4 2 with | 0 => 1 | 1 => 2 | 2 => 4 | _ => 6
    hi := sext (c.arg 9 0 8) 8, lo := sext (c.arg 10 0 8) 8, relN := c.arg 11 0 8, atkMax := c.arg 12 0 8
    manual := c.arg 13 0 4, ini := c.arg 13 4 4, ed := sext (c.arg 14 0 8) 8, edWin := c.arg 15 0 2, lat := c.arg 16 0 16 }

/-- The ranges of R244. -/
def AgcCfg.ok (a : AgcCfg) : Bool :=
  decide (-12 ≤ a.hi) && decide (a.hi ≤ 0) && decide (-40 ≤ a.lo) && decide (a.lo ≤ -6) && decide (a.lo < a.hi) &&
    decide (1 ≤ a.relN) && decide (a.relN ≤ 64) && decide (1 ≤ a.atkMax) && decide (a.atkMax ≤ 15) && decide (-60 ≤ a.ed) &&
    decide (a.ed ≤ 0) && decide (a.lat ≤ 1000)

/-- AGC_SET: on an active carrier's pair the loop's fields wait for the slot boundary and the manual index for a permitted change. -/
def execAgcSet (ring : Fin 64) (cid : Fin 65536) (s : State) : Host.Outcome State Fault Refusal :=
  .next (s.start ring cid 0x43 (fun c s =>
    let p := c.arg 8 0 3
    let new := c.agc
    let old := (s.agcOf p).cfg
    let active := match s.pairOwner p with | some k => (s.carrier k).active | none => false
    let static := new.lat != old.lat || new.ini != old.ini
    s.check c (c.only [(8, 0, 6), (9, 0, 8), (10, 0, 8), (11, 0, 8), (12, 0, 8), (13, 0, 8), (14, 0, 8), (15, 0, 2), (16, 0, 16)] && new.ok)
      (fun s =>
        if active && static then s.fin c Sc.cfgBusy
        else s.user0 c (fun s =>
          let s := s.modAgc p (fun a =>
            if active then { a with
              cfg := { a.cfg with ed := new.ed, edWin := new.edWin }, pend := some new, manualPend := some new.manual }
            else { a with cfg := new, pend := none, manualPend := none })
          s.fin c Sc.ok (if static then 0 else 1)))))

/-- LINK_RESET: each named link that is not HELD searches again. -/
def execLinkReset (ring : Fin 64) (cid : Fin 65536) (s : State) : Host.Outcome State Fault Refusal :=
  .next (s.start ring cid 0x44 (fun c s =>
    let k := c.arg 8 0 8
    s.check c (c.only [(8, 0, 8), (9, 0, 2)] && decide (k < 4) && (s.carrier k).active) (fun s =>
      s.user0 c (fun s =>
        let go (s : State) (b : Nat) : State :=
          if c.arg 9 b 1 = 1 && s.flag R.RADIO_LINK_STAT_STATE (2 * k + b) then s.linkSearch (2 * k + b) else s
        (go (go s 0) 1).fin c Sc.ok))))

/-! ## POLAR (R307, R510) -/

/-- Whether a user's buffer has room for `n` bytes. -/
def State.bufFits (s : State) (u h n : Nat) (wr : Bool) : Bool :=
  match s.handleMem h with
  | some m => decide (n ≤ m.2) && s.canReach u m.1 n wr
  | none => false

/-- POLAR: the request is queued and completes when it is done. -/
def execPolar (ring : Fin 64) (cid : Fin 65536) (s : State) : Host.Outcome State Fault Refusal :=
  .next (s.start ring cid 0x45 (fun c s =>
    let r := slice c.args 0 32
    s.check c (c.only [(8, 0, 256)] && polarOk r && s.bufFits c.user (pIn r) (pInBytes r) false &&
        s.bufFits c.user (pOut r) (pOutBytes r) true) (fun s =>
      { s with coding := { s.coding with polar := s.coding.polar ++ [⟨c.ring, c.cid, r⟩] } })))

end Sys2Proof.Machine
end

