-- ==== Sys2Proof/Machine/Regs.lean ====
section
/-! DEFINITION. Writes of BAR0 fields under their change classes (R683, R690), and reads of BAR0 words (R437, R679, R681). -/

namespace Sys2Proof.Machine

/-- The fields of the register at a BAR0 offset, each with its instance. -/
def fieldsAt (off : Nat) : List (Fld × Nat) :=
  R.table.filterMap (fun f =>
    let i := if f.stride = 0 then 0 else (off - f.off) / f.stride
    if f.off + f.stride * i = off ∧ i < max 1 f.count then some (f, i) else none)

/-- Whether the block of a static field is active (Table REG-6 and the tables it names). -/
def State.fieldBusy (s : State) (f : Fld) (i : Nat) : Bool :=
  match f.chg with
  | .pacerEn => !s.heatList.isEmpty
  | .tkNr => s.anyCarrier
  | .tkSysref => (List.range 8).any (fun k => s.rg R.RADIO_LINK_STAT_STATE k != 0)
  | .hqEn => s.flag R.HQ_CTL_EN
  | .bykTopo => s.rg R.BYK_CTL_PORT_EN != 0
  | .iso => s.flag R.BYK_ISO_EN i
  | _ => false

/-- Whether a field waits for a boundary. -/
def Chg.shadowed (c : Chg) : Bool := c == .sysrefFrame || c == .taiSecond || c == .pmSecond || c == .isoEn

/-- The CFG_REJ bit of a field's block, where it has one (R683). -/
def cfgRej (f : Fld) : Option Fld :=
  if f.off = 0x1100 then some R.PACER_STAT_CFG_REJ
  else if 0x1800 ≤ f.off ∧ f.off < 0x1C00 then some R.TK_STAT_CFG_REJ
  else if 0x4000 ≤ f.off ∧ f.off < 0x4400 then some R.BYK_CFG_CFG_REJ
  else if f.off = 0x3728 then some R.DEF_CTL_CFG_REJ
  else none

/-- The value a write leaves in a field: values outside a field's range read as the value its table names, and PWR_CAP keeps its value. -/
def State.fieldValue (s : State) (f : Fld) (v : Nat) : Nat :=
  if f = R.TK_LIMITS_MAX_SLEW then (if 1 ≤ v ∧ v ≤ 100 then v else 100)
  else if f = R.BYK_CFG_RESYNC_MS then (if 10 ≤ v ∧ v ≤ 60000 then v else 1000)
  else if f = R.CIPH_LEASE_LEASE_US then (if 100 ≤ v ∧ v ≤ 1000000 then v else 10000)
  else if f = R.PACER_CTL_CEIL_RACE then min v 70
  else if f = R.PACER_CTL_CEIL_PACE then min v 50
  else if f = R.PWR_CAP_CAP then (if 80 ≤ v ∧ v ≤ 340 then v else s.rg f)
  else v

/-- The value last written to a field: of its shadow, where one waits. -/
def State.lastWritten (s : State) (f : Fld) (i u : Nat) : Nat :=
  ((s.shadow.find? (fun x => x.key == f.key i u)).map (·.val)).getD (s.rg f i u)

/-- A shadowed value put to wait for its boundary. -/
def State.setShadow (s : State) (f : Fld) (i u v : Nat) : State :=
  { s with shadow := s.shadow.filter (fun x => x.key != f.key i u) ++ [⟨f.key i u, f.reset, v, f.chg⟩] }

/-- One field written by the host (R9, R683); `s0` is the state before the write, which decides what is busy and what LATCH holds. -/
def State.fieldWrite (s s0 : State) (f : Fld) (i u v : Nat) : State :=
  let v := s.fieldValue f (v % 2 ^ f.width)
  match f.acc with
  | .ro => s
  | .wo => if f = R.KEY_STAGE_WORD then s.setRg f v i u else s
  | .w1c => s.setRg f (s.rg f i u - (s.rg f i u &&& v)) i u
  | .rws => s.setRg f v i u
  | .rwl => if s0.flag R.VRC_CFG_LATCH then s else s.setRg f v i u
  | .rw =>
    if s.lastWritten f i u = v then s
    else if s0.fieldBusy f i then
      match cfgRej f with
      | some r => s.setRg r 1
      | none => s
    else if f.chg.shadowed then s.setShadow f i u v
    else s.setRg f v i u

/-- Whether a write to PON_DEF_CFG of a port leaves the effective SD_EXP above the effective SF_EXP (R350). -/
def State.defCfgOk (s : State) (p v : Nat) : Bool := decide (s.sfExp p (bitsOf v 8 4) < s.sdExp p (bitsOf v 12 4))

/-- Whether a field of a write of `v` to its register keeps the rule that its chapter sets for its value: R350 for SF_EXP and SD_EXP, R221 for SYSREF_PER and
the pulse widths. -/
def State.fieldLegal (s : State) (f : Fld) (i v : Nat) : Bool :=
  if f = R.PON_DEF_CFG_SF_EXP ∨ f = R.PON_DEF_CFG_SD_EXP then s.defCfgOk i v
  else if f = R.SYSREF_PER_PER then
    let p := bitsOf v 0 24
    p != 0 && 9830400 % p == 0 && (List.range 4).all (fun n => decide (s.lastWritten R.SYSREF_CTL_WIDTH n 0 < p))
  else if f = R.SYSREF_CTL_WIDTH then decide (bitsOf v 3 8 < s.rg R.SYSREF_PER_PER)
  else true

/-- A whole register written by function `u`: each field on its own; one whose value breaks its rule is left alone, and its block's CFG_REJ set. -/
def State.regWrite (s : State) (u off v : Nat) : State :=
  (fieldsAt off).foldl (fun t x =>
    if s.fieldLegal x.1 x.2 v then t.fieldWrite s x.1 x.2 u (bitsOf v x.1.lsb x.1.width)
    else match cfgRej x.1 with
      | some r => t.setRg r 1
      | none => t) s

/-- Whether a function sees a BAR0 offset (R437, R638): a VF its ID, INT and CIPH blocks; during a reset only RST_STAT is seen. -/
def State.seesOff (s : State) (u off : Nat) : Bool :=
  (u == 0 || decide (off < 0x18) || (decide (0x400 ≤ off) && decide (off < 0x418)) || (decide (0x8004 ≤ off) && decide (off < 0x8100))) &&
    (!s.flag R.RST_STAT_IN_RESET || (u == 0 && off == 0x804)) && s.fnUp u

/-- LOCAL_NS, and whether the flash holds a dump, as BAR0 shows them, put into the register store. -/
def State.showTime (s : State) : State :=
  (s.setRg R.LOCAL_NS_NS s.tk.localNs).setRg R.FLT_STAT_FLASH_DUMP (if s.flash.dump.isEmpty then 0 else 1)

/-- A 32-bit word of BAR0 as a read of a function returns it. -/
def State.readWord (s : State) (u off : Nat) : Nat := if s.seesOff u off then s.showTime.regWord u off else 0

end Sys2Proof.Machine
end

