-- ==== Sys2Proof/Machine/Survive.lean ====
section
/-! DEFINITION. What resets and Bench clear and keep (Table RST-2), one user's part and the whole, the outputs made quiet (R636, R655), and
the VCORE controller on and off (Table PWD-4). -/

namespace Sys2Proof.Machine

/-! ## Survival classes -/

/-- The transitions that clear the whole device's volatile state: the columns of Table RST-2, FLR apart. -/
inductive Wipe where
  | cold | board | perst | hot | soft | bench
deriving DecidableEq, Repr

/-- Whether a transition clears a survival class (Table RST-2). Bench clears the Warm fields, which its exit restores. -/
def Wipe.clears (w : Wipe) : Keep → Bool
  | .aon => w == .cold
  | .sticky => w == .cold || w == .board
  | .warm => w == .cold || w == .board || w == .perst || w == .bench
  | .none | .func | .key => true

/-- None fields that report what a transition leaves running (R639): identity, straps, rails and the VCORE controller, the Timekeeper, the memory
interface, the boot flash, and for a hot or soft reset the Byklink links. -/
def Wipe.live (w : Wipe) (f : Fld) : Bool :=
  decide (f.off < 0x18) || f.off == 0x814 || f.off == 0x818 || (f.off == 0x1000) || (decide (0x1400 ≤ f.off) && decide (f.off < 0x1480)) ||
    (decide (0x1800 ≤ f.off) && decide (f.off < 0x1850) && f.acc == .ro) || (f.off == 0x4008 && f.lsb == 0) ||
    (f.off == 0x1304 && f.lsb == 9) || (f.off == 0x1108 && decide (f.lsb < 16)) || (f.off == 0x3060 && w != .board) ||
    (f.off == 0x3020 && f.keep == .none) || (f.off == 0x4100 && (w == .hot || w == .soft))

/-- The field that a key of the register store names. -/
def fieldOfKey (key : Nat) : Option Fld :=
  ((fieldsAt (key / 64 % 65536)).find? (fun x => x.1.lsb == key % 64)).map (·.1)

/-- The register fields that a transition clears, with held and latched words. -/
def State.wipeRegs (s : State) (w : Wipe) : State :=
  { s with
    regs := s.regs.filter (fun e => match fieldOfKey e.1 with
      | some f => !w.clears f.keep || (f.keep == .none && w.live f)
      | none => true)
    shadow := if w.clears .warm then [] else s.shadow
    heldLow := []
    latched := [] }

/-- The fields of one function's own blocks cleared (INT and CIPH); in the PF its Func fields too. -/
def State.wipeFn (s : State) (u : Nat) : State :=
  { s with
    regs := s.regs.filter (fun e => match fieldOfKey e.1 with
      | some f => if f.perFn then e.1 / 64 / 65536 != u else !(u == 0 && f.keep == .func)
      | none => true)
    heldLow := s.heldLow.filter (fun e => e.1 / 65536 != u)
    latched := s.latched.filter (fun e => e.1 / 65536 != u) }

/-! ## Work of a user -/

/-- Commands cancelled with no completion entry (R465): what they wait for ends with them. -/
def State.cancelCmds (s : State) (sel : Cmd → Bool) : State :=
  let gone := s.host.cmds.filter sel
  let named (ring cid : Nat) : Bool := gone.any (fun c => c.ring == ring && c.cid == cid)
  let s : State := { s with host := { s.host with cmds := s.host.cmds.filter (fun c => !sel c) } }
  let s := (s.xfers.filter (fun x => match x.issuer with | .cmd r c => named r c | _ => false)).foldl (fun s x => s.abortXfer x.id) s
  let s : State := { s with
    coding := { s.coding with polar := s.coding.polar.filter (fun q => !named q.ring q.cid) }
    cipher := { s.cipher with jobs := s.cipher.jobs.filter (fun j => !named j.1 j.2.1) }
    cmdTokens := s.cmdTokens.filter (fun p => !named (p.1 / 65536) (p.1 % 65536)) }
  let s : State := { s with radio := { s.radio with carriers := s.radio.carriers.map (fun k => { k with
    pend := k.pend.filter (fun p => !named p.1 p.2.1), upds := k.upds.filter (fun x => !named x.ring x.cid) }) } }
  match s.pst.req with
  | some (_, r, c) =>
    if named r c then ({ s with pst := { s.pst with req := none } } : State).setRg R.PST_STAT_ENTRY_PEND 0 else s
  | none => s

/-- Outstanding reads given up: their tags stay quarantined for twice the timeout. -/
def State.dropReads (s : State) (sel : HostRead → Bool) : State :=
  let t := s.tk.localNs + 2 * ctoNs s.host.cto
  { s with host := { s.host with reads := s.host.reads.map (fun r =>
    if sel r && r.until_.isNone then { r with until_ := some t, for_ := .entry 64 } else r) } }

/-- Rings moved to ABSENT without a word (Table HST-8). -/
def State.dropRings (s : State) (sel : Ring → Bool) : State :=
  { s with host := { s.host with rings := s.host.rings.map (fun r => if sel r then {} else r) } }

/-- What an FLR of user `u` clears (R465, Table RST-2), the function's configuration space included. -/
def State.flrUser (s : State) (u : Nat) : State :=
  let s := ((s.dropHeats (some u)).cancelCmds (fun c => c.user == u)).dropRings (fun r => r.st != .absent && r.owner == u)
  let s := s.dropReads (fun r => r.fn == u)
  let s : State := { s with
    host := { s.host with maps := vset s.host.maps u [], fns := vset s.host.fns u {} }
    progs := s.progs.filter (fun p => p.user != u) }
  let s := ((s.freeOwned (32 + u)).clearPage u).wipeFn u
  if u = 0 then s.setRg R.HQ_STAT_READY 0 else s

/-! ## The whole device -/

/-- A port's record and tables cleared; a burst in progress goes on, the disabled flag of boot flash and the conditions seen on the fibre stay. -/
def Port.cleared (x : Port) : Port :=
  { disabled := x.disabled, raw := x.raw, bursts := x.bursts.filter (·.started), itemNext := x.itemNext }

/-- Steps 1 to 5 of R635 (all users): nothing is fetched, commands are cancelled, carriers are to deactivate at their next slot boundary,
channels, tributaries, the bonded group and the PON ports are disabled. -/
def State.resetSteps (s : State) : State :=
  let s := (((s.dropHeats none).cancelCmds (fun _ => true)).dropRings (fun _ => true)).dropReads (fun _ => true)
  let s : State := { s with radio := { s.radio with carriers := s.radio.carriers.map (fun k => { k with
    pend := if k.active then some (64, 0, false) else none, upds := [] }) } }
  let s := (List.range 16).foldl (fun s n => (s.setRg R.BYK_ISO_EN 0 n).setRg R.FRT_STAT_EN 0 n) s
  let s := ((s.setRg R.BND_STAT_STATE 0).setRg R.BND_STAT_MEM_A 0).setRg R.BND_STAT_MEM_B 0
  let s : State := { s with frts := Vector.replicate 16 {}, bond := {}, shadow := s.shadow.filter (fun x => x.cls != .isoEn) }
  [0, 1].foldl (fun s p => (s.ponDisable p).modPort p Port.cleared) s

/-- Active carriers deactivated, at their next slot boundary unless it has passed since the reset began. -/
def State.carriersOff (s : State) : State :=
  let t0 := (s.boot.reset.map (·.1)).getD s.tk.localNs
  (List.range 4).foldl (fun s c =>
    if (s.carrier c).active then
      let s := if s.tk.localNs < t0 + 1000000 then s.reach (s.nextSlot (cScs (s.carrier c).rec_) s.tk.ns) else s
      (s.modCarrier c (fun k => { k with pend := none })).carrierOff c
    else s) s

/-- Step 6 of R635 with what else an FLR of user 0 clears (Table RST-2): programs, Pool classes, mappings, cipher pages, Func fields, carriers, PON, optic
settings, held decoders and Lanes. -/
def State.resetUsers (s : State) : State :=
  let s := (List.range 32).foldl (fun s k => (s.setRg R.POOL_USE_NOW 0 k).setRg R.POOL_PEAK_PEAK 0 k) s.poolClear
  let s := (List.range 8).foldl (fun s u => (s.clearPage u).wipeFn u) s
  let s := (List.range 8).foldl (fun s n =>
    let s := (s.setRg R.LANE_STAT_BOUND 0 n).setRg R.LANE_STAT_HELD 0 n
    if s.rg R.LANE_STAT_STATE n = 2 then s.setRg R.LANE_STAT_STATE 1 n else s) s
  let s := ((((s.setRg R.COD_STAT_BUSY 0).setRg R.COD_STAT_LENT 0).setRg R.COD_RESV_HELD 0).setRg R.COD_RESV_RESERVED 0).setRg R.STR_INFLIGHT_NOW 0
  { s with
    heats := Vector.replicate 32 none
    xfers := []
    cmdTokens := []
    progs := []
    coding := {}
    radio := { s.radio with carriers := Vector.replicate 4 {}, agc := Vector.replicate 8 {} }
    optics := s.optics.map (fun o => { o with rec_ := opticDefaults })
    acceptMode := false
    acceptList := []
    boot := { s.boot with region := none }
    host := { s.host with maps := Vector.replicate 8 [] } }

/-- A fresh nonzero Byklink epoch (R570): a free value (notes/assumptions/2.md). -/
def State.newBykEpoch (s : State) : State := (s.setRg R.BYK_STAT_EPOCH (1 + s.freeVal 6 65535)).spent

/-- Cells of memory kept by a selection of addresses; flags of words go with them. -/
def Mem.keepFrom (m : Mem) (lo : Nat) : Mem :=
  { m with
    cells := m.cells.filter (fun c => decide (lo ≤ c.1))
    bad := m.bad.filter (fun w => decide (lo ≤ 8 * w)), seen := m.seen.filter (fun w => decide (lo ≤ 8 * w))
    soft := m.soft.filter (fun w => decide (lo ≤ 8 * w)) }

/-- What is kept of a Byklink peer when tag sequences are cleared while its link stays (R570). -/
def Peer.cleared (p : Peer) : Peer := { heard := p.heard, ready := p.ready, retryUs := p.retryUs, epoch := p.epoch }

/-- The links that are time sources taken down with the host's: what the Timekeeper took from the PON ports or the Byklink is lost (R209). -/
def State.linksLost (s : State) : State :=
  let s : State := { s with host := { s.host with linkUp := false } }
  let s := (List.range 4).foldl (fun s q => s.setRg R.BYK_PORT_STATE 0 q) s
  ((s.srcLost 1).srcLost 2).srcLost 4

/-- The volatile state of the whole device as a transition leaves it (Table RST-2), registers included; a new Byklink epoch; PM bins begun afresh. -/
def State.wipe (s : State) (w : Wipe) : State :=
  let stays := w == .hot || w == .soft
  let link := w == .soft || w == .bench
  let s := if stays || w == .bench then s else s.linksLost
  let s : State := { s with
    mem := if stays then s.mem else if w == .bench then s.mem.keepFrom lpBase else {}
    pool := {}
    host := { s.host with
      rings := Vector.replicate 64 {}, cmds := [], reads := if link then s.host.reads.filter (·.until_.isSome) else []
      fns := if link then s.host.fns else Vector.replicate 8 {}, vfEn := link && s.host.vfEn, mrrs := if link then s.host.mrrs else 512
      cto := if link then s.host.cto else 0, linkUp := link && s.host.linkUp, crs := true, maps := Vector.replicate 8 []
      l1 := if link then s.host.l1 else 0, lastRing := 0, turn := 0 }
    lanes := Vector.replicate 8 {}
    xfers := []
    cmdTokens := []
    progs := []
    progGens := []
    heats := Vector.replicate 32 none
    pacer := { s.pacer with want := s.rg R.PACER_STAT_VSET, per := [], idleRefreshes := 0, powerMw := 0 }
    radio := {}
    coding := {}
    ports := s.ports.map (fun x => if stays then x.cleared else { x.cleared with bursts := [] })
    bond := {}
    frts := Vector.replicate 16 {}
    optics := Vector.replicate 2 { rec_ := opticDefaults }
    cipher := { rngOk := s.cipher.rngOk }
    acceptMode := false
    acceptList := []
    overrides := if w == .board || w == .cold then [] else s.overrides
    byk := if stays then { ports := s.byk.ports, peers := s.byk.peers.map Peer.cleared, hops := s.byk.hops } else {}
    warm := false
    starter := Vector.replicate 128 {}
    pst := { s.pst with req := none }
    boot := { s.boot with up := false, reset := none, dumpMode := false, region := none } }
  (s.wipeRegs w).newBykEpoch.pmRestart

/-! ## Outputs -/

/-- The outputs made quiet (R636, R655 step 2): OPT_BEN_p high, FAST_GAIN_p at index 15 (Gray 0b1000), SYSREF_OUT_n low, radio and Byklink serdes powered
down. -/
def State.quiet (s : State) : State :=
  let s := [0, 1].foldl (fun (s : State) p => (s.emit (.port "opt_ben" p [1])).setRg R.PON_STAT_LASER 0 p) s
  let s := (List.range 8).foldl (fun (s : State) p => (s.emit (.port "fast_gain" p [8])).setRg R.AGC_STAT_INDEX 15 p) s
  let s := (List.range 4).foldl (fun (s : State) n => s.emit (.port "sysref_low" n [])) s
  (s.emit (.port "serdes_down" 0 [])).emit (.port "serdes_down" 1 [])

/-! ## VCORE (Table PWD-4) -/

/-- The controller enters a state: vector 69 (R606). -/
def State.vrcTo (s : State) (v : Nat) : State := (s.setRg R.VRC_FLT_STATE v).cause R.INT_CAUSE_POWER 69

/-- Whether the controller runs. -/
def State.vcoreOn (s : State) : Bool := decide (2 ≤ s.rg R.VRC_FLT_STATE) && decide (s.rg R.VRC_FLT_STATE ≤ 4)

/-- Phases out of service for an open fault. -/
def State.lostCount (s : State) : Nat := popCount (s.rg R.VRC_FLT_LOST) 12

/-- The controller's state when it regulates, by the derating in force (Tables PWD-3, PWD-4). -/
def State.runState (s : State) : Nat :=
  if 2 ≤ s.lostCount then 4 else if s.derated then 3 else 2

/-- Every phase turned off: no Kick, no Brake, no core hold. -/
def State.phasesOff (s : State) : State :=
  let s := (List.range 12).foldl (fun s n => if s.rg R.VRC_PH_PST n = 0 then s.setRg R.VRC_PH_PST 1 n else s) s
  let s := ((s.setRg R.VRC_STAT_ACTIVE 0).setRg R.VRC_STAT_VOUT 0).setRg R.VRC_STAT_IOUT 0
  let s := (((s.setRg R.PACER_STAT_KICK 0).setRg R.PACER_STAT_SETTLED 1).setRg R.PACER_STAT_BRAKE_LEVEL 0).setRg R.PACER_STAT_BRAKE_CAUSE 0
  let s := s.putRgBit R.PWR_RAIL_OK 5 false
  { s with pwr := { s.pwr with hold := none } }

/-- VCORE turned off (steps 1 and 2 of R591): ramped down to 0.55 V, then every phase off. -/
def State.vcoreDown (s : State) : State :=
  if s.rg R.VRC_FLT_STATE = 0 then s
  else
    let s := if s.vcoreOn then s.elapse (s.rg R.PACER_STAT_VSET * 500) else s
    (s.vrcTo 5).phasesOff.vrcTo 0

/-- The PH_MIN phases that a start ramps on. -/
def State.minPhases (s : State) : Nat := max 2 (min (s.rg R.VRC_CFG_PH_MIN) (s.rg R.VRC_CFG_PH_CNT))

/-- VCORE enabled (R592, Table PWD-4): on PH_MIN phases not lost; a strap outside 4 to 12 holds it off. -/
def State.vcoreStart (s : State) : State :=
  let n := s.rg R.VRC_CFG_PH_CNT
  if 4 ≤ n ∧ n ≤ 12 then
    let fit := (List.range n).filter (fun k => !s.rgBit R.VRC_FLT_LOST k)
    let on := fit.take s.minPhases
    let s := (List.range 12).foldl (fun s k =>
      let act := on.contains k
      (s.setRg R.VRC_PH_PST (if act then 0 else if fit.contains k then 1 else if k < n then 2 else 3) k).putRgBit R.VRC_STAT_ACTIVE k act) s
    s.vrcTo 1
  else s.ev .RAIL_FAULT 255 [5]

/-- Derating lifted: a reset that restarts VCORE tests every phase again (R604). -/
def State.derateClear (s : State) : State :=
  ((s.setRg R.VRC_FLT_LOST 0).setRg R.VRC_FLT_SENSE_FB 0).setRg R.PST_STAT_FORCED 0

end Sys2Proof.Machine
end

