-- ==== Sys2Proof/Machine/TimeCmd.lean ====
section
/-! DEFINITION. The time and the diagnostic commands (R526 to R528, R532 to R534). -/

namespace Sys2Proof.Machine

/-! ## Time -/

/-- The registers of TIME_SET: BAR0 offset, place in ARGS, width, the bits defined. -/
def timeRegs : List (Nat × Nat × Nat × Nat) :=
  [(0x1830, 16, 32, 19), (0x1834, 20, 32, 32), (0x1838, 24, 32, 26), (0x183C, 28, 32, 32), (0x1820, 32, 64, 34)]

/-- TIME_SET (R526): RESULT 0 when a static field changed, else 1 (R502). Registers that MASK does not select are not read. -/
def execTimeSet (ring : Fin 64) (cid : Fin 65536) (s : State) : Host.Outcome State Fault Refusal :=
  .next (s.start ring cid 0x80 (fun c s =>
    let sel := (timeRegs.zipIdx.filter (fun x => (c.arg 8 0 5).testBit x.2)).map (fun x => (x.1, c.arg x.1.2.1 0 x.1.2.2.1))
    let ctl := c.arg 16 0 32
    let ctlOk := !(c.arg 8 0 5).testBit 0 ||
      (decide (bitsOf ctl 0 4 ≤ 4) && decide (bitsOf ctl 4 4 ≤ 4) && decide (bitsOf ctl 8 4 ≤ 4) && bitsOf ctl 17 2 != 3)
    s.check c (c.only [(8, 0, 5), (16, 0, 128), (32, 0, 64)] && ctlOk && sel.all (fun x => decide (x.2 < 2 ^ x.1.2.2.2))) (fun s =>
      let fs := sel.flatMap (fun x => (fieldsAt x.1.1).map (fun f => (f.1, f.2, bitsOf x.2 f.1.lsb f.1.width)))
      let chg := fs.filter (fun f => s.lastWritten f.1 f.2.1 0 != s.fieldValue f.1 f.2.2)
      if chg.any (fun f => s.fieldBusy f.1 f.2.1) then s.fin c Sc.cfgBusy
      else s.user0 c (fun s =>
        (sel.foldl (fun t x => t.regWrite 0 x.1.1 x.2) s).fin c Sc.ok (if chg.any (fun f => f.1.chg == .tkNr) then 0 else 1)))))

/-- TIME_TOD (R341, R527): the latched PSBd of the pair's superframe becomes a comparison when the port is the source in use. -/
def execTimeTod (ring : Fin 64) (cid : Fin 65536) (s : State) : Host.Outcome State Fault Refusal :=
  .next (s.start ring cid 0x81 (fun c s =>
    let p := c.arg 8 0 1
    let sec := c.arg 24 0 48
    let nsec := c.arg 32 0 32
    s.check c (c.only [(8, 0, 1), (16, 0, 64), (24, 0, 48), (32, 0, 32)] && decide (nsec < 1000000000)) (fun s =>
      s.user0 c (fun s =>
        match (s.port p).latches.find? (fun l => l.1 == c.arg 16 0 64) with
        | some l =>
          if (s.defect p 4).declared then s.fin c Sc.ok 1
          else
            let x := s.port p
            let rtd : Int := (rec32 x.rec_ 12 : Nat) - ((s.rg R.PON_EQD_EQD p * 1000000 / x.upKbps : Nat) : Int)
            let down := rtd * ((rec16 x.rec_ 6 : Nat) : Int) / 65536
            let tai := ((sec * 1000000000 + nsec : Nat) : Int) + down + ((s.tk.ns : Int) - l.2)
            ((if s.rg R.TK_STAT_SRC = p + 1 then s.compareTai tai.toNat else s)).fin c Sc.ok
        | none => s.fin c Sc.ok 1))))

/-- Bytes written at ADDR (offset 16) with its H bit at offset 8, and the command completed with their number. -/
def State.replyAt16 (s : State) (c : Cmd) (b : List Byte) : State :=
  let h := c.arg 8 0 1 == 1
  s.check c (c.only [(8, 0, 1), (16, 0, 64)] && s.fieldOk c h (c.arg 16 0 64) b.length true) (fun s =>
    (s.writeField c h (c.arg 16 0 64) b).fin c Sc.ok b.length)

/-- The record of R528, latched at one edge. -/
def State.timeRecord (s : State) : List Byte :=
  let p := s.nrPhase s.tk.ns
  leBytes 8 s.tk.ns ++ leBytes 4 s.tk.frac ++ leBytes 4 (s.regWord 0 0x1840) ++ leBytes 8 s.tk.localNs ++ leBytes 8 (s.rg R.EPOCH_TAI_TAI) ++
    leBytes 8 (s.rg R.NR_BASE_BASE) ++ leBytes 4 (s.rg R.TK_PHASE_ERR_E) ++ leBytes 4 0 ++
    leBytes 16 (p / 10000000 + p / 1000000 % 10 * 2 ^ 10 + p % 1000000 * 2 ^ 14)

/-- TIME_STATUS (R528). -/
def execTimeStatus (ring : Fin 64) (cid : Fin 65536) (s : State) : Host.Outcome State Fault Refusal :=
  .next (s.start ring cid 0x82 (fun c s => s.replyAt16 c s.timeRecord))

/-! ## The log and the dump -/

/-- A record of 32 bytes (Table FLT-4). -/
def LogRec.bytes (r : LogRec) : List Byte :=
  leBytes 8 r.tk ++ leBytes 2 r.code ++ leBytes 1 r.source ++ leBytes 1 r.sev ++ (r.args.take 5).flatMap (leBytes 4)

/-- The number of the oldest record held: NEXT while none is (R661). -/
def State.logOldest (s : State) : Nat := ((s.log.recs.head?).map (·.num)).getD s.log.next

/-- Records in LOG_READ form (R532): the header, then the records. -/
def State.logForm (s : State) (rs : List LogRec) : List Byte :=
  leBytes 4 s.log.next ++ leBytes 4 s.logOldest ++ leBytes 4 (((rs.head?).map (·.num)).getD 0) ++ leBytes 2 rs.length ++
    leBytes 18 (s.rg R.FLT_STAT_FROZEN) ++ rs.flatMap LogRec.bytes

/-- LOG_READ (R532). The range that COUNT asks for is the range that must be reachable. -/
def execLogRead (ring : Fin 64) (cid : Fin 65536) (s : State) : Host.Outcome State Fault Refusal :=
  .next (s.start ring cid 0x90 (fun c s =>
    let h := c.arg 16 0 1 == 1
    let n := c.arg 24 0 16
    s.check c (c.only [(8, 0, 64), (16, 0, 1), (20, 0, 32), (24, 0, 16)] && decide (1 ≤ n) && decide (n ≤ 1024) &&
        s.fieldOk c h (c.arg 8 0 64) (32 + 32 * n) true) (fun s =>
      s.user0 c (fun s =>
        let old := s.logOldest
        let d := (c.arg 20 0 32 + 2 ^ 32 - old) % 2 ^ 32
        let held := s.log.recs.length
        let skip := if d < held then some d else if 2 ^ 31 ≤ d && decide (0 < held) then some 0 else none
        match skip with
        | none => s.fin c 0x0144
        | some k =>
          let rs := (s.log.recs.drop k).take n
          (s.writeField c h (c.arg 8 0 64) (s.logForm rs)).fin c Sc.ok rs.length))))

/-- DUMP_CTL (R533). -/
def execDumpCtl (ring : Fin 64) (cid : Fin 65536) (s : State) : Host.Outcome State Fault Refusal :=
  .next (s.start ring cid 0x91 (fun c s =>
    let act := c.arg 8 0 8
    let h := c.arg 9 0 1 == 1
    let a := c.arg 16 0 64
    let n := c.arg 24 0 32
    let held := s.flash.dump.take n
    s.check c (c.only [(8, 0, 8), (9, 0, 1), (16, 0, 64), (24, 0, 32)] && decide (act ≤ 3) &&
        (act != 0 || (h && a % 4096 == 0 && n % 4096 == 0 && decide (2 ^ 20 ≤ n))) &&
        (act != 2 || s.fieldOk c h a held.length true)) (fun s =>
      s.user0 c (fun s =>
        let setRegion (r : Option (Nat × Nat)) : State := { s with boot := { s.boot with region := r } }
        match act with
        | 0 => (setRegion (some (a, n))).fin c Sc.ok
        | 1 => (setRegion none).fin c Sc.ok (if s.boot.region.isNone then 1 else 0)
        | 2 => if s.flash.dump.isEmpty then s.fin c 0x0144 else (s.writeField c h a held).fin c Sc.ok held.length
        | _ => ({ s with flash := { s.flash with dump := [] } } : State).fin c Sc.ok (if s.flash.dump.isEmpty then 1 else 0)))))

/-! ## Self-tests -/

/-- Whether a self-test finds a free resource (Table CMO-9). -/
def State.testRuns (s : State) (t : Nat) : Bool :=
  match t with
  | 0 => (List.range 8).any (fun n => !s.rgBit R.LANE_CTL_MASK n && !s.flag R.LANE_STAT_HELD n)
  | 1 => (List.range 16).any (fun d => s.decFree d && (s.dec d).resv.isNone)
  | 4 => (List.range 16).any (fun l => (List.range 4).all (fun c =>
      let r := (s.carrier c).rec_
      let out (x : Nat × Nat) : Bool := !share (l, l + 1) x
      !(s.carrier c).conf || (out (lanesOf (cRxAnt r) (cRxSet r) (cRxLane0 r)) && out (lanesOf (cTxAnt r) (cTxSet r) (cTxLane0 r)))))
  | 5 => (List.range 4).any (fun q => !s.portUp q)
  | _ => true

/-- SELF_TEST (R534): the selected tests start; those whose resource is not free are skipped. -/
def execSelfTest (ring : Fin 64) (cid : Fin 65536) (s : State) : Host.Outcome State Fault Refusal :=
  .next (s.start ring cid 0x92 (fun c s =>
    s.check c (c.only [(8, 0, 6)]) (fun s =>
      s.user0 c (fun s =>
        let skip := ((List.range 6).filter (fun t => (c.arg 8 0 6).testBit t && !s.testRuns t)).foldl setBit 0
        s.modCmd ring cid (fun c => { c with aux := [skip] })))))

/-- SELF_TEST_DONE: every selected test that ran has ended, those of `failed` without success. -/
def execSelfTestDone (ring : Fin 64) (cid : Fin 65536) (failed : BitVec 6) (s : State) : Host.Outcome State Fault Refusal :=
  .next (match s.cmd? ring cid with
    | some c =>
      if c.opcode = 0x92 && c.started then
        let skip := c.aux.headD 0
        let bad := (List.range 6).filter (fun t => (c.arg 8 0 6).testBit t && !skip.testBit t && failed.getLsbD t)
        let s := bad.foldl (fun s _ => s.ev .SELF_TEST_FAIL) s
        s.fin c (if bad.isEmpty then Sc.ok else 0x0143) (bad.foldl setBit 0 + skip * 256)
      else s
    | none => s)

end Sys2Proof.Machine
end

