-- ==== Sys2Proof/Machine/Fatal.lean ====
section
/-! DEFINITION. The orderly fatal stop (R654 to R656), the black-box commit (R667 to R670), the dump (R672 to R674) and the Marshal watchdog (R637). -/

namespace Sys2Proof.Machine

/-! ## The black-box commit -/

/-- A commit of the newest `n` records starts (R667, R668), or is skipped while no spare slot is armed (R670). -/
def State.beginBb (s : State) (kind cause n : Nat) : State :=
  let next := nextCommit s.flash.bb
  if !s.flag R.FLT_STAT_BB_ARMED then
    { s with boot := { s.boot with skipped := some (next.2, next.1, kind) } }.setRg R.FLT_STAT_BB_LAST 3
  else
    let rs := s.log.recs.drop (s.log.recs.length - n)
    let hdr := leBytes 4 0x58424B42 ++ leBytes 1 1 ++ leBytes 1 kind ++ leBytes 1 cause ++ leBytes 1 s.dev ++ leBytes 4 0 ++
      leBytes 2 rs.length ++ leBytes 2 (s.rg R.ID_REV_ROM_EDITION) ++ leBytes 4 (((rs.head?).map (·.num)).getD s.log.next) ++ leBytes 4 0 ++
      leBytes 8 (((s.log.recs.getLast?).map (·.tk)).getD s.tk.ns) ++ leBytes 8 (s.rg R.ID_DIE_DIE_ID)
    let body := rs.flatMap LogRec.bytes
    let v := beginCommit s.flash.bb hdr body
    { s with
      flash := { s.flash with bb := v }
      boot := { s.boot with bb := some ⟨next.2, (vget v next.2).hdr, body⟩ } }.setRg R.FLT_STAT_BB_ARMED 0

/-- A commit cut off before its marker (R610, R667): the slot is torn. -/
def State.tearBb (s : State) : State :=
  if s.boot.bb.isSome then { s with boot := { s.boot with bb := none } }.setRg R.FLT_STAT_BB_LAST 2 else s

/-! ## Rails off -/

/-- Step 5 skipped or failed: FLT_STAT.DUMP reads 3. -/
def State.dumpSkip (s : State) : State :=
  { s with boot := { s.boot with stop := s.boot.stop.map (fun (x : Stop) => { x with dumped := true }), dumpSize := 0, dumpStatus := 0 } }.setRg R.FLT_STAT_DUMP 3

/-- A fatal stop that ends or is cut short: what is left of steps 4 and 5 is not done, and the next Marshal start reports the dump (R656). -/
def State.cutStop (s : State) : State :=
  match s.boot.stop with
  | some x =>
    let s := if x.dumped then s else s.dumpSkip
    { s with boot := { s.boot with stop := none, dumpMode := false, dumpSay := true } }
  | none => s

/-- An orderly power-down starts (R591): VCORE off, then the rails one by one; what they power is lost. -/
def State.powerDown (s : State) : State :=
  let s := (s.cutStop.vcoreDown.quiet).wipe .perst
  { s with pwr := { s.pwr with seq := if s.pwr.en = 0 then .off else .lowering }, pst := { s.pst with bench := false } }

/-! ## The fatal stop -/

/-- What the sections of a dump report whose layout the spec does not give (Table FLT-7), as step 2 finds the units: rings, Heats, Pool classes, Lanes,
Byklink tags; then the black-box header page. -/
def State.dumpSnap (s : State) : List (List Nat) :=
  [ s.host.rings.toList.flatMap (fun r => [r.sqHead, r.sqTail, r.cqHead, r.cqTail, if r.phase then 1 else 0,
      match r.st with | .absent => 0 | .active => 1 | .faulted => 2 | .draining => 3 | .held => 4,
      r.owner, r.sqBase, r.sqSize, r.cqBase, r.cqSize, r.maxInflight, r.irqEn, r.coalN, r.coalUs]),
    s.heats.toList.flatMap (fun h => match h with
      | some h => 1 :: (h.desc.take 64).map (·.toNat) ++ [h.status, h.doneNs, h.fb, h.sat, h.undelivered]
      | none => [0]),
    s.pool.classes.toList.flatMap (fun k => [if k.conf then 1 else 0, k.size, k.first, k.count, k.base, if k.refcount then 1 else 0,
      if k.firstCome then 1 else 0, k.lowWater, k.user] ++ k.quota),
    (List.range 8).flatMap (fun n => [s.regWord 0 (0x3000 + 4 * n), s.rg R.LANE_STAT_HEAT n]),
    s.byk.peers.toList.flatMap (fun p => [p.lastAcc, ((p.ops.head?).map (·.seq)).getD 0, p.nextSeq, p.epoch]),
    match s.boot.bb with | some b => b.hdr.map (·.toNat) | none => [] ]

/-- Engines, tracks, coding, cipher and serdes stopped (R655 step 2): the work in them is given up. -/
def State.haltEngines (s : State) : State :=
  let s := (List.range 8).foldl (fun s n => ((s.setRg R.LANE_STAT_STATE 0 n).setRg R.LANE_STAT_BOUND 0 n).setRg R.RADIO_LINK_STAT_STATE 0 n) s
  let s := (List.range 4).foldl (fun s q => s.setRg R.BYK_PORT_STATE 0 q) s
  let s := [0, 1].foldl (fun (s : State) p => s.modPort p (fun x => { x with bursts := [] })) s
  { s with
    heats := Vector.replicate 32 none
    xfers := []
    lanes := Vector.replicate 8 {}
    coding := {}
    cipher := { s.cipher with jobs := [], session := none }
    radio := { s.radio with
      carriers := s.radio.carriers.map (fun (k : Carrier) => ({ k with active := false, pend := none, upds := [], tx := [] } : Carrier)) }
    byk := {} }

/-- Step 4: every command in flight completes with FATAL; an entry that does not fit in its ring is not written. -/
def State.answerFatal (s : State) : State :=
  let cs := s.host.cmds.filter (fun c => !c.done)
  let s := cs.foldl (fun (s : State) c =>
    let r := s.ring c.ring
    if r.full || !r.waiting.isEmpty then { s with host := { s.host with cmds := s.host.cmds.filter (fun d => !(d == c)) } }
    else s.completeOne c.ring c.cid Sc.fatal 0 s.tk.ns) s
  { s with boot := { s.boot with stop := s.boot.stop.map (fun (x : Stop) => { x with
    answered := true, given := cs.map (fun c => (c.ring, c.cid, c.opcode)) }) } }

/-- Step 6 once steps 3 and 5 have each ended or been skipped. -/
def State.stopEnd (s : State) : State :=
  match s.boot.stop with
  | some x => if x.committed && x.dumped && (s.pwr.seq = .on) then s.powerDown else s
  | none => s

/-- Steps 4 and 5 as far as they run at once: step 5 waits for DUMP_DONE, and is skipped for cause 6. -/
def State.stopAnswer (s : State) : State :=
  let s := s.answerFatal
  if (s.boot.stop.map (·.cause)) = some 6 then s.dumpSkip.stopEnd else s

/-- A fatal cause of Table FLT-2 with the arguments of Table FLT-6: EV_FATAL, the log frozen, vector 1 in every function, outputs quiet, the full
black-box commit, and, where the Marshal runs, the commands in flight (R655). A second cause is counted as a frozen event. -/
def State.fatal (s : State) (cause a1 a2 : Nat) : State :=
  if s.boot.stop.isSome then s.ev .FATAL
  else if !s.vcoreOn then s
  else
    let tk := s.tk.ns
    let s := s.ev .FATAL 255 [cause, a1, a2, (s.host.cmds.filter (fun c => !c.done)).length]
    let s := (s.setRg R.FLT_STAT_FROZEN 1).setRg R.FLT_STAT_LAST_CAUSE cause
    let s := (List.range 8).foldl (fun s u => if s.fnUp u then (s.setRg R.INT_CAUSE_FATAL 1 0 u).vector u 1 else s) s
    let s := s.quiet
    let s := if 3 ≤ s.pwr.failStage then s else s.beginBb 1 cause 1024
    let stop : Stop := { cause := cause, at_ := s.tk.localNs, tk := tk, committed := s.boot.bb.isNone, snap := s.dumpSnap }
    let s : State := { s.haltEngines with boot := { s.boot with
      stop := some stop, dumpMode := cause == 1, up := s.boot.up && cause != 1 } }
    let s := if cause = 2 || cause = 3 then s.vrcTo 5 else s
    if cause = 2 || !s.boot.up then s else s.stopAnswer

/-- FATAL_STOP (R654): causes 4 (`domain` none: an uncorrectable read of table or Marshal memory at an address) and 5 (a parity error on a control
word, in a domain). -/
def execFatalStop (domain : Option Nat) (addr : BitVec 46) (s : State) : Host.Outcome State Fault Refusal :=
  .next (match domain with
    | none => s.fatal 4 (addr.toNat % 2 ^ 32) (addr.toNat / 2 ^ 32)
    | some d => s.fatal 5 d 0)

/-- THERMAL_TRIP (R654): a domain has been at or above the trip temperature for 1 ms. -/
def execThermalTrip (d : Fin 15) (s : State) : Host.Outcome State Fault Refusal := .next (s.fatal 6 d 0)

/-- BLACK_BOX_COMMIT_DONE (R667): the marker page is written. A core hold that has not ended by then ends steps 4 and 5 (R655). -/
def execBlackBoxCommitDone (s : State) : Host.Outcome State Fault Refusal :=
  match s.boot.bb with
  | none => .next s
  | some b =>
    let s : State := { s with
      flash := { s.flash with bb := vmod s.flash.bb b.slot (fun x => { x with mark := markOf b.hdr b.body }) }
      boot := { s.boot with bb := none, stop := s.boot.stop.map (fun (x : Stop) => { x with committed := true }) } }
    let s := (s.setRg R.FLT_STAT_BB_LAST 1).setRg R.BB_SEQ_SEQ (rec32 b.hdr 8)
    let s := match s.boot.stop with
      | some x => if x.cause = 2 && !x.answered && !x.dumped then (s.since x.at_ 10000000).dumpSkip else s
      | none => s
    .next s.stopEnd

/-- FATAL_DUMP_BUDGET_EXPIRY (R655): 2 s after the dump-mode restart began, what is left of steps 4 and 5 is skipped. -/
def execFatalDumpBudgetExpiry (s : State) : Host.Outcome State Fault Refusal :=
  match s.boot.stop with
  | some x => .next (if x.dumped || x.cause != 1 then s else (s.since x.at_ 2000000000).dumpSkip.stopEnd)
  | none => .next s

/-! ## The dump -/

/-- A section's bytes where the layout is not given. -/
def opaqueSection (t size : Nat) (content : List Nat) : List Byte := (List.range size).map (Config.dumpByte t content)

/-- Zeros or a cut to an exact length. -/
def padTo (n : Nat) (bs : List Byte) : List Byte := bs.take n ++ List.replicate (n - bs.length) 0

/-- The sections of Table FLT-7, in order. -/
def State.dumpSections (s : State) (x : Stop) : List (Nat × List Byte) :=
  let snap (k : Nat) : List Nat := x.snap.getD k []
  [ (1, s.identify 0), (2, padTo 32800 (s.logForm s.log.recs)), (3, (List.range 16384).flatMap (fun i => leBytes 4 (s.showTime.regWord 0 (4 * i)))),
    (4, opaqueSection 4 4096 (snap 0)),
    (5, x.given.flatMap (fun g => opaqueSection 5 16 [g.1, g.2.1, g.2.2, Sc.fatal])),
    (6, opaqueSection 6 4096 (snap 1)), (7, opaqueSection 7 2048 (snap 2)), (8, opaqueSection 8 2048 (snap 3)),
    (9, opaqueSection 9 2048 (snap 4)), (10, opaqueSection 10 65536 [s.free]),
    (11, padTo 256 ((snap 5).map (BitVec.ofNat 8))), (12, opaqueSection 12 524288 [s.free]) ]

/-- Sections placed on 64-byte boundaries from an offset: their table entries, and their bytes with what fills the gaps. -/
def placeSections : Nat → List (Nat × List Byte) → List Byte × List Byte
  | _, [] => ([], [])
  | off, (t, b) :: r =>
    let gap := ceilDiv (off + b.length) 64 * 64 - (off + b.length)
    let rest := placeSections (off + b.length + gap) r
    (leBytes 2 t ++ leBytes 2 0 ++ leBytes 4 off ++ leBytes 4 b.length ++ leBytes 4 (crc32 b) ++ rest.1,
      b ++ (if r.isEmpty then [] else List.replicate gap 0 ++ rest.2))

/-- The whole dump (R673). -/
def State.dumpBytes (s : State) (x : Stop) : List Byte :=
  let p := placeSections 256 (s.dumpSections x)
  let total := 256 + p.2.length
  let head := leBytes 4 0x504D4444 ++ leBytes 2 1 ++ leBytes 2 12 ++ leBytes 4 total ++ leBytes 1 x.cause ++ leBytes 1 s.dev ++
    leBytes 2 (s.rg R.ID_REV_ROM_EDITION) ++ leBytes 8 x.tk ++ leBytes 8 (s.rg R.ID_DIE_DIE_ID) ++
    (((x.snap.getD 5 []).drop 8 ++ [0, 0, 0, 0]).take 4).map (BitVec.ofNat 8)
  padTo 64 (head ++ leBytes 4 (crc32 head)) ++ p.1 ++ p.2

/-- DUMP_DONE (R672): written to the host region where one is registered, the PF's link is up, Bus Master Enable is set and its writes succeed
(`hostOk`), else to a blank flash region, else not at all; then the power-down may start. -/
def execDumpDone (hostOk : Bool) (s : State) : Host.Outcome State Fault Refusal :=
  match s.boot.stop with
  | none => .next s
  | some x =>
    if !x.answered || x.dumped then .next s
    else
      let bs := s.dumpBytes x
      let can := s.host.linkUp && (vget s.host.fns 0).bme
      let status := if s.boot.region.isSome && can && !hostOk then Sc.hostWriteFailed else 0
      let done (s : State) (v : Nat) : State := ({ s with
        free := s.free + 1
        boot := { s.boot with
          stop := s.boot.stop.map (fun (x : Stop) => { x with dumped := true }), dumpSize := if v = 3 then 0 else bs.length, dumpStatus := status }
        } : State).setRg R.FLT_STAT_DUMP v
      let s := match s.boot.region with
        | some r =>
          if can && hostOk then done (s.emit (.hostWrite 0 r.1 bs)) 1
          else if s.flashFitted && s.flash.dump.isEmpty then done { s with flash := { s.flash with dump := bs } } 2 else done s 3
        | none => if s.flashFitted && s.flash.dump.isEmpty then done { s with flash := { s.flash with dump := bs } } 2 else done s 3
      .next s.stopEnd

/-! ## The Marshal watchdog -/

/-- MARSHAL_WATCHDOG (R637): a warm restart begins, or within 1 s of the previous firing a fatal stop in dump mode. -/
def execMarshalWatchdog (s : State) : Host.Outcome State Fault Refusal :=
  if !s.vcoreOn || s.boot.dumpMode then .next s
  else
    let now := s.tk.localNs
    let soon := match s.boot.wdog with | some t => decide (now ≤ t + 1000000000) | none => false
    let s : State := { s with boot := { s.boot with wdog := some now } }
    .next (if soon then s.fatal 1 0 0
      else ({ s with warm := true, boot := { s.boot with up := false } } : State).putRgBit R.RST_CAUSE_CAUSE 6 true)

end Sys2Proof.Machine
end

