-- ==== Sys2Proof/Machine/Power.lean ====
section
/-! DEFINITION. Power delivery (chapter Power Rails and the On-Die VCORE Controller): rail sequencing, the VCORE controller and its phases, power failure and
the emergency order. -/

namespace Sys2Proof.Machine

/-! ## Rails (R588 to R591) -/

/-- A rail raised by the sequencer. -/
def State.raise (s : State) (r : Nat) : State :=
  { s with pwr := { s.pwr with seq := .raising r, en := setBit s.pwr.en r } }

/-- A rail that did not leave fault in time (R590): the rails already enabled are lowered with what they power, and the sequencer waits. -/
def State.railFail (s : State) (r : Nat) : State :=
  let s := (s.ev .RAIL_FAULT 255 [r]).setRg R.PWR_RAIL_OK 0
  let s : State := { s with
    pwr := { s.pwr with seq := .waiting, en := 0, tries := s.pwr.tries + 1 }, pst := { s.pst with bench := false } }
  s.wipe .perst

/-- RAIL_ENABLE_STEP (R590): the rail being raised is out of fault; 100 µs later the next is enabled, VCORE through its controller. -/
def execRailEnableStep (s : State) : Host.Outcome State Fault Refusal :=
  match s.pwr.seq with
  | .raising r => .next (
    if 5 ≤ r || s.boot.sysRst || (r == 4 && !s.boot.latched) then s
    else
      let s := s.putRgBit R.PWR_RAIL_OK r true
      if r = 4 then ({ s with pwr := { s.pwr with seq := .raising 5 } } : State).vcoreStart else s.raise (r + 1))
  | _ => .next s

/-- RAIL_START_TIMEOUT (R590): 5 ms after its EN_ a rail has not left fault. -/
def execRailStartTimeout (s : State) : Host.Outcome State Fault Refusal :=
  match s.pwr.seq with
  | .raising r => .next (if 5 ≤ r then s else s.railFail r)
  | _ => .next s

/-- RAIL_RESTART_WAIT (R590): after 100 ms the sequencer starts again from VIO18, or holds every rail off after the third failure. -/
def execRailRestartWait (s : State) : Host.Outcome State Fault Refusal :=
  match s.pwr.seq with
  | .waiting => .next (if 3 ≤ s.pwr.tries then { s with pwr := { s.pwr with seq := .held } } else s.raise 0)
  | _ => .next s

/-- POWER_DOWN_RAIL_STEP (R591): the next rail's EN_ is deasserted, VRIM first and VIO18 last. -/
def execPowerDownRailStep (s : State) : Host.Outcome State Fault Refusal :=
  match s.pwr.seq, [4, 3, 2, 1, 0].find? (fun r => s.pwr.en.testBit r) with
  | .lowering, some r =>
    let en := clearBit s.pwr.en r
    let s : State := { s.putRgBit R.PWR_RAIL_OK r false with pwr := { s.pwr with en := en, seq := if en = 0 then .off else .lowering } }
    .next (if r = 0 then s.tearBb else s)
  | .lowering, none => .next { s with pwr := { s.pwr with seq := .off } }
  | _, _ => .next s

/-- The emergency order (R610, R611): phases and outputs off at once, every EN_ low, the rail and the controller's state recorded. -/
def State.emergency (s : State) (r : Nat) : State :=
  let st := s.rg R.VRC_FLT_STATE
  let s := if st = 0 then s else s.phasesOff.vrcTo 0
  let s := ((s.cutStop.quiet.emit (.port "fail_safe" 0 [])).tearBb).setRg R.PWR_RAIL_OK 0
  ({ s with
    pwr := { s.pwr with seq := .off, en := 0, emerg := some (r, st) }
    pst := { s.pst with bench := false } } : State).wipe .perst

/-- RAIL_FAULT (R610): a sequenced rail that was good has been in fault for 10 µs. -/
def execRailFault (rail : Fin 6) (s : State) : Host.Outcome State Fault Refusal :=
  .next (if s.rgBit R.PWR_RAIL_OK rail then s.emergency rail else s)

/-! ## Power states as the controller forces them (R605, R615, R629) -/

/-- The latency that the device announces in a power state (R629). -/
def ltrNs (st : Nat) : Nat := if st ≤ 1 then 10000 else if st = 2 then 100000 else 5000000

/-- A power state reached: its LTR message and vector 69. Bench is 3. -/
def State.pstSay (s : State) (st : Nat) : State := (s.post 0 (.ltr (ltrNs st))).cause R.INT_CAUSE_POWER 69

/-- Race or Pace entered, and the setpoint moved to its base or to what the Heats need (R615). -/
def State.pstRun (s : State) (st : Nat) : State :=
  let s := (s.setRg R.PST_STAT_STATE st).evalAll
  let now := s.rg R.PACER_STAT_VSET
  let base := s.baseCode
  if now < base then (s.elapse ((base - now) * 500)).setVset base
  else s.lowerTo (max base (min s.pacer.want now))

/-- The device forced to Pace (R605): from Race at once; a request for Race is refused. -/
def State.forcePace (s : State) : State :=
  let s := s.setRg R.PST_STAT_FORCED 1
  let s := match s.pst.req with
    | some (0, ring, cid) => ({ s with pst := { s.pst with req := none } } : State).complete ring cid 0x0142 4
    | _ => s
  if s.rg R.PST_STAT_STATE = 0 then ((s.pstRun 1).ev .PST_ENTER).pstSay 1
  else if s.rg R.PST_STAT_STATE = 2 then { s with pst := { s.pst with restFrom := 1 } }
  else s

/-! ## The VCORE controller (R592 to R606) -/

/-- VCORE_START_REACHED (R606): 0.65 V; the sequencer's rails are all on. -/
def execVcoreStartReached (s : State) : Host.Outcome State Fault Refusal :=
  .next (if s.rg R.VRC_FLT_STATE = 1 then
      let s := (s.vrcTo s.runState).setVset 20
      let s := s.putRgBit R.PWR_RAIL_OK 5 true
      let s := if s.runState = 4 then s.setRg R.PST_STAT_FORCED 1 else s
      { s with pwr := { s.pwr with seq := .on, tries := 0 } }
    else s)

/-- VCORE_START_TIMEOUT (R606): 2 ms in STARTING; the sequencer acts as for a rail that failed to start. -/
def execVcoreStartTimeout (s : State) : Host.Outcome State Fault Refusal :=
  .next (if s.rg R.VRC_FLT_STATE = 1 then ((s.phasesOff.ev .VRC_START_FAIL).vrcTo 0).railFail 5 else s)

/-- The rated limit, in amperes (R595). -/
def State.iRated (s : State) : Nat := min (s.rg R.VRC_LIM_ICC_MAX) (s.rg R.VRC_CFG_PH_CNT * s.rg R.VRC_CFG_PH_RATED)

/-- The current limit I_LIM in units of 1 / (4 N) A (R595, Table PWD-3). -/
def State.iLim4N (s : State) : Nat :=
  s.iRated * (s.rg R.VRC_CFG_PH_CNT - s.lostCount) * (if s.flag R.VRC_FLT_SENSE_FB then 3 else 4)

/-- A new limit below the present load raises the current cause at once; a current cause that is present already sets the phase-derate cause from
the derating on (R604). -/
def State.limitCheck (s : State) (amps : Nat) : State :=
  let s := s.setRg R.VRC_STAT_IOUT amps
  if s.iLim4N < amps * 4 * s.rg R.VRC_CFG_PH_CNT then s.brake 0
  else if s.rgBit R.PACER_STAT_BRAKE_CAUSE 0 && s.derated then s.putRgBit R.PACER_STAT_BRAKE_CAUSE 3 true
  else s

/-- One phase found open (R603): taken out, with its event; the second and every later one forces Pace. -/
def State.phaseLost (s : State) (n : Nat) : State :=
  let s := ((s.putRgBit R.VRC_FLT_LOST n true).setRg R.VRC_PH_PST 2 n).putRgBit R.VRC_STAT_ACTIVE n false
  let s := s.ev .PH_OPEN n
  if s.lostCount ≤ 1 then (if s.rg R.VRC_FLT_STATE = 2 then s.vrcTo 3 else s)
  else
    let s := s.ev .VRC_FORCED_PACE
    (if s.rg R.VRC_FLT_STATE = 4 then s else s.vrcTo 4).forcePace

/-- PHASE_OPEN (R601, R603): an active phase is open, or (none) PH_FLT_N fell and every phase is treated as lost; `amps` is the present load. -/
def execPhaseOpen (phase : Option (Fin 12)) (amps : Fin 512) (s : State) : Host.Outcome State Fault Refusal :=
  .next (if !s.vcoreOn then s
    else match phase with
      | some n => if s.rg R.VRC_PH_PST n = 0 then (s.phaseLost n).limitCheck amps else s
      | none => (((List.range (s.rg R.VRC_CFG_PH_CNT)).filter (fun n => !s.rgBit R.VRC_FLT_LOST n)).foldl State.phaseLost s).limitCheck amps)

/-- PHASE_SENSE_FAIL (R602, R603): the phase's current is taken from its duty from now on. -/
def execPhaseSenseFail (n : Fin 12) (amps : Fin 512) (s : State) : Host.Outcome State Fault Refusal :=
  .next (if s.vcoreOn && s.rg R.VRC_PH_PST n == 0 && !s.rgBit R.VRC_FLT_SENSE_FB n then
      let s := (s.putRgBit R.VRC_FLT_SENSE_FB n true).ev .PH_SENSE n
      (if s.rg R.VRC_FLT_STATE = 2 then s.vrcTo 3 else s).limitCheck amps
    else s)

/-- PHASE_SHED (R599): the highest-numbered active phase, down to PH_MIN and never while a Kick slews or settles. -/
def execPhaseShed (s : State) : Host.Outcome State Fault Refusal :=
  let act := (List.range 12).filter (fun n => s.rg R.VRC_PH_PST n == 0)
  .next (if s.vcoreOn && s.flag R.VRC_CFG_SHED_EN && !s.flag R.PACER_STAT_KICK && decide (s.minPhases < act.length) then
      match act.getLast? with
      | some n => (s.setRg R.VRC_PH_PST 1 n).putRgBit R.VRC_STAT_ACTIVE n false
      | none => s
    else s)

/-- PHASE_ADD (R599): the lowest-numbered shed phase. -/
def execPhaseAdd (s : State) : Host.Outcome State Fault Refusal :=
  .next (if s.vcoreOn && s.flag R.VRC_CFG_SHED_EN then
      match (List.range 12).find? (fun n => s.rg R.VRC_PH_PST n == 1) with
      | some n => (s.setRg R.VRC_PH_PST 0 n).putRgBit R.VRC_STAT_ACTIVE n true
      | none => s
    else s)

/-- PHASE_SHARE_IMBALANCE (R600): a healthy phase more than 25 % off the mean for 1 ms; it stays in service. -/
def execPhaseShareImbalance (n : Fin 12) (s : State) : Host.Outcome State Fault Refusal :=
  .next (if s.vcoreOn && s.rg R.VRC_PH_PST n == 0 then s.ev .VRC_SHARE n else s)

/-- DROOP (R597). -/
def execDroop (s : State) : Host.Outcome State Fault Refusal := .next (if s.vcoreOn then s.brake 2 else s)

/-- DROOP_CLEAR (R597): the droop cause is absent; the covered fault is recovered (Table FLT-1). -/
def execDroopClear (s : State) : Host.Outcome State Fault Refusal :=
  .next (if s.rgBit R.PACER_STAT_BRAKE_CAUSE 2 then (s.brakeAbsent 4).incRg R.FLT_CNT_COVERED else s)

/-- CORE_HOLD (R598): the sense point has fallen below 0.50 V, to `mv`. -/
def execCoreHold (mv : Fin 500) (s : State) : Host.Outcome State Fault Refusal :=
  .next (if s.vcoreOn && s.pwr.hold.isNone then
      let s := (s.ev .VRC_CORE_HOLD).setRg R.VRC_STAT_VOUT mv
      { s with pwr := { s.pwr with hold := some s.tk.localNs } }
    else s)

/-- CORE_HOLD_RESUME (R598): 0.53 V for 1 µs; every domain resumes. A fatal stop for the hold goes on with steps 4 and 5 when 10 ms have not passed
(R655). -/
def execCoreHoldResume (s : State) : Host.Outcome State Fault Refusal :=
  .next (if s.pwr.hold.isNone then s
    else
      let s : State := { s with pwr := { s.pwr with hold := none } }
      let s := s.setVset (s.rg R.PACER_STAT_VSET)
      match s.boot.stop with
      | some x => if x.cause = 2 && !x.answered && s.boot.up && decide (s.tk.localNs ≤ x.at_ + 10000000) then s.stopAnswer else s
      | none => s.incRg R.FLT_CNT_COVERED)

/-- CORE_HOLD_TIMEOUT (R598): the hold has lasted 100 µs. -/
def execCoreHoldTimeout (s : State) : Host.Outcome State Fault Refusal :=
  match s.pwr.hold with
  | some t =>
    let s := s.since t 100000
    .next (s.fatal 2 (s.rg R.VRC_STAT_VOUT) 0)
  | none => .next s

/-- FORCED_PACE_STOP (R605): the current cause has persisted for 1 ms at duty 1/4 with two or more phases lost. -/
def execForcedPaceStop (s : State) : Host.Outcome State Fault Refusal :=
  .next (if s.rg R.VRC_FLT_STATE = 4 && s.rg R.PACER_STAT_BRAKE_LEVEL == 3 && s.rgBit R.PACER_STAT_BRAKE_CAUSE 0 then
      let s := s.since s.pacer.levelAt 1000000
      s.fatal 3 (s.iLim4N / (4 * s.rg R.VRC_CFG_PH_CNT)) 0
    else s)

/-- SYSCLK_LOSS (R699): the controller goes on with its backup oscillator; a start in progress waits for its timeout. -/
def execSysclkLoss (s : State) : Host.Outcome State Fault Refusal :=
  .next (if s.vcoreOn then { s with pwr := { s.pwr with backup := true } } else s)

/-! ## Power failure (R607 to R609) -/

/-- PWR_FAIL_ASSERT (R608): step 1. An entry into Rest or Bench that has not reached its commit point is lost. -/
def execPwrFailAssert (s : State) : Host.Outcome State Fault Refusal :=
  if s.pst.off || s.pwr.failStage != 0 then .next s
  else
    let t := s.tk.localNs
    let s := (s.elapse 1000).setRg R.PWR_RAIL_PWR_FAIL 1
    let s : State := { s with pwr := { s.pwr with failStage := 1, failAt := t } }
    let s := match s.pst.req with
      | some (target, ring, cid) =>
        if 2 ≤ target then
          ((({ s with pst := { s.pst with req := none } } : State).setRg R.PST_STAT_ENTRY_PEND 0).setRg R.PST_STAT_WAKE_PEND 0).complete ring cid Sc.resetLost
        else s
      | none => s
    if s.vcoreOn then
      let s := (s.setRg R.PACER_STAT_KICK 0).setRg R.PACER_STAT_SETTLED 1
      .next (({ s with pacer := { s.pacer with want := 20 } } : State).lowerTo 20)
    else .next s

/-- The dying gasp of a port in O5 (R355). -/
def State.gasp (s : State) (p : Nat) : State :=
  if s.inO5 p then
    let m := [upGasp, if (s.slotKey 0 (8 + 4 * p)).isSome then 1 else 0]
    (s.modPort p (fun x => { x with gasp := true, ploamQ := m :: x.ploamQ })).laserUpdate p
  else s

/-- PWR_FAIL_LOG_FREEZE (R608): step 2, where firmware runs or in Bench; vector 1 tells of the freeze (Table HST-9). -/
def execPwrFailLogFreeze (s : State) : Host.Outcome State Fault Refusal :=
  if s.pwr.failStage = 1 then
    let s := s.since s.pwr.failAt 10000
    let s : State := { s with pwr := { s.pwr with failStage := 2 } }
    if s.boot.up || s.pst.bench then
      let s := (s.ev .PWR_FAIL).setRg R.FLT_STAT_FROZEN 1
      let s := (List.range 8).foldl (fun s u => if s.fnUp u then (s.setRg R.INT_CAUSE_FATAL 1 0 u).vector u 1 else s) s
      .next ((s.gasp 0).gasp 1)
    else .next s
  else .next s

/-- PWR_FAIL_COMMIT_START (R608): step 3, unless a fatal stop makes or made its own commit. -/
def execPwrFailCommitStart (s : State) : Host.Outcome State Fault Refusal :=
  if s.pwr.failStage = 2 then
    let s := s.since s.pwr.failAt 50000
    let s : State := { s with pwr := { s.pwr with failStage := 3 } }
    .next (if (s.boot.up || s.pst.bench) && s.boot.stop.isNone then s.beginBb 2 0x10 64 else s)
  else .next s

/-- DYING_GASP_WINDOW_END (R608): step 4; lasers off and the power-down order starts. -/
def execDyingGaspWindowEnd (s : State) : Host.Outcome State Fault Refusal :=
  if s.pwr.failStage = 3 then
    let s := s.since s.pwr.failAt 4000000
    let s : State := { s with pwr := { s.pwr with failStage := 4 } }
    .next (if s.pwr.seq = .lowering || s.pwr.seq = .off then s else s.powerDown)
  else .next s

/-- PWR_FAIL_RESTART (R609): PWR_FAIL_N has been high for 10 ms with VAON up; the restart is a board reset after power failure. -/
def execPwrFailRestart (s : State) : Host.Outcome State Fault Refusal :=
  if s.pwr.failStage = 4 && s.pwr.seq = .off then
    let s := ((s.wipe .board).derateClear).setRg R.PWR_RAIL_PWR_FAIL 0
    let s := s.setRg R.RST_CAUSE_CAUSE 0x82
    .next (({ s with
      pwr := { s.pwr with failStage := 0, tries := 0 }, boot := { s.boot with started := 0x82, latched := false } } : State).raise 0)
  else .next s

end Sys2Proof.Machine
end

