-- ==== Sys2Proof/Machine/PowerState.lean ====
section
/-! DEFINITION. Power states, the Locker, wake and the SMI (chapter Power States, the Locker and Wake; R529 to R531). -/

namespace Sys2Proof.Machine

/-! ## Entry conditions and Rest -/

/-- Why an entry into Rest or Bench is refused (R616), with the RESULT; nothing is entered during the timeline of a power failure (R608). -/
def State.entryRefusal (s : State) (c : Cmd) (target : Nat) : Option Nat :=
  if s.anyCarrier then some 1
  else if s.heats.toList.any Option.isSome then some 2
  else if s.xfers.any (fun x => x.st != .queued) || (List.range 16).any (fun n => s.flag R.BYK_ISO_EN n) ||
      s.host.cmds.any (fun d => d.opcode == 0x92 && d.started && !d.done) || s.pwr.failStage != 0 then some 4
  else if target = 3 && ((s.port 0).enabled || (s.port 1).enabled || s.flag R.BYK_CTL_PORT_EN ||
      s.host.cmds.any (fun d => !d.done && !(d.ring == c.ring && d.cid == c.cid))) then some 4
  else none

/-- The blocks that Rest gates run again: Lanes GATED for it are IDLE (R623). -/
def State.ungateAll (s : State) : State :=
  (List.range 8).foldl (fun s n => if s.rg R.LANE_STAT_STATE n = 0 then s.setRg R.LANE_STAT_STATE 1 n else s) s

/-- Rest exit (R623) into Race or Pace, Pace while the device is forced to it; a local PON stimulus (R342). -/
def State.restExit (s : State) (target : Nat) : State :=
  let t := if s.flag R.PST_STAT_FORCED then 1 else target
  let s := (s.ungateAll.pstRun t).ev .PST_EXIT 255 [s.rg R.PST_STAT_CAUSE]
  (((s.setRg R.PST_STAT_WAKE_PEND 0).pstSay t).ponStimulus 0).ponStimulus 1

/-! ## The Locker (R624, R625) -/

/-- The registers saved, in order (Table PST-5). -/
def lockerOffs : List Nat :=
  [0x1004, 0x1040, 0x1100, 0x1104, 0x0114, 0x1830, 0x1834, 0x1838, 0x183C, 0x1850, 0x1854, 0x1858, 0x185C, 0x1860, 0x3728, 0x3768, 0x3780,
    0x3A00, 0x4000, 0x4004, 0x4010, 0x4014, 0x4018, 0x401C] ++ (List.range 16).map (fun k => 0x4020 + 4 * k) ++
    (List.range 16).flatMap (fun n => (List.range 7).map (fun k => 0x4200 + 0x20 * n + 4 * k))

/-- The CRC that a save area should hold, over bytes 0 to 7 and every entry. -/
def lockerCrc (b : List Byte) : Nat := crc32 (b.take 8 ++ slice b 16 1216)

/-- The Locker saved. -/
def State.saveLocker (s : State) : State :=
  let entries := lockerOffs.flatMap (fun o => leBytes 4 o ++ leBytes 4 (s.regWord 0 o))
  let head := leBytes 4 0x4B43_4F4C ++ leBytes 2 152 ++ leBytes 2 (rec16 s.pst.locker 6 + 1)
  { s with pst := { s.pst with locker := head ++ leBytes 4 (crc32 (head ++ entries)) ++ leBytes 4 0 ++ entries } }

/-- Whether the save area passes its check. -/
def lockerOk (b : List Byte) : Bool :=
  rec32 b 0 == 0x4B43_4F4C && rec16 b 4 == 152 && rec32 b 8 == lockerCrc b

/-- The Warm fields of one saved entry written back. -/
def State.loadEntry (s : State) (off val : Nat) : State :=
  ((fieldsAt off).filter (fun x => x.1.keep == .warm)).foldl (fun s x => s.setRg x.1 (bitsOf val x.1.lsb x.1.width) x.2) s

/-- The Locker restored, in saved order, or found bad: nothing is restored, and the Marshal reports it (mark 512 of the start). -/
def State.loadLocker (s : State) : State :=
  let b := s.pst.locker
  if lockerOk b then
    (List.range 152).foldl (fun s k => s.loadEntry (rec16 b (16 + 8 * k)) (rec32 b (20 + 8 * k))) s
  else { s with boot := { s.boot with started := s.boot.started ||| 512 } }

/-! ## The commands -/

/-- POWER_STATE (R529, Table PST-2). -/
def execPowerState (ring : Fin 64) (cid : Fin 65536) (s : State) : Host.Outcome State Fault Refusal :=
  .next (s.start ring cid 0x88 (fun c s =>
    let t := c.arg 8 0 2
    let st := s.rg R.PST_STAT_STATE
    let begin_ : State := { s with pst := { s.pst with req := some (t, ring.val, cid.val) } }
    s.check c (c.only [(8, 0, 2)]) (fun s =>
      if s.pst.req.isSome then s.fin c Sc.cfgBusy
      else s.user0 c (fun s =>
        if t = st then s.fin c Sc.ok (2 ^ 31)
        else if t = 0 && s.flag R.PST_STAT_FORCED then s.fin c 0x0142 4
        else if t ≤ 1 then (if st = 2 then (s.restExit t).fin c Sc.ok else begin_)
        else match s.entryRefusal c t with
          | some r => s.fin c 0x0142 r
          | none => begin_.setRg R.PST_STAT_ENTRY_PEND 1))))

/-- POWER_CAP (R530): live, in force from the next refresh. -/
def execPowerCap (ring : Fin 64) (cid : Fin 65536) (s : State) : Host.Outcome State Fault Refusal :=
  .next (s.start ring cid 0x89 (fun c s =>
    let v := c.arg 8 0 16
    s.check c (c.only [(8, 0, 16)] && decide (80 ≤ v) && decide (v ≤ 340)) (fun s =>
      s.user0 c (fun s => (s.setRg R.PWR_CAP_CAP v).fin c Sc.ok v))))

/-- The hottest domain of Table HSF-4, as 16 bits. -/
def State.tjMax (s : State) : Nat :=
  toBits ((List.range 14).foldl (fun m d => max m (s.tjOf (d + 1))) (s.tjOf 0)) 16

/-- The power status record (Table CMO-8). -/
def State.powerRecord (s : State) : List Byte :=
  leBytes 8 (s.rg R.RES_RACE_US) ++ leBytes 8 (s.rg R.RES_PACE_US) ++ leBytes 8 (s.rg R.RES_REST_US) ++ leBytes 8 (s.rg R.RES_BENCH_US) ++
    leBytes 1 (s.rg R.PST_STAT_STATE) ++ leBytes 1 (s.rg R.PACER_STAT_VSET) ++ leBytes 2 (s.rg R.PWR_CAP_CAP) ++ leBytes 4 s.pacer.powerMw ++
    leBytes 4 (s.rg R.VRC_STAT_IOUT * 1000) ++ leBytes 2 (popCount (s.rg R.VRC_STAT_ACTIVE) 12 + 16 * s.lostCount) ++ leBytes 2 s.tjMax ++
    leBytes 16 0

/-- POWER_STATUS (R531). -/
def execPowerStatus (ring : Fin 64) (cid : Fin 65536) (s : State) : Host.Outcome State Fault Refusal :=
  .next (s.start ring cid 0x8A (fun c s => s.replyAt16 c s.powerRecord))

/-! ## Changes of state -/

/-- BASE_SETPOINT_SETTLED (R615): the base has reached that of Race or Pace; the state is entered and its POWER_STATE completes. -/
def execBaseSetpointSettled (s : State) : Host.Outcome State Fault Refusal :=
  match s.pst.req with
  | some (t, ring, cid) =>
    .next (if 2 ≤ t then s
      else
        let s := ({ s with pst := { s.pst with req := none } } : State).pstRun t
        ((s.ev .PST_ENTER).pstSay t).complete ring cid Sc.ok)
  | none => .next s

/-- Rest entered at its commit point (R617): Lanes GATED, the setpoint at 0.65 V, the POWER_STATE completed. -/
def State.enterRest (s : State) (ring cid : Nat) : State :=
  let s := (List.range 8).foldl (fun s n =>
    if s.rg R.LANE_STAT_STATE n = 1 then (s.setRg R.LANE_STAT_STATE 0 n).setRg R.SPLIT_STAT_VALID 0 n else s) s
  let s := s.lowerTo 20
  let s : State := { s with pst := { s.pst with req := none, restFrom := s.rg R.PST_STAT_STATE } }
  let s := s.complete ring cid Sc.ok
  (((s.setRg R.PST_STAT_ENTRY_PEND 0).setRg R.PST_STAT_STATE 2).ev .PST_ENTER).pstSay 2

/-- Bench entered at its commit point (R618): ledgers and the Locker saved, the POWER_STATE completed, then VCORE off and what Bench clears
cleared. `i2c` says whether the ledger of each port reached its optic. -/
def State.enterBench (s : State) (ring cid : Nat) (i2c : BitVec 2) : State :=
  let s := [0, 1].foldl (fun (s : State) p => if s.optState p = 3 then s.writeLedger p true (i2c.toNat.testBit p) else s) s
  let s := s.saveLocker
  let s : State := { s with pst := { s.pst with req := none } }
  let s := s.complete ring cid Sc.ok
  let s := ((s.setRg R.PST_STAT_ENTRY_PEND 0).ev .PST_ENTER).pstSay 3
  let s := s.vcoreDown.wipe .bench
  { s with pst := { s.pst with bench := true }, host := { s.host with l1 := 2 } }.setRg R.MEM_STAT_TRAINED 0

/-- ENTRY_COMMIT_POINT (R622): the entry steps have ended with no stimulus before them. -/
def execEntryCommitPoint (i2c : BitVec 2) (s : State) : Host.Outcome State Fault Refusal :=
  match s.pst.req with
  | some (t, ring, cid) =>
    .next (if t = 2 then s.enterRest ring cid else if t = 3 then s.enterBench ring cid i2c else s)
  | none => .next s

/-- REST_EXIT (R623): a stimulus ends Rest for the state that it was entered from. -/
def execRestExit (s : State) : Host.Outcome State Fault Refusal :=
  .next (if s.rg R.PST_STAT_STATE = 2 && s.flag R.PST_STAT_WAKE_PEND && !s.flag R.PST_STAT_ENTRY_PEND then s.restExit s.pst.restFrom else s)

/-- Steps 1 to 3 of a Bench exit (R623): VCORE leaves OFF and the Locker is restored; WAKE_N is driven while the link is in L2 (R621). -/
def State.benchOut (s : State) : State :=
  let s := if s.host.l1 = 3 then
      { s with pst := { s.pst with wakeN := true } }.emit (.port "wake_n" 0 [0])
    else s
  let s := s.vcoreStart.loadLocker
  { s with boot := { s.boot with started := s.boot.started ||| 256 }, host := { s.host with crs := true } }

/-- BENCH_EXIT (R623): a stimulus ends Bench; the Marshal starts once VCORE is up (MARSHAL_START). `upset` is a byte of the save area that no longer
holds what was saved. -/
def execBenchExit (upset : Option (Nat × Byte)) (s : State) : Host.Outcome State Fault Refusal :=
  .next (if s.pst.bench && s.rg R.VRC_FLT_STATE == 0 && s.flag R.PST_STAT_WAKE_PEND && s.pwr.failStage == 0 then
      (match upset with
        | some (i, b) => { s with pst := { s.pst with locker := modAt s.pst.locker i (fun _ => b) } }
        | none => s).benchOut
    else s)

/-! ## Wake sources (Table PST-3) -/

/-- A source of Table PST-3, if WAKE_MASK lets it be one. -/
def State.wakeSource (s : State) (k : Nat) : State := if s.rgBit R.PST_CTL_WAKE_MASK k then s.stimulus k else s

/-- SMI_ADDRESS_MATCH (R628). -/
def execSmiAddressMatch (s : State) : Host.Outcome State Fault Refusal := .next (s.wakeSource 0)

/-- WAKE_N_ASSERT (R620): held low by another agent while the device does not drive it. -/
def execWakeNAssert (s : State) : Host.Outcome State Fault Refusal := .next (if s.pst.wakeN then s else s.wakeSource 1)

/-- PCIE_WAKE_ACTIVITY (R620): the link leaves L1. In L2 no traffic reaches the device. -/
def execPcieWakeActivity (s : State) : Host.Outcome State Fault Refusal :=
  .next (if s.host.l1 = 3 then s else { s with host := { s.host with l1 := if s.pst.bench then s.host.l1 else 0 } }.wakeSource 2)

/-- WAKE_AT_TIMER (R620): TK_NS reaches WAKE_AT, which clears. -/
def execWakeAtTimer (s : State) : Host.Outcome State Fault Refusal :=
  .next (if s.rg R.WAKE_AT_AT = 0 then s
    else (((s.reach (s.rg R.WAKE_AT_AT)).setRg R.WAKE_AT_AT 0)).wakeSource 3)

/-! ## The SMI (R626 to R628) -/

/-- A phase's bytes with its packet error code where codes are on. -/
def State.withPec (s : State) (addrByte : Nat) (b : List Byte) : List Byte :=
  if s.flag R.SMI_CTL_PEC_EN then b ++ leBytes 1 (crc8 (leBytes 1 addrByte ++ b)) else b

/-- Whether the SMI answers commands: once the Marshal is up. -/
def State.smiUp (s : State) : Bool := s.boot.up && !s.pst.bench

/-- The LEN that a command takes (Table PST-6). -/
def smiLen (cmd : Nat) : Option Nat :=
  match cmd with | 1 => some 0 | 2 => some 0 | 3 => some 1 | 4 => some 4 | _ => none

/-- The response to the last complete write phase; it counts as a command answered. -/
def State.smiAnswer (s : State) (status : Nat) (b : List Byte) : State :=
  { s with pst := { s.pst with smiCmd := none, smiResp := (status, b) } }.incRg R.SMI_STAT_CMDS

/-- SMI_WRITE_PHASE (R627, R628): a complete write phase. A wrong or missing PEC discards it. -/
def execSmiWritePhase (cmd : Byte) (len : Byte) (data : List Byte) (pec : Option Byte) (s : State) : Host.Outcome State Fault Refusal :=
  let addr := 2 * s.rg R.SMI_CTL_ADDR
  let body := [cmd, len] ++ data
  .next (if !s.smiUp || data.length != len.toNat then s
    else if s.flag R.SMI_CTL_PEC_EN && pec != some (BitVec.ofNat 8 (crc8 (leBytes 1 addr ++ body))) then
      { s with pst := { s.pst with smiCmd := none, smiResp := (4, []) } }.incRg R.SMI_STAT_PEC_ERR
    else match smiLen cmd.toNat with
      | none => s.smiAnswer 2 []
      | some n =>
        if n = len.toNat then { s with pst := { s.pst with smiCmd := some (cmd.toNat, data), smiResp := (1, []) } } else s.smiAnswer 3 [])

/-- SMI_READ_PHASE (R627, R628): the response, or BUSY. -/
def execSmiReadPhase (s : State) : Host.Outcome State Fault Refusal :=
  let addr := 2 * s.rg R.SMI_CTL_ADDR + 1
  let r : Nat × List Byte := if s.smiUp then s.pst.smiResp else (1, [])
  let s := if r.1 = 1 then s.incRg R.SMI_STAT_BUSY else s
  .next (s.emit (.port "smi" 0 ((s.withPec addr (leBytes 1 r.1 ++ leBytes 1 r.2.length ++ r.2)).map (·.toNat))))

/-- The write phase of a command that waits for its answer. -/
def State.smiRun (s : State) (cmd : Nat) (f : List Byte → State → State) : State :=
  match s.pst.smiCmd with
  | some (k, d) => if k = cmd && s.smiUp then f d s else s
  | none => s

/-- SMI_STATUS (Table PST-6). -/
def execSmiStatus (s : State) : Host.Outcome State Fault Refusal :=
  .next (s.smiRun 1 (fun _ s => s.smiAnswer 0
    (leBytes 1 (s.rg R.PST_STAT_STATE) ++ leBytes 1 (s.rg R.PST_STAT_CAUSE) ++ leBytes 2 s.tjMax ++ leBytes 1 (s.rg R.PWR_RAIL_OK) ++
      leBytes 1 (s.rg R.TK_STAT_STATE))))

/-- SMI_WAKE (Table PST-6): ends Rest as a work stimulus. -/
def execSmiWake (s : State) : Host.Outcome State Fault Refusal :=
  .next (s.smiRun 2 (fun _ s => (if s.rg R.PST_STAT_STATE = 2 then s.stimulus 4 else s).smiAnswer 0 []))

/-- SMI_RESIDENCY (Table PST-6). The answer to a state above 3 is not stated: its status is a free value (notes/assumptions/2.md). -/
def execSmiResidency (s : State) : Host.Outcome State Fault Refusal :=
  .next (s.smiRun 3 (fun d s =>
    match leNat d with
    | 0 => s.smiAnswer 0 (leBytes 8 (s.rg R.RES_RACE_US))
    | 1 => s.smiAnswer 0 (leBytes 8 (s.rg R.RES_PACE_US))
    | 2 => s.smiAnswer 0 (leBytes 8 (s.rg R.RES_REST_US))
    | 3 => s.smiAnswer 0 (leBytes 8 (s.rg R.RES_BENCH_US))
    | _ => (s.smiAnswer (s.freeVal 7 6) []).spent))

/-- SMI_EVENT (Table PST-6). -/
def execSmiEvent (s : State) : Host.Outcome State Fault Refusal :=
  .next (s.smiRun 4 (fun d s =>
    match s.log.recs.find? (fun r => r.num == leNat d) with
    | some r => s.smiAnswer 0 r.bytes
    | none => s.smiAnswer 5 []))

/-! ## PCIe in Rest and Bench (R629) -/

/-- PME_TURN_OFF: acknowledged; in Bench the link enters L2/L3 Ready. -/
def execPmeTurnOff (s : State) : Host.Outcome State Fault Refusal :=
  .next (if s.pst.bench then { s with host := { s.host with l1 := 3 } }.emit (.port "pme_to_ack" 0 []) else s)

/-- ASPM_L1_ENTRY: 8 µs with no traffic; L1, or L1.2 where it is enabled. -/
def execAspmL1Entry (l12 : Bool) (s : State) : Host.Outcome State Fault Refusal :=
  .next (if s.host.linkUp && s.host.l1 == 0 then { s with host := { s.host with l1 := if l12 then 2 else 1 } } else s)

end Sys2Proof.Machine
end

