-- ==== Sys2Proof/Machine/ProgCmd.lean ====
section
/-! DEFINITION. The program, Heat and stream commands (R175 to R190, R486 to R493, R547 to R549, R704). -/

namespace Sys2Proof.Machine

/-! ## The checks of a load (R175, R176, R186, R704) -/

/-- Whether two byte ranges (offset, size) are apart. -/
def apart (a b : Nat × Nat) : Bool := decide (a.1 + a.2 ≤ b.1) || decide (b.1 + b.2 ≤ a.1)

/-- The header and section table (Tables HEA-1, HEA-2). -/
def headerOk (img : List Byte) (size : Nat) : Bool :=
  let n := rec16 img 12
  let ss := sections img
  let need := [1, 2, 6, 15] ++ (if recF img 14 0 1 = 1 then [7] else []) ++ (if recF img 14 1 1 = 1 then [8] else [])
  decide (64 ≤ size) && img.length == size && rec32 img 0 == 0x4C52_4D4C && rec16 img 4 == 0x0300 && decide (rec16 img 6 ≤ 0x0401) &&
  rec32 img 8 == size && decide (2 ≤ n) && decide (n ≤ 32) && recF img 14 2 14 == 0 && decide (1 ≤ progLanes img) && decide (progLanes img ≤ 8) &&
  recF img 24 4 4 == 0 && rec8 img 25 == 0 && decide (1 ≤ rec16 img 26) && decide (rec16 img 26 ≤ 1024) && decide (rec16 img 28 ≤ 64) &&
  decide (1 ≤ rec16 img 30) && decide (rec16 img 30 ≤ 64) && rec32 img 36 == 0 && zeroAt img 48 16 && decide (64 ≤ rec32 img 32) &&
  decide (rec32 img 32 + 16 * n ≤ size) &&
  (List.range n).all (fun i => rec16 img (rec32 img 32 + 16 * i + 2) == 0 && rec32 img (rec32 img 32 + 16 * i + 12) == 0) &&
  ss.all (fun x => [1, 2, 3, 4, 5, 6, 7, 8, 15].contains x.1 && x.2.1 % 64 == 0 && decide (64 ≤ x.2.1) && decide (x.2.1 + x.2.2 ≤ size)) &&
  need.all (fun t => (ss.filter (fun x => x.1 == t)).length == 1) &&
  (pairsOf ss).all (fun p => p.1.1 != p.2.1 && apart p.1.2 p.2.2) &&
  (match ss.find? (fun x => x.1 == 15) with
    | some x => x.2.2 == 32 && ss.all (fun y => decide (y.2.1 ≤ x.2.1)) && zeroAt img (x.2.1 + 2) 14
    | none => false)

/-- The tensor map, annotations, tap bindings, tables, templates and relay plans. -/
def mapsOk (img : List Byte) : Bool :=
  let lanes := progLanes img
  let segs := rec16 img 30
  let taps := progTaps img
  let ts := progTensors img
  let kindOf (i : Nat) := recF (ts.getD i []) 0 0 3
  (sectionOf img 1).length % 64 == 0 && (sectionOf img 2).length % 16 == 0 && (sectionOf img 5).length % 64 == 0 &&
  (sectionOf img 6).length == 16 * segs && (sectionOf img 7).length % 16 == 0 &&
  (sectionOf img 4).length % (4108 * lanes) == 0 && decide (lutCount img ≤ 4) &&
  ts.all (fun t => let k := recF t 0 0 3
    decide (k ≤ 4) && recF t 0 3 5 == 0 && (decide (recF t 1 0 4 < lanes) || recF t 1 0 4 == 15) && decide (recF t 1 4 4 ≤ 13) &&
    (k != 2 || decide (rec16 t 2 < rec16 img 28)) && (decide (k < 3) || decide (rec16 t 2 < taps.length)) && (k == 0 || rec64 t 8 == 0)) &&
  (progSegs img).all (fun g => decide (recF g 0 0 4 ≤ 14) && recF g 0 4 4 == 0 && decide (recF g 1 0 4 ≤ 4) && decide (recF g 1 4 4 ≤ 4) &&
    rec32 g 4 == 0) &&
  taps.all (fun t => decide (recF t 0 0 2 ≤ 2) && recF t 0 2 6 == 0 && recF t 1 2 6 == 0 && decide (1 ≤ recF t 4 0 5) &&
    decide (recF t 4 0 5 ≤ 16) && recF t 4 5 3 == 0 && decide (rec8 t 5 < segs) && kindOf (rec16 t 6) == 3 && kindOf (rec16 t 8) == 4 &&
    zeroAt t 10 6) &&
  (pairsOf taps).all (fun p => recF p.1 0 0 2 != recF p.2 0 0 2) &&
  (progTemplates img).all (fun d => dReservedOk d) &&
  (relayPlans img).all (fun p => decide (p.length ≤ 63) && p.all (fun h => recF h 0 6 2 == 0 && recF h 2 3 5 == 0 && recF h 3 1 7 == 0) &&
    (pairsOf p).all (fun q => recF q.1 0 0 6 != recF q.2 0 0 6)) &&
  (match secBytes img 3 with
    | some b => b.length == ((ts.filter (fun t => recF t 0 0 3 == 0)).map (fun t => rec32 t 4)).sum
    | none => true)

/-- Whether a pass plan takes two operand formats (R704). -/
def planFits (plan a b : Nat) : Bool :=
  let pair (x y : Nat) := (a == x && b == y) || (a == y && b == x)
  match plan with
  | 0 => (a == b && [0, 1, 3, 4, 5, 6, 8].contains a) || pair 1 0 || pair 3 4
  | 1 => pair 2 1
  | 2 => a == 2 && b == 2
  | 3 => a == 7 && b == 7
  | 4 | 5 => a == b && [10, 11, 5, 6].contains a
  | 6 => (a == 10 && (b == 2 || b == 1)) || (a == b && (a == 5 || a == 6))
  | _ => false

/-- One lane-operation entry (R180, R704, R545). -/
def entryOk (img : List Byte) (e : List Byte) : Bool :=
  let op := eOp e
  let ts := progTensors img
  let n := ts.length
  let fn := eFn e
  let use (t fmt : Nat) : Bool := decide (t < n) && (fmt != 8 || decide (t + 1 < n) && recF (ts.getD (t + 1) []) 1 4 4 == 9)
  let tens (a b c o : Bool) : Bool :=
    (if a then use (eTA e) (eFmtA e) else eTA e == 0xFFFF) && (if b then use (eTB e) (eFmtB e) else eTB e == 0xFFFF) &&
    (if c then decide (eTC e < n) else eTC e == 0xFFFF) && (if o then use (eTO e) (eFmtO e) else eTO e == 0xFFFF) &&
    (!ePercol e || decide (ePT e < n))
  let dims := decide (1 ≤ eM e) && decide (1 ≤ eN e)
  recF e 1 3 5 == 0 && recF e 2 6 10 == 0 && recF e 6 6 2 == 0 && recF e 7 3 5 == 0 && (recF e 28 6 10 == 0 || op == 10) &&
  decide (eVl e < progLanes img) && rec8 e 43 == 0 && zeroAt e 48 16 && decide (eSeg e < rec16 img 30) &&
  (if op = 2 && fn = 8 then decide (eCmp e ≤ 5) else eCmp e == 0) &&
  (match op with
  | 1 => fn == 0 && dims && decide (1 ≤ eK e) && planFits (ePlan e) (eFmtA e) (eFmtB e) && tens true true (eBias e) true &&
      !([9, 14, 15].contains (eFmtO e)) && !(eFmtO e == 13 && !tileWide e) && !(fmtCplx (eFmtO e) && !planCplx (ePlan e)) &&
      !(fmtInt (eFmtO e) && planCplx (ePlan e))
  | 2 => decide (fn ≤ 14) && dims && tens true (fnUsesB fn) (fnUsesC fn) true &&
      (fmtFloat (eFmtA e) && (!fnUsesB fn || fmtFloat (eFmtB e)) || fmtInt (eFmtA e) && (!fnUsesB fn || fmtInt (eFmtB e))) &&
      !(decide (10 ≤ fn) && decide (fn ≤ 12) && fmtFloat (eFmtA e))
  | 3 => decide (fn ≤ 5) && dims && tens true false false true
  | 4 => decide (fn ≤ 2) && dims && tens true false false true && decide (eLut e < lutCount img)
  | 5 => fn == 0 && dims && tens true false false true
  | 6 => fn == 0 && decide (eDesc e < (progTemplates img).length) && decide (eTok e < rec16 img 26)
  | 7 => fn == 0 && decide (eTok e < rec16 img 26)
  | 0 | 8 | 9 => fn == 0
  | 10 => decide (fn ≤ 6) && eTA e == 0xFFFF && eTB e == 0xFFFF && eTO e == 0xFFFF && eTC e == 0xFFFF &&
      (match fn with
        | 0 => yScope e != 0
        | 1 | 2 | 3 => decide (yTensor e < n)
        | 4 | 5 => decide (1 ≤ yExpect e) && decide (yExpect e ≤ 512)
        | _ => true)
  | _ => false)

/-- Every check of a container that needs nothing but the image. -/
def imageOk (img : List Byte) (size : Nat) : Bool :=
  headerOk img size && mapsOk img && (progOps img).all (entryOk img)

/-! ## Placement (R187, R486) -/

/-- The Lanes a load may take: in its mask and in LANE_CTL.MASK, and not held; ascending. -/
def State.lanesFor (s : State) (mask : Nat) : List Nat :=
  (List.range 8).filter (fun n => mask.testBit n && s.rgBit R.LANE_CTL_MASK n && !s.flag R.LANE_STAT_HELD n)

/-- Resident regions of an image placed at given bases, in tensor-map order: the tensor and where it lies. -/
def residents (img : List Byte) (bases : List Nat) (field : Nat) : List (Nat × Nat) :=
  ((progTensors img).filter (fun t => recF t 0 0 3 == 0)).map (fun t =>
    let v := recF t 1 0 4
    ((if v = 15 then field else bases.getD v 0) + rec64 t 8, rec32 t 4))

def Prog.residents (p : Prog) : List (Nat × Nat) := Machine.residents p.image p.resBase p.fieldBase

/-- Whether the resident regions keep to their stores, to no Pool class region and to no other program's (R186, R486). -/
def State.residentsOk (s : State) (img : List Byte) (bases : List Nat) (resOff field : Nat) : Bool :=
  ((progTensors img).filter (fun t => recF t 0 0 3 == 0)).all (fun t =>
    if recF t 1 0 4 = 15 then decide (0x0800_0000 ≤ field) && decide (field + rec64 t 8 + rec32 t 4 ≤ 0x0C00_0000)
    else decide (resOff + rec64 t 8 + rec32 t 4 ≤ 0x0100_0000)) &&
  (residents img bases field).all (fun r =>
    (List.range 32).all (fun k => let x := s.pclass k
      !x.conf || r.2 == 0 || apart r (x.base, x.count * 2 ^ x.size)) &&
    s.progs.all (fun p => p.residents.all (fun q => r.2 == 0 || q.2 == 0 || apart r q)))

/-- Bytes of the sections that firmware keeps in on-chip tables (R486). -/
def tableBytes (img : List Byte) : Nat := (((sections img).filter (fun x => x.1 != 3)).map (fun x => x.2.2)).sum

/-- The handle of a new program (R487): the lowest free INDEX, with the GEN after its last. -/
def State.newHandle (s : State) : Option (Nat × Nat) :=
  ((List.range 64).find? (fun i => !s.progs.any (fun p => p.handle % 64 == i))).map (fun i =>
    let g := Store.get 0 s.progGens i
    (i, if g = 65535 then 1 else g + 1))

/-- Whether a Heat of a program is in flight. -/
def State.progBusy (s : State) (handle : Nat) : Bool := s.heatList.any (fun p => p.2.prog == handle)

/-- Whether a load would rewrite lookup tables bound to a Heat in flight (R87): those of a program placed on one of its Lanes. -/
def State.tablesBound (s : State) (img : List Byte) (lanes : List Nat) : Bool :=
  decide (0 < lutCount img) && s.progs.any (fun p => s.progBusy p.handle && decide (0 < lutCount p.image) && p.lanes.any lanes.contains)

/-- The program enters LOADED: resident data is written, lookup tables go to its Lanes (Table HEA-8). -/
def State.loadProg (s : State) (c : Cmd) (img : List Byte) (lanes bases : List Nat) (field : Nat) : State :=
  match s.newHandle with
  | none => s.fin c 0x0102
  | some (i, g) =>
    let h := i + g * 65536
    let data := sectionOf img 3
    let s := if data.isEmpty then s
      else ((residents img bases field).foldl (fun (x : State × Nat) r => (x.1.write r.1 (slice data x.2 r.2), x.2 + r.2)) (s, 0)).1
    let p : Prog := { handle := h, user := c.user, ready := false, image := img, lanes := lanes, resBase := bases, fieldBase := field }
    let s : State := { s with progs := s.progs ++ [p], progGens := Store.put 0 s.progGens i g }
    let s := if 0 < lutCount img then
        lanes.foldl (fun (s : State) (n : Nat) => { s with lanes := vmod s.lanes n (fun l => { l with tables := some h }) }) s
      else s
    s.fin c Sc.ok h

/-- PROG_LOAD (R486). -/
def execProgLoad (ring : Fin 64) (cid : Fin 65536) (d : HostData) (s : State) : Host.Outcome State Fault Refusal :=
  .next (s.start ring cid 0x0C (fun c s =>
    let size := c.arg 16 0 32
    let off := c.arg 24 0 24
    let field := c.arg 32 0 64
    s.check c (c.only [(8, 0, 64), (16, 0, 32), (20, 0, 8), (21, 0, 1), (24, 0, 24), (32, 0, 64)] && off % 64 == 0 && field % 64 == 0) (fun s =>
      s.withRecord c (c.arg 21 0 1 == 1) (c.arg 8 0 64) size d (fun img s =>
        let free := s.lanesFor (c.arg 20 0 8)
        let lanes := free.take (progLanes img)
        let bases := lanes.map (fun n => n * 0x0100_0000 + off)
        s.check c (imageOk img size && s.residentsOk img bases off field) (fun s =>
          if free.length < progLanes img then s.fin c Sc.notReady
          else if s.tablesBound img lanes then s.fin c Sc.cfgBusy
          else if decide (64 ≤ s.progs.length) || decide (2 ^ 23 < (s.progs.map (fun p => tableBytes p.image)).sum + tableBytes img) then
            s.fin c 0x0102
          else s.loadProg c img lanes bases field)))))

/-- A program command: its handle must be current (R487). -/
def State.withProg (s : State) (c : Cmd) (k : Prog → State → State) : State :=
  match s.prog? (c.arg 8 0 32) with
  | some p => s.check c (c.only [(8, 0, 32)]) (k p)
  | none => s.fin c Sc.badField

/-- Whether a program's TAG verifies (R177): ALG 1, a key slot of the loading user that R418 allows, and the AES-256 CMAC over
every byte but the TAG. -/
def State.tagOk (s : State) (p : Prog) : Bool :=
  match (sections p.image).find? (fun x => x.1 == 15) with
  | none => false
  | some x =>
    let slot := rec8 p.image x.2.1
    let msg := p.image.take (x.2.1 + 16) ++ p.image.drop (x.2.1 + 32)
    rec8 p.image (x.2.1 + 1) == 1 && decide (slot ≤ 7) && s.flag R.KEY_STAT_VALID slot p.user && s.flag R.KEY_STAT_LEN slot p.user &&
      s.rgBit R.KEY_STAT_USAGE 4 slot p.user &&
      cmac (Store.get [] s.cipher.keys (16 * p.user + slot)) (msg.map (·.toNat)) == (slice p.image (x.2.1 + 16) 16).map (·.toNat)

/-- PROG_VERIFY (R488). -/
def execProgVerify (ring : Fin 64) (cid : Fin 65536) (s : State) : Host.Outcome State Fault Refusal :=
  .next (s.start ring cid 0x0D (fun c s => s.withProg c (fun p s =>
    if !s.tagOk p then s.fin c Sc.sigInvalid
    else if c.user ≠ p.user then s.fin c 0x0100
    else ({ s with progs := s.progs.map (fun (q : Prog) => if q.handle == p.handle then { q with ready := true } else q) } : State).fin c Sc.ok)))

/-- PROG_UNLOAD (R488). -/
def execProgUnload (ring : Fin 64) (cid : Fin 65536) (s : State) : Host.Outcome State Fault Refusal :=
  .next (s.start ring cid 0x0E (fun c s => s.withProg c (fun p s =>
    if s.progBusy p.handle then s.fin c Sc.cfgBusy
    else if c.user ≠ p.user && c.user ≠ 0 then s.fin c 0x0100
    else ({ s with progs := s.progs.filter (fun (q : Prog) => q.handle != p.handle) } : State).fin c Sc.ok)))

/-! ## Admission of a Heat (R188 to R194, R547 to R549) -/

/-- The bindings are well formed and name each slot once (R188). -/
def bindsOk (binds : List (List Byte)) (slots : Nat) : Bool :=
  binds.all (fun b => decide (rec16 b 0 < slots) && decide (rec8 b 2 ≤ 1) && decide (rec8 b 3 ≤ 1) && rec32 b 4 == 0 &&
    (if rec8 b 2 = 0 then rec32 b 12 == 0 else recF b 8 46 18 == 0)) &&
  (pairsOf binds).all (fun p => rec16 p.1 0 != rec16 p.2 0)

/-- Tensors that the program writes: outputs of its operations, local stream destinations and signals (R186). -/
def writtenTensors (img : List Byte) : List Nat :=
  (progOps img).filterMap (fun e =>
    match eOp e with
    | 1 | 2 | 3 | 4 | 5 => some (eTO e)
    | 6 =>
      let t := (progTemplates img).getD (eDesc e) []
      if !dDstGlobal t then some (rec64 t 8 % 65536) else none
    | 10 => if (eFn e == 1 || eFn e == 2) && !yGlobal e then some (yTensor e) else none
    | _ => none)

/-- Whether every binding reaches the memory that the program's tensors need of it, in its direction (R186, R188, R472). -/
def State.bindsReach (s : State) (user : Nat) (img : List Byte) (binds : List (List Byte)) : Bool :=
  (progTensors img).zipIdx.all (fun t =>
    if recF t.1 0 0 3 = 2 then
      match binds.find? (fun b => rec16 b 0 == rec16 t.1 2) with
      | none => false
      | some b =>
        let wr := rec8 b 3 == 1
        let n := rec32 t.1 4
        (wr || !(writtenTensors img).contains t.2) &&
          (if rec8 b 2 = 0 then s.bufFits user (rec32 b 8) n wr else n == 0 || s.canReach user (recF b 8 0 46) n wr)
    else true)

/-- Activation tensors of an image: index, virtual Lane and size. -/
def activations (img : List Byte) : List (Nat × Nat × Nat) :=
  ((progTensors img).zipIdx.filter (fun t => recF t.1 0 0 3 == 1)).map (fun t => (t.2, recF t.1 1 0 4, rec32 t.1 4))

/-- The class of a virtual Lane's activations, if the descriptor gives one (Table HEA-9, R189). -/
def actClass (desc : List Byte) (v : Nat) : Option Nat :=
  if v = 15 then if recF desc 48 26 1 = 1 then some (recF desc 48 21 5) else none
  else let k := rec8 desc (56 + v)
    if k < 32 then some k else none

/-- R189: each activation fits a buffer of a class that lies in the placed Lane's store, or in the Field pool. -/
def State.actsOk (s : State) (p : Prog) (desc : List Byte) : Bool :=
  (activations p.image).all (fun a =>
    match actClass desc a.2.1 with
    | none => false
    | some k =>
      let x := s.pclass k
      let lo := if a.2.1 = 15 then 0x0800_0000 else (p.lanes.getD a.2.1 8) * 0x0100_0000
      let n := if a.2.1 = 15 then 0x0400_0000 else 0x0100_0000
      x.conf && decide (lo ≤ x.base) && decide (x.base + x.count * 2 ^ x.size ≤ lo + n) && decide (a.2.2 ≤ 2 ^ x.size))

/-- The SYNC checks of R547, and an AWAIT before any arrival, in entry order; entries after END never run. -/
def State.syncOk (s : State) (img : List Byte) (h : Heat) : Bool :=
  (List.range (progLanes img)).all (fun v =>
    ((laneOps img v).takeWhile (fun e => eOp e != 0)).foldl (fun (x : Bool × Bool) e =>
      if eOp e = 10 then
        let fn := eFn e
        let a := (h.signal e).getD 0
        let ok := match fn with
          | 1 | 2 | 3 => (h.signal e).isSome && a % 8 == 0 && (!yGlobal e || fn == 3 || s.inSite (yDev e)) && (fn != 3 || s.inMem a 8) &&
              !(fn == 2 && inWindows a 8)
          | 4 | 5 => s.inSite (yDev e)
          | 6 => x.2
          | _ => true
        (x.1 && ok, x.2 || fn == 4 || fn == 5)
      else x) (true, false) |>.1)

/-- The class of an entry's write to a tensor. -/
def Heat.outClass (h : Heat) (t : Nat) : Nat := ((h.tensorLoc t).map (fun p => writeClass p.1 false)).foldl max 1

/-- The first entry of a virtual Lane that breaks R548 (notes/assumptions/25.md): its fence does not reach the widest class of its target and of the
writes before it that no fence has covered. -/
def fenceBreak (h : Heat) (img : List Byte) (dev v : Nat) : Option Nat :=
  (((laneOps img v).takeWhile (fun e => eOp e != 0)).zipIdx.foldl (fun (x : Nat × Nat × Option Nat) p =>
    let e := p.1
    -- x: the widest class not covered, the widest fence since the last write, the first break
    let wrote (k : Nat) : Nat × Nat × Option Nat := (max x.1 k, 0, x.2.2)
    let fence (k : Nat) (y : Nat × Nat × Option Nat) : Nat × Nat × Option Nat := (if y.1 ≤ k then 0 else y.1, max y.2.1 k, y.2.2)
    match eOp e with
    | 1 => if eLastK e then wrote (h.outClass (eTO e)) else x
    | 2 | 3 | 4 | 5 => wrote (h.outClass (eTO e))
    | 6 =>
      let t := (progTemplates img).getD (eDesc e) []
      wrote (if dKind t = 1 then 1 else if dDstGlobal t then 3 else h.outClass (rec64 t 8 % 65536))
    | 10 =>
      let k := match eFn e with
        | 1 | 2 => if yGlobal e then 3 else h.outClass (yTensor e)
        | _ => if yDev e = dev then 1 else 3
      let y := fence (yScope e) x
      match eFn e with
      | 0 => y
      | 1 | 2 | 4 | 5 => if max x.2.1 (yScope e) < max k x.1 then (y.1, y.2.1, some (x.2.2.getD p.2)) else y
      | _ => x
    | _ => x) (0, 0, none)).2.2

/-- The lowest free Heat slot (R192): at most 24 Heats carry RADIO = 0. -/
def State.freeSlot (s : State) (radio : Bool) : Option Nat :=
  if !radio && decide (24 ≤ (s.heatList.filter (fun p => !p.2.radio)).length) then none
  else (List.range 32).find? (fun i => (s.heat i).isNone)

/-- Bytes of the job list of a radio Heat, from the Pool handle of binding slot 0 (R254). -/
def State.jobList (s : State) (binds : List (List Byte)) : Option (List Byte) × State :=
  match binds.find? (fun b => rec16 b 0 == 0) with
  | none => (none, s)
  | some b => match s.handleMem (rec32 b 8) with
    | some m => s.readMem m.1 m.2
    | none => (none, s)

/-- The slot exists in the carrier's numerology (R207), the tap entries match the carrier (R183), and the first two bindings are an input and an output
handle (R254). -/
def State.radioOk (s : State) (img : List Byte) (h : Heat) : Bool :=
  let cr := (s.carrier h.carrier).rec_
  let has (slot dir : Nat) := h.binds.any (fun b => rec16 b 0 == slot && rec8 b 2 == 0 && rec8 b 3 == dir && (s.handleMem (rec32 b 8)).isSome)
  has 0 0 && has 1 1 && decide (h.subframe ≤ 9) && decide (h.nrSlot < 2 ^ cScs cr) &&
    (progTaps img).all (fun t => recF t 1 0 2 == cScs cr && rec16 t 2 == cPrb cr && recF t 4 0 5 == cRxAnt cr)

/-- Allocate the activations of a Heat in its slot, in tensor-map order; a refusal frees those granted. -/
def State.takeActs (s : State) (slot : Nat) (desc : List Byte) : List (Nat × Nat × Nat) → List (Nat × Nat) → Nat × List (Nat × Nat) × State
  | [], acc => (Sc.ok, acc, s)
  | a :: as, acc =>
    let r := s.alloc slot ((actClass desc a.2.1).getD 32)
    if r.status = Sc.ok then r.st.takeActs slot desc as (acc ++ [(a.1, r.val)])
    else (r.status, [], r.st.freeAll slot (acc.map (·.2)))

/-- Lanes of a Heat that are masked or held when it is admitted. -/
def State.barred (s : State) (p : Prog) : List Nat :=
  (List.range p.lanes.length).filter (fun v =>
    let n := p.lanes.getD v 8
    !s.rgBit R.LANE_CTL_MASK n || s.flag R.LANE_STAT_HELD n)

/-- The Heat takes its slot: tensors resolve, taps are allocated, stages that cannot run fall back, and it is evaluated (R43, R194, R262). -/
def State.placeHeat (s : State) (slot : Nat) (p : Prog) (h : Heat) (noStages : Bool) : State :=
  let s : State := { s.setHeat slot h with heatNext := s.heatNext + 1 }
  let taps := if h.uplinkRadio then (progTaps p.image).map (fun t => (recF t 0 0 2, rec8 t 5)) else []
  let s := s.modHeat slot (fun h => { h with taps := (List.range 3).map (fun t =>
    match taps.find? (fun x => x.1 == t) with
    | some x => { st := .open_, seg := x.2 }
    | none => {}) })
  let s := if noStages then (s.tapsNorun slot).modHeat slot (fun h => { h with vl := h.vl.map (fun x => { x with run := .stopped }) })
    else (List.range 3).foldl (fun s t => s.tapAlloc slot t) s
  let s := if h.radio then (s.barred p).foldl (fun s v => s.stopStage slot v) s else s
  let s := match s.heat slot with
    | some h => s.setHeat slot { h with locs := (List.range (progTensors p.image).length).map (s.resolveTensor h) }
    | none => s
  let s := s.admitEval slot
  if h.uplinkRadio && decide (h.slotStart ≤ s.tk.ns) then
    -- admitted after its slot's first sample (R259)
    (s.modHeat slot (fun h => { h with jobs := h.jobs.map (fun j => { j with result := some 1 }) })).commitHeat slot Sc.slotMissed
  else if h.radio && decide (h.finish < s.tk.ns) then s.finishLine slot
  else s

/-- The Heat that a descriptor and its bindings make of a program, as it stands when its admission begins: what it captures, and where its tensors lie. -/
def State.heatOf (s : State) (c : Cmd) (p : Prog) (desc : List Byte) (binds : List (List Byte)) : Heat :=
  let h : Heat := { user := c.user, ring := c.ring, cid := c.cid, prog := p.handle, desc := desc, binds := binds, admitNs := s.tk.ns,
                    seq := s.heatNext, wdFrom := s.tk.localNs, vl := startVls p.image, splitKick := s.flag R.PACER_CTL_SPLIT_KICK,
                    gFixed := s.rg R.PACER_GUARD_G_FIXED, gRate := s.rg R.PACER_GUARD_G_RATE, mask := s.rg R.LANE_CTL_MASK }
  let h := if h.radio then { h with
    carRec := (s.carrier h.carrier).rec_, slotStart := s.heatSlotAt h
    fwd := if s.flag R.BYK_FWD_EN h.carrier then some (s.rg R.BYK_FWD_FWD_DEV h.carrier) else none } else h
  { h with locs := (List.range (progTensors p.image).length).map (s.resolveTensor h) }

/-- The checks of HEAT_SUBMIT that answer BAD_FIELD (R183, R186, R188, R189, R207, R254, R547); `jobs` is the job list of a radio Heat where it could be
read. -/
def State.submitOk (s : State) (c : Cmd) (p : Prog) (h : Heat) (jobs : Option (List Byte)) : Bool :=
  let img := p.image
  rec16 h.desc 6 == rec16 img 28 && recF h.desc 48 27 5 == 0 && bindsOk h.binds (rec16 img 28) && s.bindsReach c.user img h.binds &&
    s.fieldOk c false h.report 64 true && s.actsOk p h.desc && s.syncOk img h &&
    (!h.radio || (s.radioOk img h && (jobs.isNone || s.jobListOk h (jobs.getD []))))

/-- The checks of HEAT_SUBMIT in the order of R19, and the admission. -/
def State.submit (s : State) (c : Cmd) (desc : List Byte) (binds : List (List Byte)) : State :=
  match s.prog? (rec32 desc 0) with
  | none => s.fin c Sc.badField
  | some p =>
    let img := p.image
    let h := s.heatOf c p desc binds
    let x := if h.radio then s.jobList binds else (some [], s)
    let s := x.2
    let b := x.1.getD []
    s.check c (s.submitOk c p h x.1) (fun s =>
      if !p.ready then s.fin c Sc.notReady
      else match s.freeSlot h.radio with
        | none => s.fin c Sc.notReady
        | some slot =>
          if p.user ≠ c.user || (h.radio && c.user ≠ 0) then s.fin c 0x0100
          else match (List.range (progLanes img)).findSome? (fun v => (fenceBreak h img s.dev v).map (fun i => (v, i))) with
            | some (v, i) => ((s.incRg R.SYN_CNT_FENCE_REQ).ev .SYN_FENCE_REQ 255 [p.handle, v, i]).fin c Sc.fenceRequired
            | none =>
              if x.1.isNone then s.fin c Sc.dataLost
              else if !h.radio && !(s.barred p).isEmpty then s.fin c Sc.aborted
              else
                let y := s.takeActs slot desc (activations img) []
                let cr := (s.carrier h.carrier).rec_
                let srcs := srcHandles cr (s.pclass (cTbClass cr)).size b
                let h := { h with acts := y.2.1, jobs := if h.radio then (jobRecs b).zipIdx.map (fun r =>
                  ({ rec_ := r.1, bufs := if h.downlink then srcs.getD r.2 [] else [] } : Job)) else [] }
                if y.1 = Sc.ok then y.2.2.placeHeat slot p h false
                else if h.radio then y.2.2.placeHeat slot p h true
                else y.2.2.fin c y.1)

/-- HEAT_SUBMIT (R489): the descriptor's header, then its bindings, are read once; a descriptor in host memory takes two reads unless the first
brings it whole, the second for what the first left. -/
def execHeatSubmit (ring : Fin 64) (cid : Fin 65536) (d : HostData) (s : State) : Host.Outcome State Fault Refusal :=
  .next (s.start ring cid 0x0F (fun c s =>
    let a := c.arg 8 0 64
    let hb := c.arg 16 0 1 == 1
    let len (b : List Byte) : Nat := 64 + 16 * min (rec16 b 6) 64
    let run (b : List Byte) (s : State) : State := s.submit c (b.take 64) (recordsOf 16 (slice b 64 (len b - 64)))
    s.check c (c.only [(8, 0, 64), (16, 0, 1)]) (fun s =>
      if !s.fieldOk c hb a 64 false then s.fin c Sc.badField
      else if hb || inWindows a 64 then
        let bus := if hb then a else (s.windowBus c.user a 1).getD 0
        let n := match c.rdata, d with
          | some b, _ => if 64 ≤ b.length then len b else 64
          | none, .got b => len b
          | none, _ => 64
        if !s.fieldOk c hb a n false then s.fin c Sc.badField
        else match s.hostRead c bus n d with
          | (some b, s) => run (fitBytes n b) s
          | (none, s) => s
      else match s.readMem a 64 with
        | (none, s) => s.fin c Sc.hostReadTimeout
        | (some b, s) =>
          if !s.fieldOk c hb a (len b) false then s.fin c Sc.badField
          else match s.readMem a (len b) with
            | (some b, s) => run b s
            | (none, s) => s.fin c Sc.hostReadTimeout)))

/-! ## CANCEL and the host streams (R490 to R493) -/

/-- The command in flight that a CANCEL or STREAM_RELEASE names, of the same user. -/
def State.target (s : State) (c : Cmd) (k : Option Cmd → State → State) : State :=
  let n := c.arg 8 0 6
  if (s.ring n).st != .absent && (s.ring n).owner != c.user then s.fin c 0x0100 else k (s.cmd? n (c.arg 10 0 16)) s

/-- CANCEL. -/
def execCancel (ring : Fin 64) (cid : Fin 65536) (s : State) : Host.Outcome State Fault Refusal :=
  .next (s.start ring cid 0x10 (fun c s =>
    s.check c (c.only [(8, 0, 6), (10, 0, 16)]) (fun s => s.target c (fun t s =>
      match t with
      | none => s.fin c Sc.ok 1
      | some t =>
        if t.opcode = 0x0F then
          match s.heatList.find? (fun p => p.2.ring == t.ring && p.2.cid == t.cid && !p.2.silent) with
          | some (slot, h) =>
            if h.live then
              let r := s.cancelHeat slot
              r.2.fin c Sc.ok (if r.1 then 0 else 2)
            else s.fin c Sc.ok 1
          | none => (s.fin t Sc.aborted).fin c Sc.ok
        else if t.opcode = 0x11 || t.opcode = 0x12 then
          match s.xfers.find? (fun x => x.issuer == .cmd t.ring t.cid) with
          | some x => (s.abortXfer x.id).fin c Sc.ok
          | none => (s.fin t Sc.aborted).fin c Sc.ok
        else s.fin c Sc.ok 3))))

/-- STREAM_COPY: the transfer runs on engine 8 and completes the command when it is DONE. -/
def execStreamCopy (ring : Fin 64) (cid : Fin 65536) (d : HostData) (s : State) : Host.Outcome State Fault Refusal :=
  .next (s.start ring cid 0x11 (fun c s =>
    let tok := c.arg 16 0 64
    let th := c.arg 24 1 1 == 1
    s.check c (c.only [(8, 0, 64), (16, 0, 64), (24, 0, 2)]) (fun s =>
      s.withRecord c (c.arg 24 0 1 == 1) (c.arg 8 0 64) 64 d (fun b s =>
        s.check c (dKind b == 0 && !(dPair b && tok == 0) &&
            (tok == 0 || s.fieldOk c th tok (if dPair b then 48 else 16) true)) (fun s =>
          if (dSrcGlobal b || dDstGlobal b) && c.user ≠ 0 then s.fin c 0x0100
          else s.issueXfer 8 c.user (.cmd c.ring c.cid) false b (if tok = 0 then none else some (th, tok)))))))

/-- STREAM_FILL: a repeated pattern written to a local range. -/
def execStreamFill (ring : Fin 64) (cid : Fin 65536) (s : State) : Host.Outcome State Fault Refusal :=
  .next (s.start ring cid 0x12 (fun c s =>
    let dst := c.arg 8 0 64
    let n := c.arg 16 0 32
    let w := c.arg 20 0 8
    let pat := leBytes w (c.arg 24 0 64)
    s.check c (c.only [(8, 0, 64), (16, 0, 32), (20, 0, 8), (24, 0, 64)] && [1, 2, 4, 8].contains w && n != 0 && n % w == 0 && dst % w == 0 &&
        s.fieldOk c false dst n true) (fun s =>
      (s.deliver c.user dst ((List.range (n / w)).flatMap (fun _ => pat))).fin c Sc.ok)))

/-- STREAM_RELEASE. -/
def execStreamRelease (ring : Fin 64) (cid : Fin 65536) (s : State) : Host.Outcome State Fault Refusal :=
  .next (s.start ring cid 0x13 (fun c s =>
    s.check c (c.only [(8, 0, 6), (10, 0, 16), (12, 0, 1)]) (fun s => s.target c (fun t s =>
      match t.bind (fun t => s.xfers.find? (fun x => x.issuer == .cmd t.ring t.cid && dPair x.desc)) with
      | some x =>
        let r := s.releaseHalf x.id (c.arg 12 0 1)
        r.2.fin c Sc.ok
      | none => s.fin c Sc.ok 1))))

end Sys2Proof.Machine
end

