-- ==== Sys2Proof/Machine/Reset.lean ====
section
/-! DEFINITION. Resets (R634 to R639, R464, R465), the Heats that a reset waits for, the straps and boundary scan. -/

namespace Sys2Proof.Machine

/-! ## Autonomous PON activation (R648 to R650) -/

/-- The PON record that the board record holds for a port. -/
def State.boardPon (s : State) (p : Nat) : List Byte := slice s.boot.rec_ (16 + 128 * p) 128

/-- Whether a port is activated autonomously. -/
def State.autoPort (s : State) (p : Nat) : Bool :=
  let r := s.boardPon p
  (s.rg R.RST_STRAP_STRAPS).testBit (14 + p) && s.flashFitted && s.boot.recCode == 0 && recF r 0 0 2 != 0 && recF r 0 2 1 == 1 && ponRecOk r

/-- Autonomous activation: the record applied as a completed PON_CONFIG would, and OMCI entries 0 and 1. -/
def State.ponAuto (s : State) : State :=
  [0, 1].foldl (fun (s : State) p =>
    if s.autoPort p then
      let s := s.ponConfig p (s.boardPon p)
      let e (up : Bool) : XgemEntry := { valid := true, up := up, portId := 65536, ring := 1 }
      let s := s.modPort p (fun x => { x with xgem := Store.put {} (Store.put {} x.xgem 0 (e false)) 1 (e true), auto := [0, 1], holding := true })
      (s.setRg (if p = 0 then R.RST_STAT_AUTO_A else R.RST_STAT_AUTO_B) 1).ev .PON_AUTO p
    else s) s

/-! ## Hot reset, soft reset and FLR of user 0 (R635) -/

/-- What waits for the radio Heats of a reset: carriers off, then the reset's own scope (steps 4 to 7). -/
def State.resetRest (s : State) : State :=
  match s.boot.reset with
  | none => s
  | some (_, kind) =>
    if s.heatList.any (fun p => p.2.live) then s
    else
      let s := s.carriersOff
      if kind = 5 then
        let s : State := { s with boot := { s.boot with reset := none } }
        let s := (List.range 8).foldl (fun s n => if s.flag R.LANE_STAT_HELD n then s.laneReset n else s) s
        let s := (s.dropRings (fun _ => true)).resetUsers
        if s.boot.up then s.ponAuto else s
      else
        let s := s.wipe (if kind = 3 then .hot else .soft)
        ({ s with boot := { s.boot with started := setBit s.boot.started kind } } : State).setRg R.RST_STAT_IN_RESET 1

/-- A hot reset (3), soft reset (4) or FLR of user 0 (5) starts; of two together the wider applies. -/
def State.startReset (s : State) (kind : Nat) : State :=
  let s := s.putRgBit R.RST_CAUSE_CAUSE kind true
  let s := if kind ≤ 4 then (s.incRg R.RST_COUNT_HOT_SOFT).setRg R.RST_STAT_IN_RESET 1 else s
  let s : State := match s.boot.reset with
    | some (t, k) => { s with boot := { s.boot with reset := some (t, min k kind) } }
    | none =>
      let s := s.resetSteps
      { s with boot := { s.boot with reset := some (s.tk.localNs, kind) } }
  let s : State := if kind = 4 then s
    else { s with host := { s.host with
      fns := Vector.replicate 8 {}, vfEn := false, mrrs := 512, cto := 0, linkUp := kind == 5 && s.host.linkUp } }
  s.resetRest

/-- Whether VCORE runs with nothing that keeps a reset from reaching the core. -/
def State.resetReaches (s : State) : Bool := s.vcoreOn && !s.pst.bench && s.boot.stop.isNone && !s.boot.perst

/-- HOT_RESET (R635). -/
def execHotReset (s : State) : Host.Outcome State Fault Refusal := .next (if s.resetReaches then s.startReset 3 else s)

/-- SOFT_RESET (R638): a write of RST_CTL.SOFT by a function. -/
def State.softReset (s : State) (fn : Nat) : State :=
  if s.resetReaches && fn == 0 && !s.flag R.RST_STAT_IN_RESET && !s.host.crs then s.startReset 4 else s

def execSoftReset (fn : Fin 8) (s : State) : Host.Outcome State Fault Refusal := .next (s.softReset fn)

/-- FLR (R465). -/
def execFlr (u : Fin 8) (s : State) : Host.Outcome State Fault Refusal :=
  .next (if !s.resetReaches then s else if u = 0 then s.startReset 5 else if s.host.vfEn then s.flrUser u else s)

/-- VF_ENABLE_CLEAR (R465). -/
def execVfEnableClear (s : State) : Host.Outcome State Fault Refusal :=
  .next (if s.host.vfEn then
      let s := [1, 2, 3, 4, 5, 6, 7].foldl (fun (s : State) u => s.flrUser u) s
      { s with host := { s.host with vfEn := false } }
    else s)

/-- LINK_HOLD_EXPIRY (R464): a function's Bus Master Enable has not been set again in time. -/
def execLinkHoldExpiry (fn : Fin 8) (s : State) : Host.Outcome State Fault Refusal :=
  match (vget s.host.fns fn).downAt with
  | none => .next s
  | some t =>
    let k := s.rg R.HQ_CTL_LINK_HOLD
    let s := s.since t ((if k = 0 then 10 else k) * 10000000)
    .next (if !s.resetReaches then s else if fn = 0 then s.startReset 3 else s.flrUser fn)

/-- HOT_RESET_HEAT_DEADLINE (R635): 100 ms after the reset; radio Heats that still run commit SLOT_MISSED. -/
def execHotResetHeatDeadline (s : State) : Host.Outcome State Fault Refusal :=
  match s.boot.reset with
  | none => .next s
  | some (t, _) =>
    let s := s.since t 100000000
    .next ((s.heatList.foldl (fun s p => if p.2.live then s.missHeat p.1 else s) s).resetRest)

/-- FINISH_LINE_REACHED (R271, R276, R199). -/
def execFinishLineReached (slot : Fin 32) (s : State) : Host.Outcome State Fault Refusal := .next (s.finishLine slot).resetRest

/-- HEAT_COMMIT (R191, R194): every tap decided, every token final, all work done. -/
def execHeatCommit (slot : Fin 32) (s : State) : Host.Outcome State Fault Refusal :=
  match s.heat slot with
  | some h => .next (
    if h.radio && h.live && decide (h.finish < s.tk.ns) then s.finishLine slot
    else if h.st = .running && s.heatDone slot h then s.commitHeat slot h.endStatus else s).resetRest
  | none => .next s

/-! ## Cold start, board reset and PERST_N (R636) -/

/-- COLD_START (R590, R634): power-on reset release. Everything but the boot flash starts afresh; VIO18 is raised. -/
def execColdStart (s : State) : Host.Outcome State Fault Refusal :=
  let t : State := { pending := s.pending, out := s.out, free := s.free, flash := s.flash }
  let t := (t.setRg R.ID_DIE_DIE_ID Config.dieId).setRg R.ID_REV_ORDER (Config.orderFuse % 2)
  let t := (t.newBykEpoch.quiet).setRg R.RST_CAUSE_CAUSE 1
  .next (({ t with boot := { t.boot with started := 1 } } : State).raise 0)

/-- VAON_LOSS (Table PST-2): Off; only the boot flash keeps anything. -/
def execVaonLoss (s : State) : Host.Outcome State Fault Refusal :=
  .next { pending := s.pending, out := s.out, free := s.free, flash := s.flash, pst := { off := true } }

/-- The straps latched (R640, Table RST-3); VR_PH at a cold start only. -/
def State.latchStraps (s : State) (w : Nat) (cold : Bool) : State :=
  let ph := if cold then bitsOf w 6 4 else bitsOf (s.rg R.RST_STRAP_STRAPS) 6 4
  let w := bitsOf w 0 6 + ph * 2 ^ 6 + bitsOf w 10 7 * 2 ^ 10
  let s := (s.setRg R.RST_STRAP_STRAPS w).setRg R.BYK_STAT_DEV (bitsOf w 0 6)
  let s := (s.setRg R.ID_FMT_DEV (bitsOf w 0 6)).setRg R.SMI_CTL_ADDR (0x58 + bitsOf w 10 2)
  let s := if cold then s.setRg R.VRC_CFG_PH_CNT ph else s
  { s with boot := { s.boot with latched := true } }

/-- STRAP_LATCH (R640): 100 µs after VIO18 is good, at a cold start or the restart after power failure. -/
def execStrapLatch (pins : BitVec 17) (s : State) : Host.Outcome State Fault Refusal :=
  .next (if s.rgBit R.PWR_RAIL_OK 0 && !s.boot.latched && s.boot.started &&& 0x81 != 0 then
    s.latchStraps pins.toNat (s.boot.started.testBit 0) else s)

/-- BOARD_RESET (R634, R636): SYS_RST_N low; held until its deassertion. -/
def execBoardReset (s : State) : Host.Outcome State Fault Refusal :=
  if s.pst.off || s.boot.sysRst || (!s.boot.latched && s.pwr.seq == .off) then .next s
  else
    let cold := s.boot.started % 2
    let s := ((s.cutStop.quiet.vcoreDown).wipe .board).derateClear
    .next ({ s with
      boot := { s.boot with sysRst := true, started := cold + 2 }, pst := { s.pst with bench := false } }.setRg R.RST_CAUSE_CAUSE (cold + 2))

/-- SYS_RST_N_DEASSERT (R634, R640, R656): straps latched again, VCORE started, or the rails raised where they are off. -/
def execSysRstNDeassert (pins : BitVec 17) (s : State) : Host.Outcome State Fault Refusal :=
  if !s.boot.sysRst then .next s
  else
    let s : State := { s with boot := { s.boot with sysRst := false } }
    let s := if s.boot.latched then s.latchStraps pins.toNat false else s
    .next (if s.pwr.failStage != 0 then s
      else match s.pwr.seq with
        | .on => if s.rg R.VRC_FLT_STATE = 0 then s.vcoreStart else s
        | .raising r => if r = 5 && s.rg R.VRC_FLT_STATE == 0 then s.vcoreStart else s
        | .waiting => s
        | .off | .lowering | .held => ({ s with pwr := { s.pwr with tries := 0 } } : State).raise 0)

/-- What PERST_N resets (R636). -/
def State.perstReset (s : State) : State :=
  let s := (s.quiet.wipe .perst).setRg R.MEM_STAT_TRAINED 0
  ({ s with
    boot := { s.boot with started := setBit s.boot.started 2 }, pst := { s.pst with bench := false } } : State).putRgBit R.RST_CAUSE_CAUSE 2 true

/-- PERST_N (R621, R636): with VCORE off at start-up, or in a fatal stop, only the link is held. -/
def execPerstN (s : State) : Host.Outcome State Fault Refusal :=
  if s.pst.off || s.boot.perst then .next s
  else
    let s : State := { s with boot := { s.boot with perst := true }, host := { s.host with linkUp := false } }
    .next (if s.pst.bench then (if s.rg R.VRC_FLT_STATE = 0 then s.benchOut else s).perstReset
      else if s.vcoreOn && s.boot.stop.isNone then s.perstReset
      else s)

/-- PERST_N_DEASSERT (R621, R646): WAKE_N is released. -/
def execPerstNDeassert (s : State) : Host.Outcome State Fault Refusal :=
  let s : State := { s with boot := { s.boot with perst := false } }
  .next (if s.pst.wakeN then { s with pst := { s.pst with wakeN := false } }.emit (.port "wake_n" 0 [1]) else s)

/-- BOUNDARY_SCAN_INSTRUCTION (R702): 0 BYPASS, 1 SAMPLE/PRELOAD, 2 EXTEST, 3 IDCODE, 4 CLAMP, 5 HIGHZ; none while TRST_N holds the test logic in
reset. -/
def execBoundaryScanInstruction (i : Option (Fin 6)) (s : State) : Host.Outcome State Fault Refusal :=
  let s : State := { s with boot := { s.boot with tap := i.map (·.val) } }
  .next (match i with
    | none => s.emit (.port "tap_reset" 0 [])
    | some k => if k = 3 then s.emit (.port "tdo" 0 [0x1B8A_856F]) else if 2 ≤ k.val then s.emit (.port "tap" k []) else s)

end Sys2Proof.Machine
end

