-- ==== Sys2Proof/Machine/Start.lean ====
section
/-! DEFINITION. The Marshal's start (R637, R643 to R650, R656, R666, R670, R671, R675, R676) and the end of the first second. -/

namespace Sys2Proof.Machine

/-! ## The log and the black box -/

/-- A Photo-finish record read back (Table FLT-4). -/
def logRecOf (num : Nat) (b : List Byte) : LogRec :=
  ⟨num, rec64 b 0, rec16 b 8, rec8 b 10, rec8 b 11, (List.range 5).map (fun i => rec32 b (12 + 4 * i))⟩

/-- After a cold start the newest valid black-box slot goes back into the log (R671). -/
def State.restoreBb (s : State) : State :=
  match if s.flashFitted then newerSlot s.flash.bb else none with
  | some k =>
    let x := vget s.flash.bb k
    let first := rec32 x.hdr 16
    let n := x.body.length / 32
    let rs := (List.range n).map (fun i => logRecOf ((first + i) % 2 ^ 32) (slice x.body (32 * i) 32))
    let s : State := { s with log := { s.log with recs := rs, next := (first + n) % 2 ^ 32 } }
    s.ev .BB_RESTORED 255 [k, rec32 x.hdr 8, rec8 x.hdr 5]
  | none => s

/-- The log thawed once the commit has ended or been skipped (R666). -/
def State.thaw (s : State) : State :=
  if s.flag R.FLT_STAT_FROZEN && s.boot.bb.isNone then
    let n := s.log.missed
    ({ s.setRg R.FLT_STAT_FROZEN 0 with log := { s.log with missed := 0 } }).ev .LOG_THAW 255 [n]
  else s

/-- The record of an emergency order reported (R611). -/
def State.sayEmergency (s : State) : State :=
  match s.pwr.emerg with
  | some (rail, st) =>
    let s := (s.setRg R.PWR_RAIL_PRIOR_EMERG 1).setRg R.PWR_RAIL_PRIOR_RAIL (2 ^ rail)
    ({ s with pwr := { s.pwr with emerg := none } } : State).ev .PWR_EMERG_PRIOR 255 [rail, st]
  | none => s

/-- A skipped commit reported, then the spare slot erased and armed (R670). -/
def State.armBb (s : State) : State :=
  let s := match s.boot.skipped with
    | some (slot, seq, kind) => ({ s with boot := { s.boot with skipped := none } } : State).ev .BB_SKIPPED 255 [slot, seq, kind]
    | none => s
  if s.flashFitted && s.boot.bb.isNone then
    let s := match newerSlot s.flash.bb with
      | some k => s.setRg R.BB_SEQ_SEQ (rec32 (vget s.flash.bb k).hdr 8)
      | none => s
    { s with flash := { s.flash with bb := vset s.flash.bb (nextCommit s.flash.bb).2 {} } }.setRg R.FLT_STAT_BB_ARMED 1
  else s

/-- The dump of the last fatal stop reported (R656, Table FLT-6). -/
def State.sayDump (s : State) : State :=
  if s.boot.dumpSay then
    let v := s.rg R.FLT_STAT_DUMP
    let s : State := { s with boot := { s.boot with dumpSay := false } }
    let a := [if v = 1 || (v = 3 && s.boot.dumpStatus != 0) then 0 else 1, s.boot.dumpSize, s.boot.dumpStatus]
    if v = 1 || v = 2 then s.ev .DUMP_DONE 255 a else if v = 3 then s.ev .DUMP_FAIL 255 a else s
  else s

/-! ## The ROM patch table (R675, R676) -/

/-- Whether a slot's header is valid. -/
def patchHead (b : List Byte) : Bool := rec32 b 0 == 0x5450_4B42 && rec32 b 8 == crc32 (b.take 8 ++ slice b 12 52)

/-- The slot that is loaded. -/
def patchPick (a b : List Byte) : Option Nat :=
  match patchHead a, patchHead b with
  | true, true => if serialAhead (rec32 b 4) (rec32 a 4) 32 then some 1 else some 0
  | true, false => some 0
  | false, true => some 1
  | false, false => none

/-- One entry: its PATCH_STATUS form (R494), and why it is rejected, 0 if it is not (1 signature, 2 CRC, 3 edition). -/
def patchEntry (e : List Byte) : List Byte × Nat :=
  let present := rec8 e 0 == 0xA5
  let body := slice e 16 (rec16 e 6)
  let crcOk := decide (rec16 e 6 ≤ 880) && crc32 body == rec32 e 8
  let sigOk := Config.ecdsaOk (e.take 896) (slice e 896 96)
  let ok := present && sigOk && crcOk
  let active := ok && rec16 e 4 == 0x0401
  if present then
    (leBytes 2 (1 + (if ok then 2 else 0) + (if active then 4 else 0)) ++ slice e 2 2 ++ slice e 8 4,
      if !sigOk then 1 else if !crcOk then 2 else if !active then 3 else 0)
  else (leBytes 8 0, 0)

/-- The patch table loaded with BOOT_SRC 0 from the two slots of the flash. -/
def State.loadPatches (s : State) (slot0 slot1 : List Byte) : State :=
  match if bitsOf (s.rg R.RST_STRAP_STRAPS) 12 2 = 0 then patchPick slot0 slot1 else none with
  | some k =>
    let b := fitBytes 65536 (if k = 0 then slot0 else slot1)
    let es := (List.range 64).map (fun i => patchEntry (slice b (64 + 1008 * i) 1008))
    let s : State := { s with patchSlot := k, patches := es.map (·.1) }
    (es.zipIdx).foldl (fun (s : State) x =>
      if x.1.2 = 0 then s else s.ev .PATCH_REJECT 255 [x.2, rec16 x.1.1 2, x.1.2]) s
  | none => { s with patchSlot := 255, patches := List.replicate 64 (leBytes 8 0) }

/-! ## The board record (R643, R644) -/

/-- Whether a register's word has no bit set outside its fields. -/
def wordOk (off v : Nat) : Bool :=
  v == ((fieldsAt off).foldl (fun m x => m + (bitsOf v x.1.lsb x.1.width) * 2 ^ x.1.lsb) 0)

/-- Whether a board record is valid. -/
def boardOk (r : List Byte) : Bool :=
  let tk := rec32 r 280
  rec32 r 0 == 0x5242_5244 && rec16 r 4 == 1 && rec16 r 6 == 512 && rec32 r 508 == crc32 (r.take 508) && recF r 8 6 10 == 0 &&
    decide (recF r 8 2 3 ≤ 4) && decide (80 ≤ rec16 r 10) && decide (rec16 r 10 ≤ 340) && decide (10 ≤ recF r 12 2 6) &&
    decide (20 ≤ recF r 13 0 7) && decide (recF r 13 0 7 ≤ 110) && recF r 13 7 1 == 0 && rec16 r 14 == 0 &&
    ponRecOk (slice r 16 128) && ponRecOk (slice r 144 128) && wordOk 0x4000 (rec32 r 272) && wordOk 0x4004 (rec32 r 276) &&
    wordOk 0x1830 tk && decide (bitsOf tk 0 4 ≤ 4) && decide (bitsOf tk 4 4 ≤ 4) && decide (bitsOf tk 8 4 ≤ 4) && bitsOf tk 17 2 != 3 &&
    zeroAt r 284 224

/-- The record read from the flash into the held copy; none is an absent record. -/
def State.readRecord (s : State) (r : Option (List Byte)) : State :=
  match if s.flashFitted then r else none with
  | none => { s with boot := { s.boot with rec_ := [], recCode := 1 } }
  | some b =>
    let b := fitBytes 512 b
    if boardOk b then { s with boot := { s.boot with rec_ := b, recCode := 0 } }
    else ({ s with boot := { s.boot with rec_ := [], recCode := 2 } } : State).ev .BOOT_RECORD_BAD

/-- A record's word put into the RW fields of a register. -/
def State.loadWord (s : State) (off v : Nat) : State :=
  ((fieldsAt off).filter (fun x => x.1.acc == .rw)).foldl (fun s x =>
    s.setRg x.1 (s.fieldValue x.1 (bitsOf v x.1.lsb x.1.width)) x.2) s

/-- A valid record applied after a start of the given kinds (R644). -/
def State.applyRecord (s : State) (cold held : Bool) : State :=
  let r := s.boot.rec_
  let s := s.setRg R.RST_BOOT_REC s.boot.recCode
  let s := if cold && s.boot.recCode == 0 then
      ((s.setRg R.VRC_CFG_FSW (recF r 12 0 2)).setRg R.VRC_CFG_PH_RATED (recF r 12 2 6)).setRg R.VRC_LIM_ICC_MAX (recF r 13 0 7)
    else s
  let s := if held && s.boot.recCode == 0 then
      (((s.setRg R.PWR_CAP_CAP (rec16 r 10)).loadWord 0x4000 (rec32 r 272)).loadWord 0x4004 (rec32 r 276)).loadWord 0x1830 (rec32 r 280)
    else s
  if cold then s.setRg R.VRC_CFG_LATCH 1 else s

/-! ## Starts -/

/-- Byklink ports that are enabled and rest start to train (Table RST-8). -/
def State.trainPorts (s : State) : State :=
  (List.range 4).foldl (fun s q =>
    if s.rgBit R.BYK_CTL_PORT_EN q && s.rg R.BYK_PORT_STATE q == 0 && (s.neighbour q).isSome then (s.portTo q 1).setRg R.BYK_PORT_CAUSE 0 q
    else s) s

/-- The end of a Bench exit (R623): Pace, EV_PST_EXIT, and a Locker that failed its check reported. -/
def State.benchBack (s : State) (bad : Bool) : State :=
  let s := (s.ev .PST_EXIT 255 [s.rg R.PST_STAT_CAUSE]).setRg R.PST_STAT_WAKE_PEND 0
  let s := if bad then s.ev .LOCKER_BAD else s
  let s : State := { s with host := { s.host with l1 := if s.host.l1 = 3 then 3 else 0 } }
  s.pstSay 1

/-- A start from ROM for the reasons in `k` (bits of RST_CAUSE; 256 a Bench exit, 512 with a bad Locker). -/
def State.romStart (s : State) (k : Nat) (record : Option (List Byte)) (slot0 slot1 : List Byte) : State :=
  let bench := k.testBit 8
  let reset := k % 256 != 0
  let first := k &&& 0x87 != 0
  let s := (if k.testBit 0 then s.restoreBb else s).thaw
  let s := if reset then s.ev .RESET 255 [s.rg R.RST_CAUSE_CAUSE] else s
  let s := (s.sayEmergency.armBb.sayDump).loadPatches slot0 slot1
  let s := if k &&& 0x83 != 0 then s.readRecord record else s
  let s := (s.applyRecord (k.testBit 0) first).loadFlags
  let s : State := { s with
    pacer := { s.pacer with capW := s.rg R.PWR_CAP_CAP, ceilRace := s.rg R.PACER_CTL_CEIL_RACE, ceilPace := s.rg R.PACER_CTL_CEIL_PACE }
    boot := { s.boot with up := true, started := 0 }, pst := { s.pst with bench := false }, host := { s.host with crs := false } }
  let s := s.setRg R.RST_STAT_IN_RESET 0
  let s := s.pstRun (if bench || s.flag R.PST_STAT_FORCED then 1 else 0)
  let s := if bench then s.benchBack (k.testBit 9) else s
  let s := if reset then s.ponAuto else s
  let s := s.trainPorts
  if first then s else ((s.setRg R.RST_STAT_READY 1).setRg R.BYK_CFG_READY 1).helloAll

/-! ## The warm restart (R637) -/

/-- The output bindings of a Heat hold free values (R200). -/
def State.loseOutputs (s : State) (h : Heat) : State :=
  ((progTensors (s.imageOf h)).zipIdx.filter (fun t => recF t.1 0 0 3 == 2 &&
      h.binds.any (fun b => rec16 b 0 == rec16 t.1 2 && rec8 b 3 == 1))).foldl (fun s t =>
    (h.tensorLoc t.2).foldl (fun s l =>
      let x := s.lostBytes l.2
      x.2.write l.1 x.1) s) s

/-- Heats not committed end: a radio Heat whose first sample has been received with SLOT_MISSED, another with RESET_LOST (R200). -/
def State.warmHeats (s : State) : State :=
  s.heatList.foldl (fun s p =>
    if !p.2.live then s
    else if p.2.radio && p.2.firstSample then s.missHeat p.1
    else (((s.abortHeatXfers p.1).tapsNorun p.1).loseOutputs p.2).commitHeat p.1 Sc.resetLost) s

/-- Commands in flight before their commit point complete with RESET_LOST (R496, R535); a PON_SEND that its port has taken goes on. -/
def State.warmCmds (s : State) : State :=
  let lost := s.host.cmds.filter (fun c => !c.done && !(c.opcode == 0x52 && c.started))
  let named (r k : Nat) : Bool := lost.any (fun c => c.ring == r && c.cid == k)
  let xs := s.xfers.filter (fun x => match x.issuer with | .cmd r k => named r k | _ => false)
  let s : State := { s with xfers := s.xfers.filter (fun x => !xs.any (fun y => y.id == x.id)) }
  let s := xs.foldl (fun s x => s.loseDst x) s
  let s : State := { s with
    coding := { s.coding with polar := s.coding.polar.filter (fun q => !named q.ring q.cid) }
    cipher := { s.cipher with jobs := s.cipher.jobs.filter (fun j => !named j.1 j.2.1) }
    cmdTokens := s.cmdTokens.filter (fun p => !named (p.1 / 65536) (p.1 % 65536))
    ports := s.ports.map (fun x => { x with xgemPend := x.xgemPend.filter (fun y => !named y.2.2.1 y.2.2.2) })
    host := { s.host with rings := s.host.rings.map (fun r =>
      if r.deleters.any (fun d => named d.1 d.2) then { r with st := if r.st = .draining then .active else r.st, deleters := [] } else r) }
    radio := { s.radio with carriers := s.radio.carriers.map (fun k => { k with
      pend := k.pend.filter (fun p => !named p.1 p.2.1), upds := k.upds.filter (fun x => !named x.ring x.cid) }) }
    pst := { s.pst with req := none } }
  let s := s.setRg R.PST_STAT_ENTRY_PEND 0
  lost.foldl (fun s c => s.complete c.ring c.cid Sc.resetLost) s

/-- An optic's ledger goes on from the last record written. -/
def State.warmLedgers (s : State) : State :=
  [0, 1].foldl (fun (s : State) p =>
    let o := s.optic p
    if o.ledger.isEmpty then s
    else match s.mirrorOf o.ident, o.newerRec with
      | some r, _ => s.modOptic p (fun o => { o with ledger := r })
      | none, some r => s.modOptic p (fun o => { o with ledger := r })
      | none, none => s) s

/-- A PLOAM held during the restart, handled now. -/
def State.replayPloam (s : State) (i : Instr) : State :=
  let r : Host.Outcome State Fault Refusal := match i with
    | .ploamBurstProfile p index profile msg => execPloamBurstProfile p index profile msg s
    | .ploamAssignOnuId p onu serial msg => execPloamAssignOnuId p onu serial msg s
    | .ploamRangingTime p eqd msg => execPloamRangingTime p eqd msg s
    | .ploamDeactivateOnuId p onu msg => execPloamDeactivateOnuId p onu msg s
    | .ploamDisableSerialNumber p disable serial msg => execPloamDisableSerialNumber p disable serial msg s
    | .ploamRequestRegistration p msg => execPloamRequestRegistration p msg s
    | .ploamAssignAllocId p alloc add msg => execPloamAssignAllocId p alloc add msg s
    | .ploamKeyControl p index confirm at_ msg => execPloamKeyControl p index confirm at_ msg s
    | .ploamSleepAllow p on msg => execPloamSleepAllow p on msg s
    | .ploamChangePowerLevel p level msg => execPloamChangePowerLevel p level msg s
    | .ploamPowerConsumptionInquire p msg => execPloamPowerConsumptionInquire p msg s
    | .ploamUnsupported p msg => execPloamUnsupported p msg s
    | _ => .next s
  match r with
  | .next t => t
  | _ => s

/-- The warm restart done (R637). -/
def State.warmEnd (s : State) : State :=
  let s : State := { s with warm := false, boot := { s.boot with up := true } }
  let s := s.warmHeats.warmCmds
  let s := match s.cipher.holder with
    | some u => s.freeLock.ev .CIPH_LEASE u
    | none => s
  let s := ((s.warmLedgers.ev .WDOG_RESTART).incRg R.RST_COUNT_WDOG).incRg R.FLT_CNT_COVERED
  let held := [0, 1].flatMap (fun p => (s.port p).held)
  let s := [0, 1].foldl (fun (s : State) p => s.modPort p (fun x => { x with held := [] })) s
  held.foldl State.replayPloam s

/-! ## Rows -/

/-- Whether the Marshal may start from ROM: VCORE up, no reset held or running, and TEST_EN low (Table RST-3). -/
def State.mayBoot (s : State) : Bool :=
  !s.pst.off && s.boot.latched && !s.boot.sysRst && s.vcoreOn && s.pwr.hold.isNone && s.boot.reset.isNone &&
    !(s.rg R.RST_STRAP_STRAPS).testBit 16

/-- MARSHAL_START (R637, R644, R655): the Marshal's start from ROM after a reset or a Bench exit, the end of a warm restart, or the start in dump
mode. `record` is the board record in the flash (none where blank), `slot0` and `slot1` its patch slots. -/
def execMarshalStart (record : Option (List Byte)) (slot0 slot1 : List Byte) (s : State) : Host.Outcome State Fault Refusal :=
  .next (if !s.mayBoot then s
    else match s.boot.stop with
      | some x => if s.boot.dumpMode && !x.answered then s.stopAnswer else s
      | none =>
        if s.boot.started != 0 then
          let w := s.warm
          let s := ({ s with warm := false } : State).romStart s.boot.started record slot0 slot1
          if w then s.warmEnd else s
        else if s.warm then s.warmEnd
        else s)

/-- LPDDR_TRAINING_DONE (R151, Table RST-7): the result of training, and the end of the first second. -/
def execLpddrTrainingDone (ok : Bool) (s : State) : Host.Outcome State Fault Refusal :=
  .next (if !s.boot.up || s.flag R.MEM_STAT_TRAINED then s
    else
      let r := s.boot.rec_
      let rate := if s.boot.recCode = 0 then recF r 8 0 2 else 0
      let dens := [2, 3, 4, 6, 8].getD (recF r 8 2 3) 0
      let s := if rate = 0 then s else (s.setRg R.MEM_STAT_LP_RATE rate).setRg R.MEM_STAT_LP_RANKS2 (recF r 8 5 1)
      let s := if rate != 0 && ok then (s.setRg R.MEM_STAT_LP_MIB (dens * 3584)).setRg R.MEM_STAT_TRAINED 1 else s
      ((s.setRg R.RST_STAT_READY 1).setRg R.BYK_CFG_READY 1).helloAll)

end Sys2Proof.Machine
end

