-- ==== Sys2Proof/Machine/RegCmd.lean ====
section
/-! DEFINITION. BAR0 accesses (R437, R438, R679 to R690): writes of registers, split accesses to 64-bit registers, and INT_TEST. -/

namespace Sys2Proof.Machine

/-- Whether BAR0 answers a function: not in Bench nor before the Marshal is up (R629, Table RST-8), and with VCORE on. -/
def State.bar0Up (s : State) (fn : Nat) : Bool := !s.host.crs && !s.pst.bench && s.vcoreOn && s.fnUp fn

/-! ## Writes with an effect of their own -/

/-- A field's bits of a word replaced by its value in force, so that the rest of the write leaves it alone. -/
def State.keepField (s : State) (f : Fld) (i v : Nat) : Nat :=
  let m := 2 ^ f.width
  v - bitsOf v f.lsb f.width * 2 ^ f.lsb + s.rg f i % m * 2 ^ f.lsb

/-- INT_TEST (R688). -/
def State.intTest (s : State) (fn v : Nat) : State :=
  let sent := if fn = 0 then v == 0 || (decide (66 ≤ v) && decide (v ≤ 71)) else false
  let ring := decide (3 ≤ v) && decide (v ≤ 65) && (s.ring (v - 2)).st != .absent && (s.ring (v - 2)).owner == fn
  if v = 1 || sent || ring then s.vector fn v else s

/-- HQ_CTL: LINK_HOLD, and EN (R466). -/
def State.writeHqCtl (s : State) (v : Nat) : State :=
  let en := v.testBit R.HQ_CTL_EN.lsb
  let t := s.regWrite 0 0x0114 (s.keepField R.HQ_CTL_EN 0 v)
  if en == s.flag R.HQ_CTL_EN then t else t.hqEn en

/-- BYK_CTL: the topology, PORT_EN, TIME_OFFER (with a HELLO) and LINK_RST. -/
def State.writeBykCtl (s : State) (v : Nat) : State :=
  let t := s.regWrite 0 0x4000 (s.keepField R.BYK_CTL_PORT_EN 0 v)
  let t := if t.rg R.BYK_CTL_TIME_OFFER = s.rg R.BYK_CTL_TIME_OFFER then t else t.helloAll
  (List.range 4).foldl (fun t q =>
    let t := if v.testBit (12 + q) then t.portEnable q else t.portDisable q
    if v.testBit (20 + q) then t.linkRst q else t) t

/-- Flits per second that an isochronous channel takes at its carrier's shortest symbol, in units of 30,720,000 / 2,192 (R581). -/
def State.isoLoad (s : State) (n : Nat) : Nat :=
  (1 + ceilDiv (s.isoBytes n) 64) * 2 ^ recF (s.carrier (s.rg R.BYK_ISO_CARRIER n)).rec_ 0 0 2

/-- Whether channel `n` may be enabled: its port's load stays within half of 397.84 M flits/s (R581). -/
def State.isoFits (s : State) (n : Nat) : Bool :=
  let on (k : Nat) : Bool := k == n || (s.rg R.BYK_ISO_PORT k == s.rg R.BYK_ISO_PORT n && s.lastWritten R.BYK_ISO_EN k 0 == 1)
  decide ((((List.range 16).filter on).map s.isoLoad).sum * 30720000 ≤ 198920000 * 2192)

/-- The first word of BYK_ISO_n: its fields, then EN, which waits for a slot boundary (Table BYK-9). `match_` says whether SCS and FRAME_BYTES of the two
ends agree. -/
def State.writeIso (s : State) (n v : Nat) (match_ : Bool) : State :=
  let en := v % 2
  let s := s.regWrite 0 (0x4200 + 32 * n) (v - v % 2 + s.lastWritten R.BYK_ISO_EN n 0)
  if en = s.lastWritten R.BYK_ISO_EN n 0 then s
  else if en = 1 && !(match_ && s.isoFits n) then s.setRg R.BYK_CFG_CFG_REJ 1
  else s.setShadow R.BYK_ISO_EN n 0 en

/-- PACER_CTL: with EN cleared the setpoint goes to the base (Table HSF-6). -/
def State.writePacer (s : State) (v : Nat) : State :=
  let t := s.regWrite 0 0x1100 v
  if s.flag R.PACER_CTL_EN && !t.flag R.PACER_CTL_EN then
    if t.rg R.PACER_STAT_VSET < t.baseCode then t.setVset t.baseCode else t.lowerTo t.baseCode
  else t

/-- A whole aligned write of `v` to the register at an offset: of 32 bits, or of 64 to a 64-bit register. -/
def State.putWord (s : State) (fn off v : Nat) (match_ : Bool) : State :=
  let bit (k : Nat) : Bool := v.testBit k
  if off = 0x0114 then s.writeHqCtl v
  else if off = 0x0410 then (if bit 7 then s.intTest fn (v % 128) else s)
  else if off = 0x0800 then (if bit 0 then s.softReset fn else s)
  else if off = 0x0810 then (List.range 8).foldl (fun s n => if bit n then s.laneRst n else s) s
  else if off = 0x1100 then s.writePacer v
  else if 0x1850 ≤ off ∧ off < 0x1860 then
    let n := (off - 0x1850) / 4
    let s := s.regWrite fn off v
    if bit 2 then s.sysrefArm n else s
  else if off = 0x3780 then (s.regWrite fn off v).muteChange s.muted
  else if off = 0x3728 ∨ off = 0x3768 then
    -- RDI_SD is live
    let p := (off - 0x3728) / 64
    let t := s.regWrite fn off v
    t.setRg R.PON_DEF_RDI (if t.rdi p then 1 else 0) p
  else if off = 0x4000 then s.writeBykCtl v
  else if 0x4200 ≤ off ∧ off < 0x4400 ∧ off % 32 = 0 then s.writeIso ((off - 0x4200) / 32) v match_
  else if off = 0x8004 then
    let s := if bit 1 then s.lockRel fn else s
    if bit 0 then s.lockReq fn else s
  else if off = 0x8040 then s.keyCtl fn (v % 16) (bitsOf v 4 1) (bitsOf v 5 5) (bit 10) (bit 11)
  else if 0x2800 ≤ off ∧ off < 0x3000 then
    { s with pst := { s.pst with scratch := (List.range 4).foldl (fun m k =>
      Store.put 0 m (off - 0x2800 + k) (BitVec.ofNat 8 (v / 256 ^ k))) s.pst.scratch } }
  else s.regWrite fn off v

/-! ## Split accesses (R681) -/

/-- The register of 64 bits whose low word is at an offset, if there is one. -/
def wideAt (off : Nat) : Option (Fld × Nat) := (fieldsAt off).find? (fun x => decide (32 < x.1.width))

/-- A 32-bit write: the low word of a 64-bit register is held, and the whole applies with the high word. -/
def State.write32 (s : State) (fn off v : Nat) (match_ : Bool) : State :=
  if (wideAt off).isSome then { s with heldLow := Store.put (2 ^ 32) s.heldLow (fn * 65536 + off) v }
  else if 4 ≤ off ∧ (wideAt (off - 4)).isSome then
    let k := fn * 65536 + (off - 4)
    let low := Store.get (2 ^ 32) s.heldLow k
    let low := if low = 2 ^ 32 then s.regWord fn (off - 4) else low
    ({ s with heldLow := Store.put (2 ^ 32) s.heldLow k (2 ^ 32) } : State).putWord fn (off - 4) (low + v * 2 ^ 32) match_
  else s.putWord fn off v match_

/-- A 64-bit write: to a 64-bit register at once, else to its two words in order. -/
def State.write64 (s : State) (fn off v : Nat) (match_ : Bool) : State :=
  if (wideAt off).isSome then s.putWord fn off v match_
  else (s.write32 fn off (v % 2 ^ 32) match_).write32 fn (off + 4) (v / 2 ^ 32) match_

/-- REGISTER_WRITE (R438, R680, R683): an aligned write of BAR0 by a function, of 64 bits where `wide`. `isoMatch` says whether SCS and FRAME_BYTES of
the two ends agree, where the write enables an isochronous channel. -/
def execRegisterWrite (fn : Fin 8) (off : Fin 65536) (value : BitVec 64) (wide isoMatch : Bool) (s : State) : Host.Outcome State Fault Refusal :=
  let v := value.toNat
  .next (if !s.bar0Up fn || !s.seesOff fn off || off.val % (if wide then 8 else 4) != 0 then s
    else if wide then s.write64 fn off v isoMatch
    else s.write32 fn off (v % 2 ^ 32) isoMatch)

/-- A word of the Locker's save or scratch area (R624). -/
def State.lockerWord (s : State) (off : Nat) : Nat :=
  if off < 0x2800 then rec32 s.pst.locker (off - 0x2000)
  else ((List.range 4).map (fun k => (Store.get 0 s.pst.scratch (off - 0x2800 + k) : Byte).toNat * 256 ^ k)).sum

/-- REG64_LOW_READ (R681): a read of the low word of a 64-bit RO register latches its high word. -/
def execReg64LowRead (fn : Fin 8) (off : Fin 65536) (s : State) : Host.Outcome State Fault Refusal :=
  .next (if !s.bar0Up fn || off.val % 4 != 0 then { s with lastRead := 0 }
    else if 0x2000 ≤ off.val && decide (off.val < 0x3000) then
      { s with lastRead := if fn = 0 && s.seesOff 0 off then s.lockerWord off else 0 }
    else
      let w := s.readWord fn off
      let t : State := { s with lastRead := w }
      match wideAt off with
      | some x =>
        if x.1.acc == .ro then
          { t with latched := Store.put (2 ^ 32) t.latched (fn * 65536 + off) (s.readWord fn (off + 4)) }
        else t
      | none =>
        -- the high word of a 64-bit RO register that was latched
        let k := fn * 65536 + (off.val - 4)
        let h := Store.get (2 ^ 32) s.latched k
        if 4 ≤ off.val && (wideAt (off - 4)).isSome && h != 2 ^ 32 then
          { s with lastRead := h, latched := Store.put (2 ^ 32) s.latched k (2 ^ 32) }
        else t)

/-- INT_TEST (R688): a write of the function's INT_TEST. -/
def execIntTest (fn : Fin 8) (vector : Fin 128) (send : Bool) (s : State) : Host.Outcome State Fault Refusal :=
  .next (if s.bar0Up fn && s.seesOff fn 0x0410 && send then s.intTest fn vector else s)

end Sys2Proof.Machine
end

