-- ==== Sys2Proof/Machine/Dispatch.lean ====
section
/-! DEFINITION. One arm per command: a direct call of its meaning. -/

namespace Sys2Proof.Machine

def exec (i : Instr) (s : State) : Host.Outcome State Fault Refusal :=
  match i with
  | .splitRefresh samples powerMw => Sys2Proof.Machine.execSplitRefresh samples powerMw s
  | .kick => Sys2Proof.Machine.execKick s
  | .kickSettled => Sys2Proof.Machine.execKickSettled s
  | .pacerSetpointLower => Sys2Proof.Machine.execPacerSetpointLower s
  | .brakeTrigger cause => Sys2Proof.Machine.execBrakeTrigger cause s
  | .brakeLevelRise => Sys2Proof.Machine.execBrakeLevelRise s
  | .brakeLevelFall absent => Sys2Proof.Machine.execBrakeLevelFall absent s
  | .brakeSetpointStep => Sys2Proof.Machine.execBrakeSetpointStep s
  | .laneUngate n => Sys2Proof.Machine.execLaneUngate n s
  | .laneIdleGate n => Sys2Proof.Machine.execLaneIdleGate n s
  | .laneFault n kind => Sys2Proof.Machine.execLaneFault n kind s
  | .laneAutoReset n => Sys2Proof.Machine.execLaneAutoReset n s
  | .laneRst lanes => Sys2Proof.Machine.execLaneRst lanes s
  | .laneResetDone n => Sys2Proof.Machine.execLaneResetDone n s
  | .laneDrainDone n => Sys2Proof.Machine.execLaneDrainDone n s
  | .laneMma n upsets => Sys2Proof.Machine.execLaneMma n upsets s
  | .laneField n upsets => Sys2Proof.Machine.execLaneField n upsets s
  | .laneReduce n upsets => Sys2Proof.Machine.execLaneReduce n upsets s
  | .laneLookup n upsets => Sys2Proof.Machine.execLaneLookup n upsets s
  | .laneConvert n upsets => Sys2Proof.Machine.execLaneConvert n upsets s
  | .laneStream n => Sys2Proof.Machine.execLaneStream n s
  | .laneWait n => Sys2Proof.Machine.execLaneWait n s
  | .laneTapIn n => Sys2Proof.Machine.execLaneTapIn n s
  | .laneTapOut n => Sys2Proof.Machine.execLaneTapOut n s
  | .laneEnd n => Sys2Proof.Machine.execLaneEnd n s
  | .syncFence n => Sys2Proof.Machine.execSyncFence n s
  | .syncSignalSet n => Sys2Proof.Machine.execSyncSignalSet n s
  | .syncSignalAdd n => Sys2Proof.Machine.execSyncSignalAdd n s
  | .syncWait n => Sys2Proof.Machine.execSyncWait n s
  | .signalWaitSatisfied n => Sys2Proof.Machine.execSignalWaitSatisfied n s
  | .signalWaitTimeout n => Sys2Proof.Machine.execSignalWaitTimeout n s
  | .syncArrive n => Sys2Proof.Machine.execSyncArrive n s
  | .syncBarrier n => Sys2Proof.Machine.execSyncBarrier n s
  | .syncAwait n => Sys2Proof.Machine.execSyncAwait n s
  | .transferEntryFreed => Sys2Proof.Machine.execTransferEntryFreed s
  | .transferStart id upsets => Sys2Proof.Machine.execTransferStart id upsets s
  | .transferChunkDone id src => Sys2Proof.Machine.execTransferChunkDone id src s
  | .transferDone id src => Sys2Proof.Machine.execTransferDone id src s
  | .batonChainStart id => Sys2Proof.Machine.execBatonChainStart id s
  | .batonChainDone id src => Sys2Proof.Machine.execBatonChainDone id src s
  | .poolAlloc req c => Sys2Proof.Machine.execPoolAlloc req c s
  | .poolFree req handle => Sys2Proof.Machine.execPoolFree req handle s
  | .poolGive req handle dst => Sys2Proof.Machine.execPoolGive req handle dst s
  | .poolRef req handle => Sys2Proof.Machine.execPoolRef req handle s
  | .poolUnref req handle => Sys2Proof.Machine.execPoolUnref req handle s
  | .poolQuery req handle => Sys2Proof.Machine.execPoolQuery req handle s
  | .poolRetireScrub index still => Sys2Proof.Machine.execPoolRetireScrub index still s
  | .patrolScrub word found => Sys2Proof.Machine.execPatrolScrub word found s
  | .lpddrTrainingDone ok => Sys2Proof.Machine.execLpddrTrainingDone ok s
  | .heatRun slot => Sys2Proof.Machine.execHeatRun slot s
  | .splitTimeReached slot t => Sys2Proof.Machine.execSplitTimeReached slot t s
  | .finishLineReached slot => Sys2Proof.Machine.execFinishLineReached slot s
  | .heatCommit slot => Sys2Proof.Machine.execHeatCommit slot s
  | .heatRelease slot => Sys2Proof.Machine.execHeatRelease slot s
  | .heatWatchdog slot => Sys2Proof.Machine.execHeatWatchdog slot s
  | .tkComparison t epoch => Sys2Proof.Machine.execTkComparison t epoch s
  | .ppsInEdge => Sys2Proof.Machine.execPpsInEdge s
  | .todRxMessage msg after => Sys2Proof.Machine.execTodRxMessage msg after s
  | .tkSourceQualified src => Sys2Proof.Machine.execTkSourceQualified src s
  | .tkSourceLost src => Sys2Proof.Machine.execTkSourceLost src s
  | .tkHoldoverExpired => Sys2Proof.Machine.execTkHoldoverExpired s
  | .tkStepApply => Sys2Proof.Machine.execTkStepApply s
  | .ref10mLoss => Sys2Proof.Machine.execRef10mLoss s
  | .tkNsLoRead => Sys2Proof.Machine.execTkNsLoRead s
  | .sysrefArm n => Sys2Proof.Machine.execSysrefArm n s
  | .sysrefPulse n => Sys2Proof.Machine.execSysrefPulse n s
  | .ppsOutPulse => Sys2Proof.Machine.execPpsOutPulse s
  | .carrierActivationEffect c => Sys2Proof.Machine.execCarrierActivationEffect c s
  | .carrierDeactivationEffect c => Sys2Proof.Machine.execCarrierDeactivationEffect c s
  | .jesdLaneLock c => Sys2Proof.Machine.execJesdLaneLock c s
  | .jesdSyncTimeout c => Sys2Proof.Machine.execJesdSyncTimeout c s
  | .jesdAlignDone c ilasOk margin => Sys2Proof.Machine.execJesdAlignDone c ilasOk margin s
  | .jesdLinkLoss c => Sys2Proof.Machine.execJesdLinkLoss c s
  | .jesdCrcError c n => Sys2Proof.Machine.execJesdCrcError c n s
  | .jesdSyncinChange c asserted => Sys2Proof.Machine.execJesdSyncinChange c asserted s
  | .slotTableEffect c => Sys2Proof.Machine.execSlotTableEffect c s
  | .agcWindowEnd p peak mean left => Sys2Proof.Machine.execAgcWindowEnd p peak mean left s
  | .agcEnergyDetect p sym => Sys2Proof.Machine.execAgcEnergyDetect p sym s
  | .agcFreezeStart p => Sys2Proof.Machine.execAgcFreezeStart p s
  | .agcFreezeEnd p => Sys2Proof.Machine.execAgcFreezeEnd p s
  | .slotFirstSample c sfn subframe slot => Sys2Proof.Machine.execSlotFirstSample c sfn subframe slot s
  | .rxSymbol c sfn subframe slot sym samples clips lost => Sys2Proof.Machine.execRxSymbol c sfn subframe slot sym samples clips lost s
  | .txSymbol c sfn subframe slot sym => Sys2Proof.Machine.execTxSymbol c sfn subframe slot sym s
  | .decoderStart d => Sys2Proof.Machine.execDecoderStart d s
  | .codewordDecodeDone d pon => Sys2Proof.Machine.execCodewordDecodeDone d pon s
  | .decoderParityFault d => Sys2Proof.Machine.execDecoderParityFault d s
  | .encodeCodewordDone => Sys2Proof.Machine.execEncodeCodewordDone s
  | .polarDone => Sys2Proof.Machine.execPolarDone s
  | .ponDownstreamFrame p superframe cws corr unc micFail => Sys2Proof.Machine.execPonDownstreamFrame p superframe cws corr unc micFail s
  | .ponSyncAcquired p => Sys2Proof.Machine.execPonSyncAcquired p s
  | .ponSyncLoss p => Sys2Proof.Machine.execPonSyncLoss p s
  | .ponSyncRegained p => Sys2Proof.Machine.execPonSyncRegained p s
  | .xgemFrame p hdrOk idle portId key lf icb payload => Sys2Proof.Machine.execXgemFrame p hdrOk idle portId key lf icb payload s
  | .ponBlockTimeout p e => Sys2Proof.Machine.execPonBlockTimeout p e s
  | .burstFix p start profile allocs => Sys2Proof.Machine.execBurstFix p start profile allocs s
  | .burstStart p => Sys2Proof.Machine.execBurstStart p s
  | .burstEnd p ns => Sys2Proof.Machine.execBurstEnd p ns s
  | .snGrant p => Sys2Proof.Machine.execSnGrant p s
  | .snSend p => Sys2Proof.Machine.execSnSend p s
  | .rangingGrant p => Sys2Proof.Machine.execRangingGrant p s
  | .ponTo1Expiry p => Sys2Proof.Machine.execPonTo1Expiry p s
  | .ponTo2Expiry p => Sys2Proof.Machine.execPonTo2Expiry p s
  | .ploamBurstProfile p index profile msg => Sys2Proof.Machine.execPloamBurstProfile p index profile msg s
  | .ploamAssignOnuId p onu serial msg => Sys2Proof.Machine.execPloamAssignOnuId p onu serial msg s
  | .ploamRangingTime p eqd msg => Sys2Proof.Machine.execPloamRangingTime p eqd msg s
  | .ploamDeactivateOnuId p onu msg => Sys2Proof.Machine.execPloamDeactivateOnuId p onu msg s
  | .ploamDisableSerialNumber p disable serial msg => Sys2Proof.Machine.execPloamDisableSerialNumber p disable serial msg s
  | .ploamRequestRegistration p msg => Sys2Proof.Machine.execPloamRequestRegistration p msg s
  | .ploamAssignAllocId p alloc add msg => Sys2Proof.Machine.execPloamAssignAllocId p alloc add msg s
  | .ploamKeyControl p index confirm at_ msg => Sys2Proof.Machine.execPloamKeyControl p index confirm at_ msg s
  | .ploamSleepAllow p on msg => Sys2Proof.Machine.execPloamSleepAllow p on msg s
  | .ploamChangePowerLevel p level msg => Sys2Proof.Machine.execPloamChangePowerLevel p level msg s
  | .ploamPowerConsumptionInquire p msg => Sys2Proof.Machine.execPloamPowerConsumptionInquire p msg s
  | .ploamUnsupported p msg => Sys2Proof.Machine.execPloamUnsupported p msg s
  | .ponKeySwitch p => Sys2Proof.Machine.execPonKeySwitch p s
  | .ponSleepRequest p => Sys2Proof.Machine.execPonSleepRequest p s
  | .ponTlowpowerExpiry p => Sys2Proof.Machine.execPonTlowpowerExpiry p s
  | .ponTawareExpiry p => Sys2Proof.Machine.execPonTawareExpiry p s
  | .ponWakeStimulus p => Sys2Proof.Machine.execPonWakeStimulus p s
  | .defectCondition p d present => Sys2Proof.Machine.execDefectCondition p d present s
  | .defectEntryMet p d => Sys2Proof.Machine.execDefectEntryMet p d s
  | .defectExitMet p d => Sys2Proof.Machine.execDefectExitMet p d s
  | .pmSecondMark => Sys2Proof.Machine.execPmSecondMark s
  | .bondGapTimeout portId => Sys2Proof.Machine.execBondGapTimeout portId s
  | .bondMemberRejoin p => Sys2Proof.Machine.execBondMemberRejoin p s
  | .frtFrameGenerate t => Sys2Proof.Machine.execFrtFrameGenerate t s
  | .frtFrameReceive p e sdu => Sys2Proof.Machine.execFrtFrameReceive p e sdu s
  | .opticInsert p => Sys2Proof.Machine.execOpticInsert p s
  | .opticSettled p => Sys2Proof.Machine.execOpticSettled p s
  | .opticIdentifyDone p reads ok => Sys2Proof.Machine.execOpticIdentifyDone p reads ok s
  | .opticTxFault p sent => Sys2Proof.Machine.execOpticTxFault p sent s
  | .opticTxRepermit p => Sys2Proof.Machine.execOpticTxRepermit p s
  | .opticRemove p sent => Sys2Proof.Machine.execOpticRemove p sent s
  | .opticMonitorPoll p diag ok => Sys2Proof.Machine.execOpticMonitorPoll p diag ok s
  | .opticLedgerWrite p ok => Sys2Proof.Machine.execOpticLedgerWrite p ok s
  | .ciphLockReq u => Sys2Proof.Machine.execCiphLockReq u s
  | .ciphLockRel u => Sys2Proof.Machine.execCiphLockRel u s
  | .keyCommit u slot len usage => Sys2Proof.Machine.execKeyCommit u slot len usage s
  | .keyErase u slot => Sys2Proof.Machine.execKeyErase u slot s
  | .ciphLeaseExpiry => Sys2Proof.Machine.execCiphLeaseExpiry s
  | .cipherPartDone ring cid host => Sys2Proof.Machine.execCipherPartDone ring cid host s
  | .entropyHealthFail => Sys2Proof.Machine.execEntropyHealthFail s
  | .sqTailWrite fn n v => Sys2Proof.Machine.execSqTailWrite fn n v s
  | .cqHeadWrite fn n v => Sys2Proof.Machine.execCqHeadWrite fn n v s
  | .commandFetch d => Sys2Proof.Machine.execCommandFetch d s
  | .hostReadCompletion tag status bytes => Sys2Proof.Machine.execHostReadCompletion tag status bytes s
  | .hostReadTimeout tag => Sys2Proof.Machine.execHostReadTimeout tag s
  | .tagQuarantineEnd tag => Sys2Proof.Machine.execTagQuarantineEnd tag s
  | .msixCoalesceTimeout n => Sys2Proof.Machine.execMsixCoalesceTimeout n s
  | .pcieDlDown unacked => Sys2Proof.Machine.execPcieDlDown unacked s
  | .busMasterEnableSet fn cfg => Sys2Proof.Machine.execBusMasterEnableSet fn cfg s
  | .linkHoldExpiry fn => Sys2Proof.Machine.execLinkHoldExpiry fn s
  | .flr u => Sys2Proof.Machine.execFlr u s
  | .hqEnSet => Sys2Proof.Machine.execHqEnSet s
  | .hqEnClear => Sys2Proof.Machine.execHqEnClear s
  | .bar4Access off len wr upsets => Sys2Proof.Machine.execBar4Access off len wr upsets s
  | .pmeTurnOff => Sys2Proof.Machine.execPmeTurnOff s
  | .identify ring cid => Sys2Proof.Machine.execIdentify ring cid s
  | .featureGet ring cid => Sys2Proof.Machine.execFeatureGet ring cid s
  | .featureSet ring cid => Sys2Proof.Machine.execFeatureSet ring cid s
  | .ringCreate ring cid => Sys2Proof.Machine.execRingCreate ring cid s
  | .ringDelete ring cid => Sys2Proof.Machine.execRingDelete ring cid s
  | .memMap ring cid => Sys2Proof.Machine.execMemMap ring cid s
  | .memUnmap ring cid => Sys2Proof.Machine.execMemUnmap ring cid s
  | .poolClassSet ring cid => Sys2Proof.Machine.execPoolClassSet ring cid s
  | .poolQuotaSet ring cid => Sys2Proof.Machine.execPoolQuotaSet ring cid s
  | .poolClassDelete ring cid => Sys2Proof.Machine.execPoolClassDelete ring cid s
  | .poolOp ring cid => Sys2Proof.Machine.execPoolOp ring cid s
  | .progLoad ring cid d => Sys2Proof.Machine.execProgLoad ring cid d s
  | .progVerify ring cid => Sys2Proof.Machine.execProgVerify ring cid s
  | .progUnload ring cid => Sys2Proof.Machine.execProgUnload ring cid s
  | .heatSubmit ring cid d => Sys2Proof.Machine.execHeatSubmit ring cid d s
  | .cancel ring cid => Sys2Proof.Machine.execCancel ring cid s
  | .streamCopy ring cid d => Sys2Proof.Machine.execStreamCopy ring cid d s
  | .streamFill ring cid => Sys2Proof.Machine.execStreamFill ring cid s
  | .streamRelease ring cid => Sys2Proof.Machine.execStreamRelease ring cid s
  | .patchStatus ring cid => Sys2Proof.Machine.execPatchStatus ring cid s
  | .carrierSet ring cid d => Sys2Proof.Machine.execCarrierSet ring cid d s
  | .carrierActivate ring cid => Sys2Proof.Machine.execCarrierActivate ring cid s
  | .slotTableSet ring cid d => Sys2Proof.Machine.execSlotTableSet ring cid d s
  | .agcSet ring cid => Sys2Proof.Machine.execAgcSet ring cid s
  | .linkReset ring cid => Sys2Proof.Machine.execLinkReset ring cid s
  | .polar ring cid => Sys2Proof.Machine.execPolar ring cid s
  | .ponConfig ring cid d => Sys2Proof.Machine.execPonConfig ring cid d s
  | .ponXgemSet ring cid => Sys2Proof.Machine.execPonXgemSet ring cid s
  | .ponSend ring cid => Sys2Proof.Machine.execPonSend ring cid s
  | .ponWake ring cid => Sys2Proof.Machine.execPonWake ring cid s
  | .ponStatus ring cid => Sys2Proof.Machine.execPonStatus ring cid s
  | .pmRead ring cid => Sys2Proof.Machine.execPmRead ring cid s
  | .pmThreshSet ring cid => Sys2Proof.Machine.execPmThreshSet ring cid s
  | .bondSet ring cid d => Sys2Proof.Machine.execBondSet ring cid d s
  | .frtSet ring cid => Sys2Proof.Machine.execFrtSet ring cid s
  | .opticConfig ring cid d => Sys2Proof.Machine.execOpticConfig ring cid d s
  | .opticCtrl ring cid txf ok => Sys2Proof.Machine.execOpticCtrl ring cid txf ok s
  | .opticQuery ring cid => Sys2Proof.Machine.execOpticQuery ring cid s
  | .cipher ring cid => Sys2Proof.Machine.execCipher ring cid s
  | .keyUnwrap ring cid => Sys2Proof.Machine.execKeyUnwrap ring cid s
  | .timeSet ring cid => Sys2Proof.Machine.execTimeSet ring cid s
  | .timeTod ring cid => Sys2Proof.Machine.execTimeTod ring cid s
  | .timeStatus ring cid => Sys2Proof.Machine.execTimeStatus ring cid s
  | .powerState ring cid => Sys2Proof.Machine.execPowerState ring cid s
  | .powerCap ring cid => Sys2Proof.Machine.execPowerCap ring cid s
  | .powerStatus ring cid => Sys2Proof.Machine.execPowerStatus ring cid s
  | .logRead ring cid => Sys2Proof.Machine.execLogRead ring cid s
  | .dumpCtl ring cid => Sys2Proof.Machine.execDumpCtl ring cid s
  | .selfTest ring cid => Sys2Proof.Machine.execSelfTest ring cid s
  | .selfTestDone ring cid failed => Sys2Proof.Machine.execSelfTestDone ring cid failed s
  | .arrive src seq epoch barrier expect => Sys2Proof.Machine.execArrive src seq epoch barrier expect s
  | .barrierTimeout d b => Sys2Proof.Machine.execBarrierTimeout d b s
  | .barrierBrokenReset b => Sys2Proof.Machine.execBarrierBrokenReset b s
  | .release src seq epoch barrier => Sys2Proof.Machine.execRelease src seq epoch barrier s
  | .break src seq epoch barrier status => Sys2Proof.Machine.execBreak src seq epoch barrier status s
  | .bykPortEnable q => Sys2Proof.Machine.execBykPortEnable q s
  | .bykPortDisable q => Sys2Proof.Machine.execBykPortDisable q s
  | .bykLinkRst q => Sys2Proof.Machine.execBykLinkRst q s
  | .bykLanesEqualised q => Sys2Proof.Machine.execBykLanesEqualised q s
  | .bykTrainingTimeout q => Sys2Proof.Machine.execBykTrainingTimeout q s
  | .bykAlignDone q => Sys2Proof.Machine.execBykAlignDone q s
  | .bykLinkLoss q => Sys2Proof.Machine.execBykLinkLoss q s
  | .bykParcelReceive q seq ackSeq ack crcOk corr unc bad => Sys2Proof.Machine.execBykParcelReceive q seq ackSeq ack crcOk corr unc bad s
  | .bykReplayTimeout q => Sys2Proof.Machine.execBykReplayTimeout q s
  | .hello q dev edition topo dimX dimY epoch ready retryUs offer tkState hops => Sys2Proof.Machine.execHello q dev edition topo dimX dimY epoch ready retryUs offer tkState hops s
  | .bykReadReq src xid epoch addr len host => Sys2Proof.Machine.execBykReadReq src xid epoch addr len host s
  | .bykReadRsp src xid status bytes => Sys2Proof.Machine.execBykReadRsp src xid status bytes s
  | .bykWrite src seq epoch addr bytes => Sys2Proof.Machine.execBykWrite src seq epoch addr bytes s
  | .bykTagAck src seq status retryUs => Sys2Proof.Machine.execBykTagAck src seq status retryUs s
  | .bykAdd src seq epoch addr addend => Sys2Proof.Machine.execBykAdd src seq epoch addr addend s
  | .bykAddRsp src seq status => Sys2Proof.Machine.execBykAddRsp src seq status s
  | .bykBlock src seq epoch hdr data => Sys2Proof.Machine.execBykBlock src seq epoch hdr data s
  | .bykBaton src plan hop prog desc data => Sys2Proof.Machine.execBykBaton src plan hop prog desc data s
  | .bykIso q ch sfn subframe slot sym seq data => Sys2Proof.Machine.execBykIso q ch sfn subframe slot sym seq data s
  | .isoDeliver n sfn subframe slot sym => Sys2Proof.Machine.execIsoDeliver n sfn subframe slot sym s
  | .resyncReq src epoch => Sys2Proof.Machine.execResyncReq src epoch s
  | .resyncRsp src status last => Sys2Proof.Machine.execResyncRsp src status last s
  | .skip src epoch last => Sys2Proof.Machine.execSkip src epoch last s
  | .bykResyncTimeout d => Sys2Proof.Machine.execBykResyncTimeout d s
  | .relayDone src seq epoch plan hop status relayStatus relayHop => Sys2Proof.Machine.execRelayDone src seq epoch plan hop status relayStatus relayHop s
  | .bykTimeExchange q => Sys2Proof.Machine.execBykTimeExchange q s
  | .timeSync q t1 epoch state hops turn => Sys2Proof.Machine.execTimeSync q t1 epoch state hops turn s
  | .timeReq q => Sys2Proof.Machine.execTimeReq q s
  | .timeRsp q t4 => Sys2Proof.Machine.execTimeRsp q t4 s
  | .railEnableStep => Sys2Proof.Machine.execRailEnableStep s
  | .railStartTimeout => Sys2Proof.Machine.execRailStartTimeout s
  | .railRestartWait => Sys2Proof.Machine.execRailRestartWait s
  | .railFault rail => Sys2Proof.Machine.execRailFault rail s
  | .vcoreStartReached => Sys2Proof.Machine.execVcoreStartReached s
  | .vcoreStartTimeout => Sys2Proof.Machine.execVcoreStartTimeout s
  | .phaseOpen phase amps => Sys2Proof.Machine.execPhaseOpen phase amps s
  | .phaseSenseFail n amps => Sys2Proof.Machine.execPhaseSenseFail n amps s
  | .phaseShed => Sys2Proof.Machine.execPhaseShed s
  | .phaseAdd => Sys2Proof.Machine.execPhaseAdd s
  | .phaseShareImbalance n => Sys2Proof.Machine.execPhaseShareImbalance n s
  | .droop => Sys2Proof.Machine.execDroop s
  | .droopClear => Sys2Proof.Machine.execDroopClear s
  | .coreHold mv => Sys2Proof.Machine.execCoreHold mv s
  | .coreHoldResume => Sys2Proof.Machine.execCoreHoldResume s
  | .coreHoldTimeout => Sys2Proof.Machine.execCoreHoldTimeout s
  | .forcedPaceStop => Sys2Proof.Machine.execForcedPaceStop s
  | .powerDownRailStep => Sys2Proof.Machine.execPowerDownRailStep s
  | .pwrFailAssert => Sys2Proof.Machine.execPwrFailAssert s
  | .pwrFailLogFreeze => Sys2Proof.Machine.execPwrFailLogFreeze s
  | .pwrFailCommitStart => Sys2Proof.Machine.execPwrFailCommitStart s
  | .dyingGaspWindowEnd => Sys2Proof.Machine.execDyingGaspWindowEnd s
  | .pwrFailRestart => Sys2Proof.Machine.execPwrFailRestart s
  | .smiAddressMatch => Sys2Proof.Machine.execSmiAddressMatch s
  | .wakeNAssert => Sys2Proof.Machine.execWakeNAssert s
  | .pcieWakeActivity => Sys2Proof.Machine.execPcieWakeActivity s
  | .wakeAtTimer => Sys2Proof.Machine.execWakeAtTimer s
  | .restExit => Sys2Proof.Machine.execRestExit s
  | .benchExit upset => Sys2Proof.Machine.execBenchExit upset s
  | .smiWritePhase cmd len data pec => Sys2Proof.Machine.execSmiWritePhase cmd len data pec s
  | .smiReadPhase => Sys2Proof.Machine.execSmiReadPhase s
  | .smiStatus => Sys2Proof.Machine.execSmiStatus s
  | .smiWake => Sys2Proof.Machine.execSmiWake s
  | .smiResidency => Sys2Proof.Machine.execSmiResidency s
  | .smiEvent => Sys2Proof.Machine.execSmiEvent s
  | .coldStart => Sys2Proof.Machine.execColdStart s
  | .strapLatch pins => Sys2Proof.Machine.execStrapLatch pins s
  | .boardReset => Sys2Proof.Machine.execBoardReset s
  | .perstN => Sys2Proof.Machine.execPerstN s
  | .hotReset => Sys2Proof.Machine.execHotReset s
  | .softReset fn => Sys2Proof.Machine.execSoftReset fn s
  | .hotResetHeatDeadline => Sys2Proof.Machine.execHotResetHeatDeadline s
  | .marshalWatchdog => Sys2Proof.Machine.execMarshalWatchdog s
  | .marshalStart record slot0 slot1 => Sys2Proof.Machine.execMarshalStart record slot0 slot1 s
  | .thermalTrip d => Sys2Proof.Machine.execThermalTrip d s
  | .fatalStop domain addr => Sys2Proof.Machine.execFatalStop domain addr s
  | .fatalDumpBudgetExpiry => Sys2Proof.Machine.execFatalDumpBudgetExpiry s
  | .blackBoxCommitDone => Sys2Proof.Machine.execBlackBoxCommitDone s
  | .dumpDone hostOk => Sys2Proof.Machine.execDumpDone hostOk s
  | .registerWrite fn off value wide isoMatch => Sys2Proof.Machine.execRegisterWrite fn off value wide isoMatch s
  | .reg64LowRead fn off => Sys2Proof.Machine.execReg64LowRead fn off s
  | .intTest fn vector send => Sys2Proof.Machine.execIntTest fn vector send s
  | .entryCommitPoint i2c => Sys2Proof.Machine.execEntryCommitPoint i2c s
  | .baseSetpointSettled => Sys2Proof.Machine.execBaseSetpointSettled s
  | .ref10mQualified => Sys2Proof.Machine.execRef10mQualified s
  | .sysclkLoss => Sys2Proof.Machine.execSysclkLoss s
  | .vaonLoss => Sys2Proof.Machine.execVaonLoss s
  | .perstNDeassert => Sys2Proof.Machine.execPerstNDeassert s
  | .sysRstNDeassert pins => Sys2Proof.Machine.execSysRstNDeassert pins s
  | .pcieLinkUp => Sys2Proof.Machine.execPcieLinkUp s
  | .busMasterEnableClear fn => Sys2Proof.Machine.execBusMasterEnableClear fn s
  | .vfEnableClear => Sys2Proof.Machine.execVfEnableClear s
  | .msixVectorUnmask fn mask fnMask => Sys2Proof.Machine.execMsixVectorUnmask fn mask fnMask s
  | .entropyHealthRecover => Sys2Proof.Machine.execEntropyHealthRecover s
  | .jesdTxLinkUp c => Sys2Proof.Machine.execJesdTxLinkUp c s
  | .aspmL1Entry l12 => Sys2Proof.Machine.execAspmL1Entry l12 s
  | .boundaryScanInstruction instr => Sys2Proof.Machine.execBoundaryScanInstruction instr s

end Sys2Proof.Machine
end

