-- ==== Sys2Proof/Machine/Tick.lean ====
section
/-! DEFINITION. What an empty queue does: a nanosecond passes while the Timekeeper counts. -/

namespace Sys2Proof.Machine

/-- One nanosecond of TKCLK where VRIM is good (Table RST-7); else nothing (notes/assumptions/5.md). -/
def State.tick (s : State) : State := if s.rgBit R.PWR_RAIL_OK 4 then s.elapse 1 else s

end Sys2Proof.Machine
end

