-- ==== Sys2Proof/WellFormed.lean ====
section
/-! DEFINITION. The operands that the world outside can supply: lengths and ranges that the types of Syntax.lean do not say. -/

namespace Sys2Proof

/-- A PLOAM message is 48 octets (R337). -/
def ploamWf (msg : List Byte) : Bool := msg.length == 48

/-- Whether a command or event is one that the block's outside can send: record and message lengths, counts and address widths. -/
def Instr.wf : Instr → Bool
  | .splitRefresh samples _ => samples.length == 15
  | .patrolScrub word _ => decide (word < 2 ^ 43)
  | .jesdCrcError _ n => decide (0 < n)
  | .agcWindowEnd _ peak mean _ => decide (mean ≤ peak)
  | .rxSymbol _ _ _ _ _ samples _ _ => samples.all (fun v => decide (v < 2 ^ 32))
  | .ponDownstreamFrame _ superframe cws corr unc _ => decide (superframe < 2 ^ 51) && decide (corr + unc ≤ cws)
  | .burstEnd _ ns => decide (0 < ns)
  | .ploamBurstProfile _ _ _ msg => ploamWf msg
  | .ploamAssignOnuId _ _ serial msg => serial.length == 8 && ploamWf msg
  | .ploamRangingTime _ _ msg => ploamWf msg
  | .ploamDeactivateOnuId _ _ msg => ploamWf msg
  | .ploamDisableSerialNumber _ _ serial msg => (match serial with | some b => b.length == 8 | none => true) && ploamWf msg
  | .ploamRequestRegistration _ msg => ploamWf msg
  | .ploamAssignAllocId _ _ _ msg => ploamWf msg
  | .ploamKeyControl _ _ _ _ msg => ploamWf msg
  | .ploamSleepAllow _ _ msg => ploamWf msg
  | .ploamChangePowerLevel _ _ msg => ploamWf msg
  | .ploamPowerConsumptionInquire _ msg => ploamWf msg
  | .ploamUnsupported _ msg => ploamWf msg
  | .opticMonitorPoll _ diag _ => match diag with | some d => d.length == 5 | none => true
  | .bar4Access off len wr _ =>
    decide (0 < len) && decide (off + len ≤ 2 ^ 28) && (match wr with | some b => b.length == len | none => true)
  | .registerWrite _ off _ wide _ => off.val % (if wide then 8 else 4) == 0
  | .reg64LowRead _ off => off.val % 4 == 0
  | .arrive _ seq epoch _ _ => decide (seq < 2 ^ 32) && decide (epoch < 2 ^ 16)
  | .release _ seq epoch _ => decide (seq < 2 ^ 32) && decide (epoch < 2 ^ 16)
  | .break _ seq epoch _ _ => decide (seq < 2 ^ 32) && decide (epoch < 2 ^ 16)
  | .bykReadReq _ _ _ addr _ _ => decide (addr < 2 ^ 46)
  | .bykWrite _ seq _ addr bytes => decide (seq < 2 ^ 32) && decide (addr + bytes.length ≤ 2 ^ 46)
  | .bykAdd _ seq _ addr _ => decide (seq < 2 ^ 32) && decide (addr + 8 ≤ 2 ^ 46) && addr % 8 == 0
  | .bykTagAck _ seq _ _ => decide (seq < 2 ^ 32)
  | .bykAddRsp _ seq _ => decide (seq < 2 ^ 32)
  | .bykBlock _ seq _ hdr _ => decide (seq < 2 ^ 32) && hdr.length == 16
  | .smiWritePhase _ len data _ => data.length == len.toNat && decide (len.toNat ≤ 32)
  | .benchExit upset => match upset with | some u => decide (u.1 < 2048) | none => true
  | .marshalStart record slot0 slot1 =>
    (match record with | some r => r.length == 512 | none => true) && decide (slot0.length ≤ 65536) &&
      decide (slot1.length ≤ 65536)
  | .fatalStop domain _ => match domain with | some d => decide (d < 15) | none => true
  | _ => true

end Sys2Proof
end

