-- ==== Sys2Proof/Safety.lean ====
section
/-! DEFINITION. The terms in which claims are stated: what a command left alone, a command that may start, and what the
machine keeps in every state. -/

namespace Sys2Proof.Machine

/-- Every register field whose key is not listed reads the same in both states. -/
def RegsBut (s t : State) (ks : List Nat) : Prop :=
  ∀ k d, k ∉ ks → Store.get d t.regs k = Store.get d s.regs k

/-- The two states differ in the listed register fields alone. -/
def OnlyRegs (s t : State) (ks : List Nat) : Prop :=
  { t with regs := s.regs } = s ∧ RegsBut s t ks

/-- Every byte of memory outside [a, a + n) reads the same in both states. -/
def BytesBut (s t : State) (a n : Nat) : Prop :=
  ∀ x, (x < a ∨ a + n ≤ x) → t.byte x = s.byte x

/-- One command in flight has a ring and CID: R444 keeps the pair unique. -/
abbrev TheCmd (s : State) (ring cid : Nat) (c : Cmd) : Prop :=
  s.host.cmds.filter (fun d => d.ring == ring && d.cid == cid && !d.done) = [c]

/-- A command in flight that its row may start now (R443, R452, R455). -/
abbrev Ready (s : State) (ring cid opcode : Nat) (c : Cmd) : Prop :=
  TheCmd s ring cid c ∧ c.opcode = opcode ∧ c.started = false ∧ s.mayStart c = true ∧
    s.boot.stop = none ∧ s.warm = false

/-- The state in which the effect of a started command is taken: the command is marked as started. -/
def started (s : State) (c : Cmd) : State := s.modCmd c.ring c.cid (fun d => { d with started := true })

/-- The rows that start a command (Tables CMA-1 and CMO-1), each with its OPCODE, for a ring and CID. -/
def commandRows (ring : Fin 64) (cid : Fin 65536) (d : HostData) (txf ok : Bool) : List (Nat × Instr) :=
  [ (0x01, .identify ring cid), (0x02, .featureGet ring cid), (0x03, .featureSet ring cid), (0x04, .ringCreate ring cid),
    (0x05, .ringDelete ring cid), (0x06, .memMap ring cid), (0x07, .memUnmap ring cid), (0x08, .poolClassSet ring cid),
    (0x09, .poolQuotaSet ring cid), (0x0A, .poolClassDelete ring cid), (0x0B, .poolOp ring cid), (0x0C, .progLoad ring cid d),
    (0x0D, .progVerify ring cid), (0x0E, .progUnload ring cid), (0x0F, .heatSubmit ring cid d), (0x10, .cancel ring cid),
    (0x11, .streamCopy ring cid d), (0x12, .streamFill ring cid), (0x13, .streamRelease ring cid), (0x14, .patchStatus ring cid),
    (0x40, .carrierSet ring cid d), (0x41, .carrierActivate ring cid), (0x42, .slotTableSet ring cid d), (0x43, .agcSet ring cid),
    (0x44, .linkReset ring cid), (0x45, .polar ring cid), (0x50, .ponConfig ring cid d), (0x51, .ponXgemSet ring cid),
    (0x52, .ponSend ring cid), (0x53, .ponWake ring cid), (0x54, .ponStatus ring cid), (0x55, .pmRead ring cid),
    (0x56, .pmThreshSet ring cid), (0x57, .bondSet ring cid d), (0x58, .frtSet ring cid), (0x60, .opticConfig ring cid d),
    (0x61, .opticCtrl ring cid txf ok), (0x62, .opticQuery ring cid), (0x70, .cipher ring cid), (0x71, .keyUnwrap ring cid),
    (0x80, .timeSet ring cid), (0x81, .timeTod ring cid), (0x82, .timeStatus ring cid), (0x88, .powerState ring cid),
    (0x89, .powerCap ring cid), (0x8A, .powerStatus ring cid), (0x90, .logRead ring cid), (0x91, .dumpCtl ring cid),
    (0x92, .selfTest ring cid) ]

/-- What every step keeps: the memory is in its canonical form (addresses strictly rising, no byte listed that an unlisted address reads
as), and each register value that waits for its boundary belongs to a field whose change class is shadowed (R683). -/
def Inv (s : State) : Prop :=
  s.mem.wf = true ∧
  ∀ x ∈ s.shadow, ∃ f i, f ∈ R.table ∧ f.chg.shadowed = true ∧ i < max 1 f.count ∧ x.key = f.key i 0

/-- Lane `n` is at entry `i` of virtual Lane `v` of the Heat `h` in a slot, the entry `e` has the opcode `op`, and the Lanes run. -/
abbrev AtEntry (s : State) (n op slot v : Nat) (h : Heat) (i : Nat) (e : List Byte) : Prop :=
  s.coreRuns = true ∧ s.cand n = some (slot, v, h) ∧ h.nextEntry (s.imageOf h) v = some (i, e) ∧ eOp e = op

/-- The entry has completed: the virtual Lane is past it, and the Heat's watchdog starts again (R195). -/
def EntryDone (s t : State) (slot v i : Nat) : Prop :=
  ∃ h, t.heat slot = some h ∧ (h.vl.getD v {}).pc = i + 1 ∧ h.wdFrom = s.tk.localNs

/-- What an entry drained or wrote back stands at the address of its output tensor, which is one piece of local memory large enough, and
no other byte of memory has changed. -/
def PutAt (s t : State) (h : Heat) (e : List Byte) (d : Drained) : Prop :=
  ∀ a l, h.tensorLoc (eTO e) = [(a, l)] → d.out.length ≤ l → s.inMem a d.out.length = true → d.scales = [] →
    (∀ k, k < d.out.length → t.byte (a + k) = d.out.getD k 0) ∧ BytesBut s t a d.out.length

/-- An opcode of the Field unit completes: with the operand tensors `ts` readable, the entry ends with the result `f` of them in its output tensor. -/
def FieldEntry (row : Fin 8 → List Nat → Instr) (op : Nat) (ts : List Byte → List (Nat × Nat))
    (f : State → Heat → Nat → List Byte → List (Array Byte) → Drained) : Prop :=
  ∀ (s : State) (n : Fin 8) (upsets : List Nat) (slot v i : Nat) (h : Heat) (e : List Byte) (bs : List (Array Byte)) (w : State),
    AtEntry s n op slot v h i e → ((s.upset upsets).bindLane n slot).readTensors h (ts e) = (some bs, w) →
    ∃ t, exec (row n upsets) s = .next t ∧ EntryDone s t slot v i ∧ PutAt s t h e (f s h v e bs)

end Sys2Proof.Machine
end

