-- ==== Sys2Proof/Certificates/Slice0/Obligations.lean ====
section
/-! DEFINITION. The statements for the provers. -/

open Sys2Proof Sys2Proof.Machine

/-- KICK, KICK_SETTLED and PACER_SETPOINT_LOWER, R46, R48, R49, R55: with the Pacer enabled, no Brake, no power failure and a setpoint below the one wanted, the Kick
falls due at its instant (the state `u`) and puts in force the setpoint wanted, at most 150 mV (30 codes) above the last settled one; it is counted, every shed phase is
added, and nothing but Pacer and controller registers changes. While a Brake is active no Kick is granted. A Kick ends with the setpoint reached. After three refreshes
without need and with no Kick in progress, the setpoint falls to the one wanted at 10 mV/µs (one 5 mV code in 500 ns), and the run of refreshes starts again. -/
def Obligations.SetpointFollowsNeed : Prop :=
  ((∀ s : State, s.flag R.PACER_CTL_EN = true → s.flag R.PACER_STAT_BRAKE_LEVEL = false → s.flag R.PWR_RAIL_PWR_FAIL = false →
    s.rg R.PACER_STAT_VSET < s.pacer.want → s.pacer.want ≤ 70 →
    let u := s.reach s.pacer.kickAt
    let last := if u.flag R.PACER_STAT_KICK then s.pacer.kickFrom else s.rg R.PACER_STAT_VSET
    s.rg R.PACER_STAT_VSET < min s.pacer.want (last + 30) →
    ∃ t, exec .kick s = .next t ∧ t.rg R.PACER_STAT_VSET = min s.pacer.want (last + 30) ∧
      t.rg R.PACER_STAT_KICK = 1 ∧ t.rg R.PACER_STAT_SETTLED = 0 ∧
      t.rg R.PACER_KICK_CNT_KICKS = (u.rg R.PACER_KICK_CNT_KICKS + 1) % 2 ^ 32 ∧
      (∀ n, n < 12 → t.rg R.VRC_PH_PST n ≠ 1) ∧
      { t with regs := u.regs, pm := u.pm, pacer := u.pacer } = u) ∧
  (∀ s : State, s.flag R.PACER_STAT_BRAKE_LEVEL = true → exec .kick s = .next s)) ∧
  ((∀ s : State, s.flag R.PACER_STAT_KICK = true → ∃ t, exec .kickSettled s = .next t ∧
    t.rg R.PACER_STAT_KICK = 0 ∧ t.rg R.PACER_STAT_SETTLED = 1 ∧ t.rg R.PACER_STAT_VSET = s.rg R.PACER_STAT_VSET ∧
    OnlyRegs s t [R.PACER_STAT_KICK.key 0 0, R.PACER_STAT_SETTLED.key 0 0]) ∧
  (∀ s : State, s.flag R.PACER_STAT_KICK = false → exec .kickSettled s = .next s)) ∧
  (∀ s : State, 3 ≤ s.pacer.idleRefreshes → s.flag R.PACER_STAT_KICK = false → s.pacer.want < s.rg R.PACER_STAT_VSET →
    s.pacer.want ≤ 70 →
    let u := s.elapse ((s.rg R.PACER_STAT_VSET - s.pacer.want) * 500)
    ∃ t, exec .pacerSetpointLower s = .next t ∧ t.rg R.PACER_STAT_VSET = s.pacer.want ∧ t.pacer.idleRefreshes = 0 ∧
      { t with regs := u.regs, pacer := u.pacer } = u ∧
      RegsBut u t [R.PACER_STAT_VSET.key 0 0, R.VRC_STAT_VOUT.key 0 0])

/-- BRAKE_TRIGGER, BRAKE_LEVEL_RISE, BRAKE_LEVEL_FALL and BRAKE_SETPOINT_STEP, R53 to R55: a cause raises the Brake to level 1 and stops a Kick
at its present voltage; a cause that lasts raises the level, after 1 µs in its level; with no cause left the level falls one step; and each
100 µs of a current or power Brake lowers the setpoint by 25 mV (5 codes), to that of Pace (code 20) at lowest. -/
def Obligations.BrakeThrottlesAndReleases : Prop :=
  (∀ (s : State) (c : Fin 3), s.flag R.PACER_STAT_BRAKE_LEVEL = false → s.rg R.PACER_STAT_VSET ≤ 70 →
    ∃ t, exec (.brakeTrigger c) s = .next t ∧ t.rgBit R.PACER_STAT_BRAKE_CAUSE c = true ∧
      t.rg R.PACER_STAT_BRAKE_LEVEL = 1 ∧ t.pacer.levelAt = s.tk.localNs ∧ t.rg R.PACER_STAT_KICK = 0 ∧
      t.rg R.PACER_STAT_VSET = (if s.flag R.PACER_STAT_KICK
        then min (s.rg R.PACER_STAT_VSET) (s.pacer.kickFrom + (s.tk.localNs - s.pacer.kickNs) / 500)
        else s.rg R.PACER_STAT_VSET) ∧
      { t with regs := s.regs, pacer := s.pacer } = s) ∧
  (∀ s : State, (s.rg R.PACER_STAT_BRAKE_LEVEL = 1 ∨ s.rg R.PACER_STAT_BRAKE_LEVEL = 2) →
    s.flag R.PACER_STAT_BRAKE_CAUSE = true →
    let u := s.since s.pacer.levelAt 1000
    ∃ t, exec .brakeLevelRise s = .next t ∧ t.rg R.PACER_STAT_BRAKE_LEVEL = s.rg R.PACER_STAT_BRAKE_LEVEL + 1 ∧
      t.pacer.levelAt = u.tk.localNs ∧ { t with regs := u.regs, pacer := u.pacer } = u ∧
      RegsBut u t [R.PACER_STAT_BRAKE_LEVEL.key 0 0]) ∧
  (∀ (s : State) (absent : BitVec 3), (s.rg R.PACER_STAT_BRAKE_LEVEL = 1 ∨ s.rg R.PACER_STAT_BRAKE_LEVEL = 2 ∨
      s.rg R.PACER_STAT_BRAKE_LEVEL = 3) → s.rg R.PACER_STAT_BRAKE_CAUSE < 16 →
    (∀ b, b < 3 → s.rgBit R.PACER_STAT_BRAKE_CAUSE b = true → absent.toNat.testBit b = true) →
    (s.rgBit R.PACER_STAT_BRAKE_CAUSE 3 = true → absent.toNat.testBit 0 = true) →
    ∃ t, exec (.brakeLevelFall absent) s = .next t ∧ t.rg R.PACER_STAT_BRAKE_LEVEL + 1 = s.rg R.PACER_STAT_BRAKE_LEVEL ∧
      s.pacer.levelAt + 1000 ≤ t.tk.localNs ∧ t.pacer.levelAt = t.tk.localNs ∧ t.mem = s.mem) ∧
  (∀ s : State, s.flag R.PACER_STAT_BRAKE_LEVEL = true →
    (s.rgBit R.PACER_STAT_BRAKE_CAUSE 0 = true ∨ s.rgBit R.PACER_STAT_BRAKE_CAUSE 1 = true) →
    20 < s.rg R.PACER_STAT_VSET → s.rg R.PACER_STAT_VSET ≤ 70 →
    let u := s.since s.pacer.stepAt 100000
    ∃ t, exec .brakeSetpointStep s = .next t ∧ t.rg R.PACER_STAT_VSET = max 20 (s.rg R.PACER_STAT_VSET - 5) ∧
      t.pacer.stepAt = u.tk.localNs ∧ { t with regs := u.regs, pacer := u.pacer } = u ∧
      RegsBut u t [R.PACER_STAT_VSET.key 0 0, R.VRC_STAT_VOUT.key 0 0])

/-- SPLIT_REFRESH, R36 to R40: at the refresh instant (the state `u`) every timer takes its sample together with its status: the period in
1/256 ps, the temperature, a sequence number one on; a count of 0 is never VALID, and a whole window with a plausible count is. -/
def Obligations.SplitTimersRefreshTogether : Prop :=
  ∀ (s : State) (samples : List (Nat × Bool × Int)) (mw : Nat), Inv s → samples.length = 15 →
    let u := s.reach s.refreshAt
    ∃ t, exec (.splitRefresh samples mw) s = .next t ∧ t.tk.refresh = some u.tk.ns ∧
      (∀ d x, samples[d]? = some x →
        t.rg R.SPLIT_PERIOD_PERIOD d = x.1 % 2 ^ 24 ∧ t.rg R.SPLIT_STAT_TJ d = toBits x.2.2 16 ∧
        t.rg R.SPLIT_STAT_SEQ d = (u.rg R.SPLIT_STAT_SEQ d + 1) % 256 ∧
        (8 ≤ d → t.rg R.SPLIT_STAT_BRAKE_LEVEL d = 0) ∧
        (x.1 = 0 ∨ x.2.1 = false → t.rg R.SPLIT_STAT_VALID d = 0) ∧
        (x.2.1 = true → 0 < x.1 → 2560000000 ≤ 2 * max10 (u.rg R.PACER_STAT_VSET) * x.1 →
          t.rg R.SPLIT_STAT_VALID d = 1 ∧ t.rg R.SPLIT_STAT_FAULT d = 0)) ∧
      t.mem = s.mem ∧ t.host = s.host

/-- LANE_MMA, LANE_FIELD, LANE_REDUCE, LANE_LOOKUP and LANE_CONVERT, R66 to R72, R181: an entry whose operands are readable, and whose tiles are
free, completes; what it drains or writes back stands in its output tensor and no other byte of memory changes. An MMA entry without LAST_K
keeps its sums in the Lane's tiles and writes nothing. -/
def Obligations.LaneEntriesWriteTheirResult : Prop :=
  (∀ (s : State) (n : Fin 8) (upsets : List Nat) (slot v i : Nat) (h : Heat) (e : List Byte) (ts : List (Array Byte)) (w : State),
    AtEntry s n 1 slot v h i e → ((s.upset upsets).bindLane n slot).readTensors h (mmaTensors e) = (some ts, w) →
    let prev := (vget s.lanes n).acc.find? (fun b => b.heat == slot && b.tensor == eTO e)
    (vget s.lanes n).tilesUsed + (if prev.isSome then 0 else if eLastK e then tilesOf e else tilesOf e * (eM e * eN e)) ≤ 8 →
    let acc := mmaAll e ⟨ts.getD 0 #[], ts.getD 1 #[], ts.getD 2 #[], ts.getD 3 #[], ts.getD 4 #[], eRows e, eCols e, eDepth e⟩ prev
    ∃ t, exec (.laneMma n upsets) s = .next t ∧ EntryDone s t slot v i ∧
      (eLastK e = true → PutAt s t h e (drainAll e (eCols e) (qOf e (ts.getD 5 #[])) acc) ∧
        (vget t.lanes n).drains = (vget s.lanes n).drains ++ [tilesOf e]) ∧
      (eLastK e = false → t.mem.cells = s.mem.cells ∧
        (t.flag R.LANE_STAT_BOUND n = true → ∃ b ∈ (vget t.lanes n).acc,
          b.heat = slot ∧ b.tensor = eTO e ∧ b.re = acc.map (·.1) ∧ b.im = acc.map (·.2)))) ∧
  FieldEntry .laneField 2 fieldTensors (fun _ _ _ e t =>
    fieldAll e (t.getD 0 #[]) (t.getD 1 #[]) (t.getD 2 #[]) (t.getD 3 #[]) (t.getD 4 #[]) (t.getD 5 #[]) (eRows e) (eCols e)) ∧
  FieldEntry .laneReduce 3 tensorsA (fun _ _ _ e t => reduceAll e (t.getD 0 #[]) (t.getD 1 #[]) (eRows e) (eCols e)) ∧
  FieldEntry .laneLookup 4 tensorsA (fun s h v e t =>
    let l := lutOf (s.imageOf h) v (eLut e)
    lookupAll e (t.getD 0 #[]) (t.getD 1 #[]) l.1 l.2.1 l.2.2 (eRows e) (eCols e)) ∧
  FieldEntry .laneConvert 5 (fun e => tensorsA e ++ [(ePT e, if ePercol e then 16 * eCols e else 0)]) (fun _ _ _ e t =>
    convertAll e (t.getD 0 #[]) (t.getD 1 #[]) (qOf e (t.getD 2 #[])) (eRows e) (eCols e))

/-- LANE_STREAM, LANE_WAIT, LANE_TAP_IN, LANE_TAP_OUT and LANE_END, R119, R178, R180, R184, R265: a template whose references resolve becomes the
next transfer, QUEUED or admitted, with the entry's token; a WAIT on a token that is final and OK ends; a TAP_IN ends once its
input tensor is ready; a TAP_OUT before its split time makes the learned result stand, and after it is discarded and
counted; END ends the virtual Lane's work.
LANE_UNGATE, LANE_IDLE_GATE, LANE_FAULT, LANE_AUTO_RESET, LANE_RST, LANE_RESET_DONE and LANE_DRAIN_DONE, R68, R82 to R84, the states of
Table LNE-7 (0 GATED, 1 IDLE, 2 BUSY, 3 FAULTED, 4 RESETTING): what brings a Lane from each state to the next. A fault, and a reset,
clear the accumulator tiles; the fault names its cause and is counted; a held Lane waits for its requested reset. -/
def Obligations.LaneControlEntriesAndStates : Prop :=
  ((∀ (s : State) (n : Fin 8) (slot v i a b : Nat) (h : Heat) (e : List Byte), AtEntry s n 6 slot v h i e →
    (h.vl.getD v {}).isHeld = false → s.entryFree (h.finish != 0) = true → s.xfers = [] →
    let d := (progTemplates (s.imageOf h)).getD (eDesc e) []
    d.length = 64 → dKind d = 0 → h.resolveRef (rec64 d 0) = some a → h.resolveRef (rec64 d 8) = some b →
    ∃ t, exec (.laneStream n) s = .next t ∧ EntryDone s t slot v i ∧ t.xferNext = s.xferNext + 1 ∧
      (∀ x ∈ t.xfers, x.id = s.xferNext ∧ x.issuer = .heat slot v ∧ x.st = .admitted ∧
        x.desc = leBytes 8 a ++ leBytes 8 b ++ slice d 16 42 ++ leBytes 2 (eTok e) ++ slice d 60 4) ∧
      (t.xfers = [] → ∃ h' tok, t.heat slot = some h' ∧ (eTok e, tok) ∈ h'.tokens ∧ tok.status = Sc.badField)) ∧
  (∀ (s : State) (n : Fin 8) (slot v i : Nat) (h : Heat) (e : List Byte) (k : Nat) (tok : Token), AtEntry s n 7 slot v h i e →
    eRel e = false → h.tokens.find? (fun p => p.1 == eTok e) = some (k, tok) → tok.final = true → tok.status = Sc.ok →
    ∃ t, exec (.laneWait n) s = .next t ∧ EntryDone s t slot v i ∧ t.mem = s.mem ∧ t.xfers = s.xfers) ∧
  (∀ (s : State) (n : Fin 8) (slot v i tp : Nat) (h : Heat) (e : List Byte), AtEntry s n 8 slot v h i e →
    h.tapOf e = some tp → (h.tap tp).inReady = true →
    ∃ t, exec (.laneTapIn n) s = .next t ∧ EntryDone s t slot v i) ∧
  (∀ (s : State) (n : Fin 8) (slot v i tp : Nat) (h : Heat) (e : List Byte), AtEntry s n 9 slot v h i e →
    h.tapOf e = some tp → s.heatXfers slot = [] →
    ∃ t, exec (.laneTapOut n) s = .next t ∧ EntryDone s t slot v i ∧
      ((h.tap tp).st = .open_ → (s.tk.ns < h.split tp ∨ h.split tp = 0) →
        ∃ h', t.heat slot = some h' ∧ (h'.tap tp).st = .learned) ∧
      ((h.tap tp).st = .classical → t.rg R.TRK_LATE_DISCARD_LATE_DISCARD h.carrier =
        (s.rg R.TRK_LATE_DISCARD_LATE_DISCARD h.carrier + 1) % 2 ^ R.TRK_LATE_DISCARD_LATE_DISCARD.width)) ∧
  (∀ (s : State) (n : Fin 8) (slot v i : Nat) (h : Heat) (e : List Byte), AtEntry s n 0 slot v h i e →
    ∃ t h', exec (.laneEnd n) s = .next t ∧ t.heat slot = some h' ∧ (h'.vl.getD v {}).run = .ended ∧ t.mem = s.mem ∧
      (s.flag R.LANE_STAT_BOUND n = true → s.rg R.LANE_STAT_HEAT n = slot →
        t.rg R.LANE_STAT_STATE n = 1 ∧ t.flag R.LANE_STAT_BOUND n = false))) ∧
  ((∀ (s : State) (n : Fin 8) (slot : Nat) (h : Heat), s.rg R.LANE_STAT_STATE n = 0 →
    s.heatList.find? (fun p => p.2.live && p.2.mask.testBit n &&
      (List.range p.2.vl.length).any (fun v => s.laneOf p.2 v == n && (p.2.vl.getD v {}).run == .ready)) = some (slot, h) →
    ∃ t, exec (.laneUngate n) s = .next t ∧ t.rg R.LANE_STAT_STATE n = 1 ∧ (vget t.lanes n).tables = some h.prog ∧
      { t with regs := s.regs, lanes := s.lanes } = s ∧ RegsBut s t [R.LANE_STAT_STATE.key n 0]) ∧
  (∀ (s : State) (n : Fin 8), s.rg R.LANE_STAT_STATE n = 1 → s.flag R.LANE_CTL_IDLE_GATE = true →
    s.flag R.LANE_STAT_BOUND n = false →
    let u := s.since (vget s.lanes n).idleSince 1000000
    ∃ t, exec (.laneIdleGate n) s = .next t ∧ t.rg R.LANE_STAT_STATE n = 0 ∧ t.rg R.SPLIT_STAT_VALID n = 0 ∧
      OnlyRegs u t [R.LANE_STAT_STATE.key n 0, R.SPLIT_STAT_VALID.key n 0]) ∧
  (∀ (s : State) (n : Fin 8) (k : Fin 4), (s.rg R.LANE_STAT_STATE n = 1 ∨ s.rg R.LANE_STAT_STATE n = 2) →
    s.flag R.LANE_STAT_BOUND n = false → s.xfers.filter (fun x => x.engine == n.val || dKind x.desc == 1) = [] →
    ∃ t, exec (.laneFault n k) s = .next t ∧ t.rg R.LANE_STAT_STATE n = 3 ∧ t.rg R.LANE_STAT_CAUSE n = k.val + 2 ∧
      t.rg R.LANE_STAT_FAULTS n = (s.rg R.LANE_STAT_FAULTS n + 1) % 2 ^ R.LANE_STAT_FAULTS.width ∧
      (vget t.lanes n).acc = [] ∧ (vget t.lanes n).drains = [] ∧ t.mem = s.mem ∧ t.heats = s.heats) ∧
  (∀ (s : State) (n : Fin 8), s.rg R.LANE_STAT_STATE n = 3 → s.flag R.LANE_STAT_HELD n = false →
    s.xfers.filter (fun x => x.engine == n.val || dKind x.desc == 1) = [] →
    ∃ t, exec (.laneAutoReset n) s = .next t ∧ t.rg R.LANE_STAT_STATE n = 4 ∧ (vget t.lanes n).acc = [] ∧
      t.rg R.SPLIT_STAT_VALID n = 0 ∧ t.mem = s.mem ∧ t.heats = s.heats) ∧
  (∀ (s : State) (n : Fin 8), s.flag R.LANE_STAT_BOUND n = false → s.rg R.LANE_STAT_STATE n ≠ 4 →
    s.xfers.filter (fun x => x.engine == n.val || dKind x.desc == 1) = [] →
    ∃ t, exec (.laneRst (BitVec.ofNat 8 (2 ^ n.val))) s = .next t ∧ t.rg R.LANE_STAT_STATE n = 4 ∧ t.rg R.LANE_STAT_HELD n = 0 ∧
      (vget t.lanes n).acc = [] ∧ t.mem = s.mem ∧ (∀ m : Fin 8, m ≠ n → t.rg R.LANE_STAT_STATE m = s.rg R.LANE_STAT_STATE m)) ∧
  (∀ (s : State) (n : Fin 8), s.rg R.LANE_STAT_STATE n = 4 →
    ∃ t, exec (.laneResetDone n) s = .next t ∧ t.rg R.LANE_STAT_STATE n = 1 ∧ (vget t.lanes n).idleSince = s.tk.localNs ∧
      { t with regs := s.regs, lanes := s.lanes } = s ∧ RegsBut s t [R.LANE_STAT_STATE.key n 0]) ∧
  (∀ (s : State) (n : Fin 8), ∃ t, exec (.laneDrainDone n) s = .next t ∧
    (vget t.lanes n).drains = (vget s.lanes n).drains.drop 1 ∧ { t with lanes := s.lanes } = s))

/-- SYNC_FENCE, SYNC_SIGNAL_SET, SYNC_SIGNAL_ADD, SYNC_WAIT, SIGNAL_WAIT_SATISFIED and SIGNAL_WAIT_TIMEOUT, R539, R542 to R544. A fence ends once
its scope's writes are done, and holds the Lane until then. A SET of a local signal stores the value, an ADD the sum modulo 2^64, each as 8
bytes at the signal's address and nowhere else; a signal of a peer goes there as one tagged operation. A WAIT, at once or re-examined, ends when the signal is
at or above its target and holds the Lane below it; one that lasts 64 × WD_US is counted and stops a radio Heat's stage.
SYNC_ARRIVE, SYNC_BARRIER, SYNC_AWAIT, ARRIVE, RELEASE, BREAK, BARRIER_TIMEOUT and BARRIER_BROKEN_RESET, R545, R550 to R552, Table SYN-4 (0 IDLE, 1
FILLING, 2 BROKEN). The first arrival fills the counter with its EXPECT, another adds one, and the last releases: the next generation starts at COUNT 0
and the Lane that waits goes on. An arrival from another device is applied once, in sequence. A FILLING counter breaks with
ABORTED after its timeout, and a BROKEN one starts its next generation after the same time. -/
def Obligations.FencesSignalsAndBarriers : Prop :=
  ((∀ (s : State) (n : Fin 8) (slot v i : Nat) (h : Heat) (e : List Byte), AtEntry s n 10 slot v h i e → eFn e = 0 →
    ((yScope e = 0 ∨ s.fenced slot v (yScope e) = true) →
      ∃ t, exec (.syncFence n) s = .next t ∧ EntryDone s t slot v i ∧ t.mem = s.mem ∧ t.xfers = s.xfers) ∧
    (yScope e ≠ 0 → s.fenced slot v (yScope e) = false →
      ∃ t h', exec (.syncFence n) s = .next t ∧ t.heat slot = some h' ∧ (h'.vl.getD v {}).pc = (h.vl.getD v {}).pc ∧
        (h'.vl.getD v {}).heldFor 10 = true ∧ t.mem = s.mem)) ∧
  (∀ (s : State) (n : Fin 8) (slot v i a : Nat) (h : Heat) (e : List Byte), AtEntry s n 10 slot v h i e → eFn e = 1 →
    (yScope e = 0 ∨ s.fenced slot v (yScope e) = true) → h.signal e = some a →
    ((yGlobal e = false ∨ yDev e = s.dev) → s.inMem a 8 = true →
      ∃ t h', exec (.syncSignalSet n) s = .next t ∧ EntryDone s t slot v i ∧ t.bytes a 8 = leBytes 8 (yValue e) ∧ BytesBut s t a 8 ∧
        t.heat slot = some h' ∧ h'.emitted = true) ∧
    (yGlobal e = true → yDev e ≠ s.dev → s.bykNotReady (yDev e) = false →
      ∃ t o, exec (.syncSignalSet n) s = .next t ∧ EntryDone s t slot v i ∧ t.mem = s.mem ∧
        o ∈ (t.peer (yDev e)).ops ++ (t.peer (yDev e)).waiting ∧ o.op = 3 ∧ o.addr = a ∧ o.data = leBytes 8 (yValue e))) ∧
  (∀ (s : State) (n : Fin 8) (slot v i a : Nat) (h : Heat) (e : List Byte), AtEntry s n 10 slot v h i e → eFn e = 2 →
    (yScope e = 0 ∨ s.fenced slot v (yScope e) = true) → h.signal e = some a →
    ((yGlobal e = false ∨ yDev e = s.dev) → s.hasBad a 8 = false →
      ∃ t h', exec (.syncSignalAdd n) s = .next t ∧ EntryDone s t slot v i ∧
        t.bytes a 8 = leBytes 8 (leNat (s.bytes a 8) + yValue e) ∧ BytesBut s t a 8 ∧
        t.heat slot = some h' ∧ h'.emitted = true) ∧
    (yGlobal e = true → yDev e ≠ s.dev → s.bykNotReady (yDev e) = false →
      ∃ t o, exec (.syncSignalAdd n) s = .next t ∧ EntryDone s t slot v i ∧ t.mem = s.mem ∧
        o ∈ (t.peer (yDev e)).ops ++ (t.peer (yDev e)).waiting ∧ o.op = 5 ∧ o.addr = a ∧ o.data = leBytes 8 (yValue e))) ∧
  (∀ (s : State) (n : Fin 8) (slot v i a : Nat) (h : Heat) (e : List Byte), AtEntry s n 10 slot v h i e → eFn e = 3 →
    h.signal e = some a → s.hasBad a 8 = false →
    (yValue e ≤ leNat (s.bytes a 8) →
      (∃ t, exec (.syncWait n) s = .next t ∧ EntryDone s t slot v i ∧ t.mem.cells = s.mem.cells) ∧
      ((h.vl.getD v {}).heldFor 11 = true →
        ∃ t, exec (.signalWaitSatisfied n) s = .next t ∧ EntryDone s t slot v i ∧ t.mem.cells = s.mem.cells)) ∧
    (leNat (s.bytes a 8) < yValue e →
      ∃ t h', exec (.syncWait n) s = .next t ∧ t.heat slot = some h' ∧ (h'.vl.getD v {}).pc = (h.vl.getD v {}).pc ∧
        (h'.vl.getD v {}).heldFor 11 = true ∧ t.mem.cells = s.mem.cells)) ∧
  (∀ (s : State) (n : Fin 8) (slot v i t0 : Nat) (h : Heat) (e : List Byte), AtEntry s n 10 slot v h i e → eFn e = 3 →
    (h.vl.getD v {}).run = .held 11 t0 → h.radio = true →
    let u := (s.bindLane n slot).since t0 (64 * h.wdUs * 1000)
    ∃ t h', exec (.signalWaitTimeout n) s = .next t ∧ t.heat slot = some h' ∧ (h'.vl.getD v {}).run = .stopped ∧
      t.rg R.SYN_CNT_WAIT_TMO = (u.rg R.SYN_CNT_WAIT_TMO + 1) % 2 ^ 16 ∧ t.mem = s.mem)) ∧
  ((∀ (s : State) (n : Fin 8) (slot v i : Nat) (h : Heat) (e : List Byte), AtEntry s n 10 slot v h i e → eFn e = 4 →
    (yScope e = 0 ∨ s.fenced slot v (yScope e) = true) → yDev e = s.dev → s.rg R.SYN_BAR_STATE (yBarrier e) = 0 →
    1 < yExpect e → yExpect e < 1024 →
    ∃ t, exec (.syncArrive n) s = .next t ∧ EntryDone s t slot v i ∧ t.rg R.SYN_BAR_STATE (yBarrier e) = 1 ∧
      t.rg R.SYN_BAR_COUNT (yBarrier e) = 1 ∧ t.rg R.SYN_BAR_EXPECT (yBarrier e) = yExpect e ∧ t.mem = s.mem) ∧
  (∀ (s : State) (n : Fin 8) (slot v i : Nat) (h : Heat) (e : List Byte), AtEntry s n 10 slot v h i e → eFn e = 5 →
    (h.vl.getD v {}).heldFor 12 = false →
    (yScope e = 0 ∨ s.fenced slot v (yScope e) = true) → yDev e = s.dev → s.rg R.SYN_BAR_STATE (yBarrier e) = 0 →
    1 < yExpect e → yExpect e < 1024 →
    ∃ t h', exec (.syncBarrier n) s = .next t ∧ t.heat slot = some h' ∧ (h'.vl.getD v {}).heldFor 12 = true ∧
      t.rg R.SYN_BAR_STATE (yBarrier e) = 1 ∧ t.rg R.SYN_BAR_COUNT (yBarrier e) = 1 ∧ t.mem = s.mem) ∧
  (∀ (s : State) (n : Fin 8) (slot v i d b : Nat) (h : Heat) (e : List Byte), AtEntry s n 10 slot v h i e → eFn e = 6 →
    s.laneOf h v = n.val → (h.vl.getD v {}).gen = some (d, b, 0) →
    ∃ t, exec (.syncAwait n) s = .next t ∧ EntryDone s t slot v i ∧ t.mem = s.mem) ∧
  (∀ (s : State) (src : Fin 64) (b : Fin 128) (seq expect : Nat), s.flag R.BYK_CFG_READY = true →
    seq = seqNext (s.peer src).lastAcc → s.rg R.SYN_BAR_STATE b = 1 → s.rg R.SYN_BAR_EXPECT b = expect → expect < 1024 →
    s.rg R.SYN_BAR_COUNT b + 1 < expect →
    ∃ t, exec (.arrive src seq s.epoch b expect) s = .next t ∧ t.rg R.SYN_BAR_COUNT b = s.rg R.SYN_BAR_COUNT b + 1 ∧
      t.rg R.SYN_BAR_STATE b = 1 ∧ src.val ∈ (t.bar b).devs ∧ (t.peer src).lastAcc = seq ∧ t.mem = s.mem) ∧
  (∀ (s : State) (src : Fin 64) (b : Fin 128) (seq slot i : Nat) (h : Heat) (x : VLane) (e : List Byte), s.flag R.BYK_CFG_READY = true →
    seq = seqNext (s.peer src).lastAcc → s.heatList = [(slot, h)] → h.vl = [x] → x.gen = some (src.val, b.val, 1) →
    x.heldFor 12 = true → h.nextEntry (s.imageOf h) 0 = some (i, e) →
    (∃ t, exec (.release src seq s.epoch b) s = .next t ∧ EntryDone s t slot 0 i ∧ (t.peer src).lastAcc = seq ∧ t.mem = s.mem) ∧
    (∀ status : BitVec 16, h.radio = true →
      ∃ t h', exec (.break src seq s.epoch b status) s = .next t ∧ t.heat slot = some h' ∧ (h'.vl.getD 0 {}).run = .stopped ∧
        (t.peer src).lastAcc = seq ∧ t.mem = s.mem)) ∧
  (∀ (s : State) (d : Fin 64) (b : Fin 128), d.val = s.dev → s.rg R.SYN_BAR_STATE b = 1 →
    ∃ t, exec (.barrierTimeout d b) s = .next t ∧ t.rg R.SYN_BAR_STATE b = 2 ∧ (t.bar b).status = Sc.aborted ∧
      (s.bar b).since + s.barTmoMs * 1000000 ≤ t.tk.localNs ∧ (t.bar b).since = t.tk.localNs) ∧
  (∀ (s : State) (b : Fin 128), s.rg R.SYN_BAR_STATE b = 2 →
    let u := s.since (s.bar b).since (s.barTmoMs * 1000000)
    ∃ t, exec (.barrierBrokenReset b) s = .next t ∧ t.rg R.SYN_BAR_STATE b = 0 ∧ t.rg R.SYN_BAR_COUNT b = 0 ∧
      t.rg R.SYN_BAR_GEN b = (u.rg R.SYN_BAR_GEN b + 1) % 256 ∧ (t.bar b).devs = [] ∧
      { t with regs := u.regs, starter := u.starter } = u))

/-- TRANSFER_ENTRY_FREED, TRANSFER_START, TRANSFER_CHUNK_DONE and TRANSFER_DONE, R119 to R126, Table STR-4. The next QUEUED transfer takes a free entry,
the reserved class first. An admitted plain transfer starts its reads when its engine is free. A local copy ends with its bytes, read in iteration
order, at the destination, a final OK token, and no other byte changed where the destination is packed. A chunk of a pair goes to its half,
with a token record that is not final, and the transfer waits when the next half is not released. -/
def Obligations.TransfersMoveAndReport : Prop :=
  (∀ (s : State) (x : Xfer), (match (s.xfers.filter (fun y => y.st = .queued)).find? (·.reserved) with
      | some y => some y
      | none => (s.xfers.filter (fun y => y.st = .queued)).head?) = some x →
    s.entryFree x.reserved = true → s.xferOk x = true → dKind x.desc = 0 → s.xfer? x.id = some x →
    ∃ t y, exec .transferEntryFreed s = .next t ∧ t.xfer? x.id = some y ∧ y = { x with st := .admitted } ∧
      { t with xfers := s.xfers, regs := s.regs } = s ∧
      RegsBut s t [R.STR_INFLIGHT_NOW.key 0 0, R.STR_INFLIGHT_PEAK.key 0 0]) ∧
  (∀ (s : State) (x : Xfer), s.xfer? x.id = some x → x.st = .admitted → dKind x.desc = 0 → s.mayMove x = true →
    s.remoteSrc x.desc = false → s.mem.bad = [] →
    ∃ t, exec (.transferStart x.id []) s = .next t ∧
      t.xfer? x.id = some { x with st := .moving, readsDone := !dPair x.desc } ∧ { t with xfers := s.xfers } = s) ∧
  (∀ (s : State) (x : Xfer) (slot v : Nat), s.xfer? x.id = some x → s.coreRuns = true → x.st = .moving → x.ended = none →
    dPair x.desc = true → x.chunk + 1 < dChunks x.desc → x.free.getD (x.chunk % 2) true = true → x.issuer = .heat slot v →
    (s.heat slot).isSome = true → x.tokenAddr = none → s.remoteSrc x.desc = false → s.foreignSrc x.desc = false →
    s.foreignDst x.desc = false → dMirror x.desc = false → s.mem.bad = [] →
    let o := chunkOffs x.desc x.chunk
    let bs := (o.1.flatMap (fun (k : Int) => s.bytes (((dSrc x.desc % 2 ^ 46 : Nat) : Int) + k).toNat (dWidth x.desc))).take (dChunkBytes x.desc)
    let a := dDst x.desc % 2 ^ 46 + x.chunk % 2 * dPairOff x.desc
    s.inMem a bs.length = true →
    ∃ t y h', exec (.transferChunkDone x.id none) s = .next t ∧ t.xfer? x.id = some y ∧ y.chunk = x.chunk + 1 ∧
      y.st = (if (x.free.set (x.chunk % 2) false).getD ((x.chunk + 1) % 2) true then .moving else .pairWait) ∧
      t.bytes a bs.length = bs ∧ BytesBut s t a bs.length ∧ t.heat slot = some h' ∧
      (dToken x.desc, (⟨s.tk.ns, Sc.ok, 0, 0, false, x.chunk % 2, 0, x.chunk % 65536⟩ : Token)) ∈ h'.tokens) ∧
  (∀ (s : State) (x : Xfer) (slot v : Nat), s.xfer? x.id = some x → s.coreRuns = true → x.st = .moving → x.ended = none →
    dPair x.desc = false → dKind x.desc = 0 → x.issuer = .heat slot v → (s.heat slot).isSome = true → x.tokenAddr = none →
    s.remoteSrc x.desc = false → s.foreignSrc x.desc = false → s.foreignDst x.desc = false → dMirror x.desc = false →
    x.acks = 0 → x.ackFail = 0 → s.mem.bad = [] →
    let bs := ((offsOf x.desc 5).flatMap (fun (k : Int) => s.bytes (((dSrc x.desc % 2 ^ 46 : Nat) : Int) + k).toNat (dWidth x.desc))).take (dTotal x.desc)
    let a := dDst x.desc % 2 ^ 46
    s.inMem a bs.length = true → a < windowBase →
    ∃ t h', exec (.transferDone x.id none) s = .next t ∧ t.xfer? x.id = none ∧ t.bytes a bs.length = bs ∧
      BytesBut s t a bs.length ∧ t.heat slot = some h' ∧ (dToken x.desc, s.finalToken x Sc.ok) ∈ h'.tokens)

/-- BATON_CHAIN_START and BATON_CHAIN_DONE, R127 to R131: an admitted chain starts once every member is IDLE or BUSY and fewer than four run; at its end each
member that has not failed holds the data at the destination offset of its own store, and the final token is OK when every member named has it. -/
def Obligations.BatonChainsReachEveryMember : Prop :=
  (∀ (s : State) (x : Xfer), s.xfer? x.id = some x → x.st = .admitted → dKind x.desc = 1 → s.rg R.BATON_STAT_ACTIVE < 4 →
    (∀ n, n < 8 → x.members.testBit n = true → s.rg R.LANE_STAT_STATE n = 1 ∨ s.rg R.LANE_STAT_STATE n = 2) →
    s.mayMove x = true → s.remoteSrc x.desc = false →
    ∃ t, exec (.batonChainStart x.id) s = .next t ∧
      t.xfer? x.id = some { x with st := .moving, running := true, readsDone := true } ∧
      t.rg R.BATON_STAT_ACTIVE = s.rg R.BATON_STAT_ACTIVE + 1 ∧ { t with xfers := s.xfers, regs := s.regs } = s ∧
      RegsBut s t [R.BATON_STAT_ACTIVE.key 0 0]) ∧
  (∀ (s : State) (x : Xfer) (slot v : Nat), s.xfer? x.id = some x → s.coreRuns = true → x.st = .moving → dKind x.desc = 1 →
    x.relayWait = false → x.inbound = [] → x.issuer = .heat slot v → (s.heat slot).isSome = true → x.tokenAddr = none → x.running = true →
    s.remoteSrc x.desc = false → s.foreignSrc x.desc = false → dMirror x.desc = false → dRelayEn x.desc = false → s.mem.bad = [] →
    x.failed = 0 → x.members = dMembers x.desc →
    let bs := (offsOf x.desc 5).flatMap (fun (k : Int) => s.bytes (((dSrc x.desc % 2 ^ 46 : Nat) : Int) + k).toNat (dWidth x.desc))
    dDst x.desc % 2 ^ 24 + bs.length ≤ 2 ^ 24 →
    ∃ t h' tok, exec (.batonChainDone x.id none) s = .next t ∧ t.xfer? x.id = none ∧
      (∀ n, n < 8 → x.members.testBit n = true → t.bytes (n * 2 ^ 24 + dDst x.desc % 2 ^ 24) bs.length = bs) ∧
      (∀ a, (∀ n, n < 8 → x.members.testBit n = true →
        a < n * 2 ^ 24 + dDst x.desc % 2 ^ 24 ∨ n * 2 ^ 24 + dDst x.desc % 2 ^ 24 + bs.length ≤ a) → t.byte a = s.byte a) ∧
      t.heat slot = some h' ∧ (dToken x.desc, tok) ∈ h'.tokens ∧ tok.final = true ∧ tok.status = Sc.ok ∧ tok.doneMask = x.members)

/-- POOL_ALLOC, POOL_FREE, POOL_GIVE, POOL_REF, POOL_UNREF, POOL_QUERY and POOL_RETIRE_SCRUB, R153 to R160, R165, Table POL-6: what each does to the buffer it
names, its generation and its class's free list, and the answer to the requester; memory changes only where a retired buffer is zeroed.
The Pool's refusals, R155, R159, R160: a class that is not configured, a group at its quota and an empty free list answer BAD_FIELD, POOL_QUOTA and
POOL_EMPTY; a handle that is stale, or of another owner, is a misuse: counted, with the buffers as they were. -/
def Obligations.PoolOperations : Prop :=
  ((∀ (s : State) (req : Fin 47) (c : Fin 32) (i : Nat) (rest : List Nat), let k := s.pclass c
    k.conf = true → ¬ (k.refcount = true ∧ 33 ≤ req.val ∧ req.val ≤ 39) →
    (k.firstCome = true ∨ s.charged c (groupOf req) < k.quota.getD (groupOf req) 0) → k.free = i :: rest →
    ∃ t, exec (.poolAlloc req c) s = .next t ∧ (t.pclass c).free = rest ∧
      t.buf i = (if k.refcount then ⟨.shared, req, 1, groupOf req⟩ else ⟨.owned, req, 0, groupOf req⟩) ∧
      t.rg R.POOL_USE_NOW c = (s.rg R.POOL_USE_NOW c + 1) % 2 ^ R.POOL_USE_NOW.width ∧
      t.out.getLast? = some (.port "pool" req [Sc.ok, handleOf i req (s.gen i)]) ∧ t.pool.gens = s.pool.gens ∧ t.mem = s.mem) ∧
  (∀ (s : State) (req : Fin 47) (h : BitVec 32) (c : Nat), s.classOf (hIndex h.toNat) = some c → s.stale h.toNat = false →
    s.owns req h.toNat = true → (s.pclass c).refcount = false →
    ∃ t, exec (.poolFree req h) s = .next t ∧ t.gen (hIndex h.toNat) = nextGen (s.gen (hIndex h.toNat)) ∧
      t.out.getLast? = some (.port "pool" req [Sc.ok, 0]) ∧ t.mem = s.mem ∧
      (if s.hasBad ((s.pclass c).addr (hIndex h.toNat)) (2 ^ (s.pclass c).size) then
        (t.buf (hIndex h.toNat)).st = .retired ∧ (t.pclass c).free = (s.pclass c).free
      else t.buf (hIndex h.toNat) = {} ∧ (t.pclass c).free = (s.pclass c).free ++ [hIndex h.toNat])) ∧
  (∀ (s : State) (req : Fin 47) (h : BitVec 32) (dst : Fin 64) (c : Nat), s.classOf (hIndex h.toNat) = some c →
    s.stale h.toNat = false → s.owns req h.toNat = true → (s.pclass c).refcount = false → dst.val ≤ 46 →
    ∃ t, exec (.poolGive req h dst) s = .next t ∧ t.buf (hIndex h.toNat) = { s.buf (hIndex h.toNat) with owner := dst } ∧
      t.out.getLast? = some (.port "pool" req [Sc.ok, handleOf (hIndex h.toNat) dst (hGen h.toNat)]) ∧
      t.pool.gens = s.pool.gens ∧ t.mem = s.mem) ∧
  (∀ (s : State) (req : Fin 47) (h : BitVec 32) (c : Nat), s.classOf (hIndex h.toNat) = some c →
    (s.pclass c).refcount = true → s.stale h.toNat = false → (s.buf (hIndex h.toNat)).count ≠ 255 →
    ∃ t, exec (.poolRef req h) s = .next t ∧
      t.buf (hIndex h.toNat) = { s.buf (hIndex h.toNat) with count := (s.buf (hIndex h.toNat)).count + 1 } ∧
      t.out.getLast? = some (.port "pool" req [Sc.ok, 0]) ∧ t.pool.gens = s.pool.gens ∧ t.mem = s.mem) ∧
  (∀ (s : State) (req : Fin 47) (h : BitVec 32) (c : Nat), s.classOf (hIndex h.toNat) = some c →
    (s.pclass c).refcount = true → s.stale h.toNat = false →
    ∃ t, exec (.poolUnref req h) s = .next t ∧ t.out.getLast? = some (.port "pool" req [Sc.ok, 0]) ∧ t.mem = s.mem ∧
      (1 < (s.buf (hIndex h.toNat)).count →
        t.buf (hIndex h.toNat) = { s.buf (hIndex h.toNat) with count := (s.buf (hIndex h.toNat)).count - 1 }) ∧
      ((s.buf (hIndex h.toNat)).count ≤ 1 → s.hasBad ((s.pclass c).addr (hIndex h.toNat)) (2 ^ (s.pclass c).size) = false →
        t.buf (hIndex h.toNat) = {} ∧ t.gen (hIndex h.toNat) = nextGen (s.gen (hIndex h.toNat)) ∧
        (t.pclass c).free = (s.pclass c).free ++ [hIndex h.toNat])) ∧
  (∀ (s : State) (req : Fin 47) (h : BitVec 32) (c : Nat), s.classOf (hIndex h.toNat) = some c →
    ∃ t, exec (.poolQuery req h) s = .next t ∧ t.pool.bufs = s.pool.bufs ∧ t.pool.gens = s.pool.gens ∧ t.mem = s.mem ∧
      t.out.getLast? = some (.port "pool" req [Sc.ok, (s.buf (hIndex h.toNat)).st.code, (s.buf (hIndex h.toNat)).owner,
        (s.buf (hIndex h.toNat)).count, (s.buf (hIndex h.toNat)).group, (s.pclass c).addr (hIndex h.toNat),
        s.gen (hIndex h.toNat), c])) ∧
  (∀ (s : State) (i : Fin 262144) (c : Nat), s.classOf i = some c → (s.buf i).st = .retired →
    let a := (s.pclass c).addr i
    ∃ t, exec (.poolRetireScrub i []) s = .next t ∧ t.buf i = {} ∧ (t.pclass c).free = (s.pclass c).free ++ [i.val] ∧
      (∀ k, k < 2 ^ (s.pclass c).size → t.byte (a + k) = 0) ∧ BytesBut s t a (2 ^ (s.pclass c).size))) ∧
  ((∀ (s : State) (req : Fin 47) (c : Fin 32), (s.pclass c).conf = false →
    ∃ t, exec (.poolAlloc req c) s = .next t ∧ t.out.getLast? = some (.port "pool" req [Sc.badField, 0]) ∧ t.pool = s.pool) ∧
  (∀ (s : State) (req : Fin 47) (c : Fin 32), (s.pclass c).conf = true → (s.pclass c).refcount = false →
    (s.pclass c).firstCome = false → (s.pclass c).quota.getD (groupOf req) 0 ≤ s.charged c (groupOf req) →
    ∃ t, exec (.poolAlloc req c) s = .next t ∧ t.out.getLast? = some (.port "pool" req [Sc.poolQuota, 0]) ∧
      t.pool.bufs = s.pool.bufs ∧ (t.pclass c).free = (s.pclass c).free ∧
      t.rg R.POOL_FAIL_QUOTA c = (s.rg R.POOL_FAIL_QUOTA c + 1) % 2 ^ R.POOL_FAIL_QUOTA.width) ∧
  (∀ (s : State) (req : Fin 47) (c : Fin 32), (s.pclass c).conf = true → (s.pclass c).refcount = false →
    (s.pclass c).firstCome = true → (s.pclass c).free = [] →
    ∃ t, exec (.poolAlloc req c) s = .next t ∧ t.out.getLast? = some (.port "pool" req [Sc.poolEmpty, 0]) ∧
      t.pool.bufs = s.pool.bufs ∧ t.rg R.POOL_FAIL_EMPTY c = (s.rg R.POOL_FAIL_EMPTY c + 1) % 2 ^ R.POOL_FAIL_EMPTY.width) ∧
  (∀ (s : State) (req : Fin 47) (h : BitVec 32) (c : Nat), c < 32 → s.classOf (hIndex h.toNat) = some c →
    (s.stale h.toNat = true →
      ∃ t, exec (.poolFree req h) s = .next t ∧ t.out.getLast? = some (.port "pool" req [Sc.poolDoubleFree, 0]) ∧
        t.pool.bufs = s.pool.bufs ∧ t.pool.gens = s.pool.gens ∧
        t.rg R.POOL_MISUSE_DOUBLE_FREE c = (s.rg R.POOL_MISUSE_DOUBLE_FREE c + 1) % 2 ^ R.POOL_MISUSE_DOUBLE_FREE.width) ∧
    (s.stale h.toNat = false → s.owns req h.toNat = false →
      ∃ t, exec (.poolFree req h) s = .next t ∧ t.out.getLast? = some (.port "pool" req [Sc.poolNotOwner, 0]) ∧
        t.pool.bufs = s.pool.bufs ∧ t.pool.gens = s.pool.gens ∧
        t.rg R.POOL_MISUSE_NOT_OWNER c = (s.rg R.POOL_MISUSE_NOT_OWNER c + 1) % 2 ^ R.POOL_MISUSE_NOT_OWNER.width)))

/-- PATROL_SCRUB, BAR4_ACCESS and LPDDR_TRAINING_DONE, R144 to R147, R151, R439: a correctable word is written back and counted, an uncorrectable one found
for the first time is held, counted and its address recorded; the open window reads and writes Infield bytes, the closed one reads 0 and ignores
writes; training that succeeds makes the fitted external memory usable and the device ready. -/
def Obligations.MemoryScrubWindowAndTraining : Prop :=
  (∀ (s : State) (w : Nat), s.inMem (8 * w) 8 = true → s.mem.bad.contains w = false → 8 * w < lpBase →
    (∃ t, exec (.patrolScrub w 1) s = .next t ∧ t.mem.soft.contains w = false ∧ t.mem.cells = s.mem.cells ∧ t.mem.bad = s.mem.bad ∧
      t.rg R.MEM_CE_INF = min (s.rg R.MEM_CE_INF + 1) (2 ^ 16 - 1)) ∧
    (s.mem.seen.contains w = false →
      ∃ t, exec (.patrolScrub w 2) s = .next t ∧ t.mem.bad.contains w = true ∧ t.mem.seen.contains w = true ∧ t.mem.cells = s.mem.cells ∧
        t.rg R.MEM_UE_INF = min (s.rg R.MEM_UE_INF + 1) (2 ^ 16 - 1) ∧ t.rg R.MEM_UE_ADDR_ADDR = 8 * w)) ∧
  (∀ (s : State) (off len : Nat) (bs : List Byte), s.flag R.DBG_CTL_BAR4_EN = true → off + len ≤ 0x0C000000 → 0 < len →
    (bs.length = len → ∃ t, exec (.bar4Access off len (some bs) []) s = .next t ∧ t.bytes off len = bs ∧ BytesBut s t off len) ∧
    (s.mem.bad = [] → ∃ t, exec (.bar4Access off len none []) s = .next t ∧ t.lastRead = leNat (s.bytes off len) ∧
      t.mem.cells = s.mem.cells)) ∧
  (∀ (s : State) (off len : Nat) (wr : Option (List Byte)), s.flag R.DBG_CTL_BAR4_EN = false →
    ∃ t, exec (.bar4Access off len wr []) s = .next t ∧ t.mem = s.mem ∧ (wr = none → t.lastRead = 0)) ∧
  (∀ (s : State) (ok : Bool), s.boot.up = true → s.flag R.MEM_STAT_TRAINED = false → s.boot.recCode = 0 →
    recF s.boot.rec_ 8 0 2 ≠ 0 →
    ∃ t, exec (.lpddrTrainingDone ok) s = .next t ∧ t.rg R.RST_STAT_READY = 1 ∧ t.rg R.BYK_CFG_READY = 1 ∧ t.mem = s.mem ∧
      t.rg R.MEM_STAT_LP_RATE = recF s.boot.rec_ 8 0 2 ∧ t.flag R.MEM_STAT_TRAINED = ok ∧
      (ok = true → t.rg R.MEM_STAT_LP_MIB = [2, 3, 4, 6, 8].getD (recF s.boot.rec_ 8 2 3) 0 * 3584))

/-- HEAT_RUN, SPLIT_TIME_REACHED, FINISH_LINE_REACHED, HEAT_COMMIT, HEAT_RELEASE and HEAT_WATCHDOG, R191 to R196, R265, R271, Table HEA-11: an admitted Heat
runs; a tap without a learned result is classical once its split time comes, and its stage stops; a radio Heat with results missing at its
finish line ends SLOT_MISSED and another is late; a Heat whose work is done writes its report, and nothing else, before it drains; a drained Heat frees
its slot; and a watchdog runs a Heat again from its first entry. -/
def Obligations.HeatsMoveThroughTheirStates : Prop :=
  (∀ (s : State) (slot : Fin 32) (h : Heat), s.heat slot = some h → h.st = .admitted →
    ∃ t, exec (.heatRun slot) s = .next t ∧ t.heat slot = some { h with st := .running, wdFrom := s.tk.localNs } ∧
      { t with heats := s.heats } = s) ∧
  (∀ (s : State) (slot : Fin 32) (tp : Fin 3) (h : Heat), s.heat slot = some h → h.live = true → h.split tp ≠ 0 →
    (h.tap tp).st = .open_ →
    let u := s.reach (h.split tp)
    ∃ t h', exec (.splitTimeReached slot tp) s = .next t ∧ t.heat slot = some h' ∧ (h'.tap tp).st = .classical ∧
      (h.tap tp).seg ∈ h'.lateSegs ∧ t.rg (fbLate tp) h.carrier = (u.rg (fbLate tp) h.carrier + 1) % 2 ^ (fbLate tp).width ∧
      t.mem = s.mem) ∧
  (∀ (s : State) (slot : Fin 32) (h : Heat), s.heat slot = some h → h.live = true → h.finish ≠ 0 → s.boot.reset = none →
    (h.radio = false → ∃ t, exec (.finishLineReached slot) s = .next t ∧ t.heat slot = some { h with late := true }) ∧
    (h.radio = true → h.downlink = false → h.jobsDone = false → ∃ t h', exec (.finishLineReached slot) s = .next t ∧
      t.heat slot = some h' ∧ h'.st = .draining ∧ h'.status = Sc.slotMissed)) ∧
  (∀ (s : State) (slot : Fin 32) (h : Heat), s.heat slot = some h → h.st = .running → h.radio = false → s.heatDone slot h = true →
    s.boot.reset = none → s.inMem h.report 64 = true → (s.reportBytes h).length = 64 →
    ∃ t h', exec (.heatCommit slot) s = .next t ∧ t.heat slot = some h' ∧ h'.st = .draining ∧ h'.status = h.endStatus ∧
      h'.doneNs = s.tk.ns ∧ t.bytes h.report 64 = s.reportBytes h' ∧ BytesBut s t h.report 64 ∧
      (∀ c, h.silent = false → TheCmd s h.ring h.cid c → t.cmd? h.ring h.cid = none)) ∧
  (∀ (s : State) (slot : Fin 32) (h : Heat), s.heat slot = some h → h.st = .draining → s.heatXfers slot = [] →
    ∃ t, exec (.heatRelease slot) s = .next t ∧ t.heat slot = none ∧ (∀ k : Fin 32, k ≠ slot → t.heat k = s.heat k) ∧
      t.mem = s.mem ∧ t.progs = s.progs) ∧
  (∀ (s : State) (slot : Fin 32) (h : Heat), s.heat slot = some h → h.st = .running → h.vl.any VLane.counts = true →
    (Inv s → h.radio = false → h.rerun = false → h.emitted = false →
      (List.range h.vl.length).any (fun v => s.flag R.LANE_STAT_HELD (s.laneOf h v)) = false →
      ∃ t h', exec (.heatWatchdog slot) s = .next t ∧ t.heat slot = some h' ∧ h'.st = .admitted ∧ h'.rerun = true ∧
        h'.tokens = [] ∧ h'.vl = startVls (s.imageOf h)) ∧
    (h.radio = true → ∃ t h', exec (.heatWatchdog slot) s = .next t ∧ t.heat slot = some h' ∧
      (∀ v x, h.vl[v]? = some x → x.counts = true → (h'.vl.getD v {}).run = .stopped)))

/-- TK_COMPARISON, R204, R208, R216, Table TKP-3: with the epoch known, the error of a PON or 1PPS source is TAI here less TAI there, of a Byklink
source TK_NS less the master's. An error within STEP_NS is slewed and moves TK_NS at no edge; a larger one is stepped at once where a step is permitted.
The eighth comparison in a row within LOCK_NS locks. -/
def Obligations.ComparisonsSlewStepAndLock : Prop :=
  (∀ (s : State) (tai : Nat) (ep : Option Nat), (s.rg R.TK_STAT_SRC = 1 ∨ s.rg R.TK_STAT_SRC = 2 ∨ s.rg R.TK_STAT_SRC = 3) →
    s.flag R.TK_STAT_EPOCH_VALID = true →
    let e := sext (toBits ((s.taiAt s.tk.ns : Int) - tai) 64) 64
    (e.natAbs ≤ s.rg R.TK_LIMITS_STEP * 100 → ∃ t, exec (.tkComparison tai ep) s = .next t ∧ t.tk.ns = s.tk.ns ∧
      t.tk.slewLeft = e * 2 ^ 32 ∧ t.rg R.TK_PHASE_ERR_E = satBits e 32 ∧ t.rg R.TK_STAT_STEP_PEND = 0 ∧ t.mem = s.mem) ∧
    (s.rg R.TK_LIMITS_STEP * 100 < e.natAbs → s.stepOk = true → ∃ t, exec (.tkComparison tai ep) s = .next t ∧
      t.tk.ns = ((s.tk.ns : Int) - e).toNat ∧ t.tk.slewLeft = 0 ∧ t.rg R.TK_STAT_STEP_PEND = 0 ∧ t.mem = s.mem) ∧
    (s.rg R.TK_LIMITS_STEP * 100 < e.natAbs → s.stepOk = false → ∃ t, exec (.tkComparison tai ep) s = .next t ∧
      t.tk.ns = s.tk.ns ∧ t.tk.slewLeft = e * 2 ^ 32 ∧ t.rg R.TK_STAT_STEP_PEND = 1 ∧ t.mem = s.mem) ∧
    (s.rg R.TK_STAT_STATE = 1 → s.tk.run = 7 → e.natAbs ≤ s.rg R.TK_LIMITS_LOCK_NS →
      ∃ t, exec (.tkComparison tai ep) s = .next t ∧ t.rg R.TK_STAT_STATE = 2)) ∧
  (∀ (s : State) (ns : Nat) (ep : Option Nat), s.rg R.TK_STAT_SRC = 4 → s.flag R.TK_STAT_EPOCH_VALID = true →
    ((s.tk.ns : Int) - ns).natAbs ≤ s.rg R.TK_LIMITS_STEP * 100 →
    ∃ t, exec (.tkComparison ns ep) s = .next t ∧ t.tk.ns = s.tk.ns ∧ t.tk.slewLeft = ((s.tk.ns : Int) - ns) * 2 ^ 32)

/-- PPS_IN_EDGE, TOD_RX_MESSAGE, TK_SOURCE_QUALIFIED, TK_SOURCE_LOST, TK_HOLDOVER_EXPIRED and TK_STEP_APPLY, R209 to R216, Table TKP-3 (0 FREE_RUN, 1
ACQUIRING, 2 LOCKED, 3 HOLDOVER, 4 HOLD_EXPIRED): a timely message with a right CHECK labels the next edge; the second unlabelled edge loses the
source; a qualified source is acquired; the loss of the only source begins holdover, which expires; and a step that waited removes the
error that is left. -/
def Obligations.TimeSourcesComeAndGo : Prop :=
  (∀ s : State, (s.tk.label = none → s.tk.unlabelled = 1 → ∃ t, exec .ppsInEdge s = .next t ∧ t.tk.qual.testBit 3 = false ∧
      t.tk.edge = some s.tk.localNs ∧ t.mem = s.mem) ∧
    (∀ sec, s.tk.label = some sec → s.rg R.TK_STAT_SRC ≠ 3 → ∃ t, exec .ppsInEdge s = .next t ∧ t.tk.unlabelled = 0 ∧
      t.tk.label = none ∧ t.tk.edge = some s.tk.localNs ∧ { t with tk := s.tk } = s)) ∧
  (∀ (s : State) (msg : List Byte) (after e : Nat), s.tk.edge = some e → msg.length = 9 → rec8 msg 0 = 0xA5 →
    100000000 ≤ after → after ≤ 900000000 → rec8 msg 8 = ((msg.take 8).map (·.toNat)).sum % 256 →
    let u := s.since e after
    ∃ t, exec (.todRxMessage msg after) s = .next t ∧ t.tk.label = some (recF msg 1 0 48) ∧ { t with tk := u.tk } = u) ∧
  (∀ (s : State) (src : Fin 5) (b : Nat), src ≠ 0 → (s.rg R.TK_STAT_STATE = 0 ∨ s.rg R.TK_STAT_STATE = 3 ∨ s.rg R.TK_STAT_STATE = 4) →
    ({ s with tk := { s.tk with qual := setBit s.tk.qual src } } : State).bestSource = some b → b < 16 →
    ∃ t, exec (.tkSourceQualified src) s = .next t ∧ t.rg R.TK_STAT_STATE = 1 ∧ t.rg R.TK_STAT_SRC = b % 2 ^ R.TK_STAT_SRC.width ∧
      t.tk.qual = setBit s.tk.qual src ∧ t.tk.run = 0 ∧ t.mem = s.mem) ∧
  (∀ (s : State) (src : Fin 5), src ≠ 0 → (s.rg R.TK_STAT_STATE = 1 ∨ s.rg R.TK_STAT_STATE = 2) → s.rg R.TK_STAT_SRC = src →
    ({ s with tk := { s.tk with qual := clearBit s.tk.qual src } } : State).bestSource = none → s.flag R.TK_STAT_EPOCH_VALID = true →
    ∃ t, exec (.tkSourceLost src) s = .next t ∧ t.rg R.TK_STAT_STATE = 3 ∧ t.rg R.TK_STAT_SRC = 0 ∧ t.tk.holdFrom = s.tk.localNs ∧
      t.tk.ns = s.tk.ns ∧ t.mem = s.mem) ∧
  (∀ s : State, s.rg R.TK_STAT_STATE = 3 →
    let sec := if s.flag R.TK_STAT_REF10M_OK then s.rg R.TK_HOLD_HOLD_SEC else 10
    ∃ t, exec .tkHoldoverExpired s = .next t ∧ t.rg R.TK_STAT_STATE = 4 ∧ s.tk.holdFrom + sec * 1000000000 ≤ t.tk.localNs ∧
      t.mem = s.mem) ∧
  (∀ s : State, s.flag R.TK_STAT_STEP_PEND = true → s.stepOk = true →
    s.rg R.TK_LIMITS_STEP * 100 < (s.tk.slewLeft.tdiv (2 ^ 32)).natAbs →
    ∃ t, exec .tkStepApply s = .next t ∧ t.tk.ns = ((s.tk.ns : Int) - s.tk.slewLeft.tdiv (2 ^ 32)).toNat ∧ t.tk.slewLeft = 0 ∧
      t.rg R.TK_STAT_STEP_PEND = 0 ∧ t.tk.localNs = s.tk.localNs ∧ t.mem = s.mem)

/-- REF10M_LOSS, REF10M_QUALIFIED, TK_NS_LO_READ, SYSREF_ARM, SYSREF_PULSE and PPS_OUT_PULSE, R206, R215, R221 to R223: the reference's flag follows it; a
read of TK_NS_LO latches the other time registers at the same instant; ARM gives a gapped output its COUNT and a one-shot one pulse, each of
which uses one up; and 1PPS pulses once for a TAI second, each later than the last. -/
def Obligations.TimeIsReadAndSentOut : Prop :=
  (∀ s : State, ∃ t, exec .ref10mLoss s = .next t ∧ t.rg R.TK_STAT_REF10M_OK = 0 ∧ OnlyRegs s t [R.TK_STAT_REF10M_OK.key 0 0]) ∧
  (∀ s : State, ∃ t, exec .ref10mQualified s = .next t ∧ t.rg R.TK_STAT_REF10M_OK = 1 ∧ OnlyRegs s t [R.TK_STAT_REF10M_OK.key 0 0]) ∧
  (∀ s : State, s.tk.ns < 2 ^ 64 → s.tk.frac < 2 ^ 32 → ∃ t, exec .tkNsLoRead s = .next t ∧
    t.rg R.TK_NS_HI_NS * 2 ^ 32 + t.lastRead = s.tk.ns ∧ t.rg R.TK_FRAC_FRAC = s.tk.frac ∧
    t.rg R.TK_NR_SFN * 10000000 + t.rg R.TK_NR_SUBFRAME * 1000000 + t.rg R.TK_NR_SUB_NS = s.nrPhase s.tk.ns ∧
    { t with regs := s.regs, lastRead := s.lastRead } = s) ∧
  (∀ (s : State) (n : Fin 4), ∃ t, exec (.sysrefArm n) s = .next t ∧ { t with tk := s.tk } = s ∧
    (s.rg R.SYSREF_CTL_MODE n = 3 → vget t.tk.sysArm n = 1) ∧
    (s.rg R.SYSREF_CTL_MODE n = 2 → s.rg R.SYSREF_CTL_COUNT n ≠ 0 → vget t.tk.sysArm n = s.rg R.SYSREF_CTL_COUNT n) ∧
    (∀ m : Fin 4, m ≠ n → vget t.tk.sysArm m = vget s.tk.sysArm m)) ∧
  (∀ (s : State) (n : Fin 4), (s.rg R.SYSREF_CTL_MODE n = 1 ∨
      (s.rg R.SYSREF_CTL_MODE n = 2 ∨ s.rg R.SYSREF_CTL_MODE n = 3) ∧ 0 < vget s.tk.sysArm n) →
    ∃ t w, exec (.sysrefPulse n) s = .next t ∧ t.out = s.out ++ [.port "sysref" n [s.sysrefNext n, w]] ∧
      vget t.tk.sysLast n = some (s.sysrefNext n) ∧
      (s.rg R.SYSREF_CTL_MODE n ≠ 1 → vget t.tk.sysArm n + 1 = vget s.tk.sysArm n) ∧ t.mem = s.mem) ∧
  (∀ s : State, s.flag R.TK_HOLD_PPS_EN = true → s.flag R.TK_STAT_EPOCH_VALID = true →
    (s.flag R.TK_HOLD_PPS_SQUELCH = false ∨ s.rg R.TK_STAT_STATE ≠ 4) →
    ∃ t sec, exec .ppsOutPulse s = .next t ∧ t.out = s.out ++ [.port "pps" 0 [sec]] ∧ t.tk.ppsSec = some sec ∧
      t.tk.ppsAt = t.tk.localNs ∧ (∀ p, s.tk.ppsSec = some p → p < sec ∧ s.tk.ppsAt + 500000000 ≤ t.tk.localNs) ∧ t.mem = s.mem)

/-- CARRIER_ACTIVATION_EFFECT, CARRIER_DEACTIVATION_EFFECT, JESD_LANE_LOCK, JESD_SYNC_TIMEOUT, JESD_ALIGN_DONE, JESD_LINK_LOSS, JESD_CRC_ERROR,
JESD_SYNCIN_CHANGE and JESD_TX_LINK_UP, R233 to R239, Tables RAD-2 and RAD-7 (0 HELD, 1 SYNC, 2 ALIGN, 3 UP, 4 FAULTED): a carrier's
change takes effect and completes its command; and what takes each link from one state to the next. -/
def Obligations.CarriersAndLinksChangeState : Prop :=
  (∀ (s : State) (c : Fin 4) (ring cid : Nat) (k : Cmd), (s.carrier c).pend = some (ring, cid, true) → TheCmd s ring cid k →
    ∃ t, exec (.carrierActivationEffect c) s = .next t ∧ (t.carrier c).active = true ∧ (t.carrier c).pend = none ∧
      (cRxAnt (s.carrier c).rec_ ≠ 0 → t.rg R.RADIO_LINK_STAT_STATE (2 * c) = 1) ∧ t.cmd? ring cid = none ∧ t.mem = s.mem) ∧
  (∀ (s : State) (c : Fin 4) (ring cid : Nat) (k : Cmd), (s.carrier c).pend = some (ring, cid, false) → TheCmd s ring cid k →
    ∃ t, exec (.carrierDeactivationEffect c) s = .next t ∧ (t.carrier c).active = false ∧ (t.carrier c).pend = none ∧
      t.rg R.RADIO_LINK_STAT_STATE (2 * c) = 0 ∧ t.rg R.RADIO_LINK_STAT_STATE (2 * c + 1) = 0 ∧ t.cmd? ring cid = none ∧ t.mem = s.mem) ∧
  (∀ (s : State) (c : Fin 4), s.rg R.RADIO_LINK_STAT_STATE (2 * c) = 1 →
    ∃ t, exec (.jesdLaneLock c) s = .next t ∧ t.rg R.RADIO_LINK_STAT_STATE (2 * c) = 2 ∧
      { t with regs := s.regs, radio := s.radio } = s ∧ RegsBut s t [R.RADIO_LINK_STAT_STATE.key (2 * c) 0]) ∧
  (∀ (s : State) (c : Fin 4), s.rg R.RADIO_LINK_STAT_STATE (2 * c) = 1 →
    ∃ t, exec (.jesdSyncTimeout c) s = .next t ∧ (vget t.radio.links (2 * c)).fails = (vget s.radio.links (2 * c)).fails + 1 ∧
      t.rg R.RADIO_LINK_STAT_STATE (2 * c) = (if (vget s.radio.links (2 * c)).fails < 2 then 1 else 4) ∧ t.mem = s.mem) ∧
  (∀ (s : State) (c : Fin 4) (ok : Bool) (margin : Int), s.rg R.RADIO_LINK_STAT_STATE (2 * c) = 2 →
    ∃ t, exec (.jesdAlignDone c ok margin) s = .next t ∧ t.mem = s.mem ∧
      t.rg R.RADIO_LINK_STAT_STATE (2 * c) = (if cModeB (s.carrier c).rec_ && !ok then 4 else if margin < 0 then 1 else 3) ∧
      (0 ≤ margin → (cModeB (s.carrier c).rec_ = false ∨ ok = true) →
        t.rg R.RADIO_LINK_STAT_MARGIN (2 * c) = min margin.toNat 255)) ∧
  (∀ (s : State) (c : Fin 4), s.rg R.RADIO_LINK_STAT_STATE (2 * c) = 3 →
    ∃ t, exec (.jesdLinkLoss c) s = .next t ∧ t.rg R.RADIO_LINK_STAT_STATE (2 * c) = 1 ∧ t.mem = s.mem ∧
      t.rg R.RADIO_LINK_STAT_DOWNS (2 * c) = (s.rg R.RADIO_LINK_STAT_DOWNS (2 * c) + 1) % 2 ^ R.RADIO_LINK_STAT_DOWNS.width) ∧
  (∀ (s : State) (c : Fin 4) (n : Nat), s.rg R.RADIO_LINK_STAT_STATE (2 * c) = 3 →
    ∃ t, exec (.jesdCrcError c n) s = .next t ∧
      t.rg R.RADIO_ERR_ERR (2 * c) = min (s.rg R.RADIO_ERR_ERR (2 * c) + n) (2 ^ R.RADIO_ERR_ERR.width - 1) ∧
      { t with regs := s.regs, pm := s.pm } = s ∧ RegsBut s t [R.RADIO_ERR_ERR.key (2 * c) 0]) ∧
  (∀ (s : State) (c : Fin 4), cModeB (s.carrier c).rec_ = true →
    (s.rg R.RADIO_LINK_STAT_STATE (2 * c + 1) = 1 → ∃ t, exec (.jesdSyncinChange c false) s = .next t ∧
      t.rg R.RADIO_LINK_STAT_STATE (2 * c + 1) = 2 ∧ t.mem = s.mem) ∧
    (s.rg R.RADIO_LINK_STAT_STATE (2 * c + 1) = 3 → ∃ t, exec (.jesdSyncinChange c true) s = .next t ∧
      t.rg R.RADIO_LINK_STAT_STATE (2 * c + 1) = 1 ∧ t.mem = s.mem)) ∧
  (∀ (s : State) (c : Fin 4), (s.carrier c).active = true → cTxAnt (s.carrier c).rec_ ≠ 0 →
    (if cModeB (s.carrier c).rec_ then s.rg R.RADIO_LINK_STAT_STATE (2 * c + 1) = 2
      else s.rg R.RADIO_LINK_STAT_STATE (2 * c + 1) = 0 ∨ s.rg R.RADIO_LINK_STAT_STATE (2 * c + 1) = 1) →
    ∃ t, exec (.jesdTxLinkUp c) s = .next t ∧ t.rg R.RADIO_LINK_STAT_STATE (2 * c + 1) = 3 ∧
      { t with regs := s.regs, radio := s.radio, log := s.log } = s ∧
      RegsBut s t [R.RADIO_LINK_STAT_STATE.key (2 * c + 1) 0])

/-- SLOT_TABLE_EFFECT, AGC_WINDOW_END, AGC_ENERGY_DETECT, AGC_FREEZE_START and AGC_FREEZE_END, R242 to R249: the oldest update of a slot table comes
into force entry by entry and completes its command; the gain loop attacks by the steps of R246, or releases one step after enough quiet windows, and holds
still while frozen; a detection freezes the gain and reports its symbol. -/
def Obligations.SlotTablesAndGainLoops : Prop :=
  (∀ (s : State) (c : Fin 4) (u : SlotUpd) (rest : List SlotUpd) (k : Cmd), (s.carrier c).upds = u :: rest → TheCmd s u.ring u.cid k →
    ∃ t, exec (.slotTableEffect c) s = .next t ∧ (t.carrier c).upds.length = rest.length ∧ t.cmd? u.ring u.cid = none ∧ t.mem = s.mem ∧
      (t.carrier c).tab = (u.entries.zipIdx).foldl (fun x e => modAt x (u.first + e.2) (fun _ => e.1)) (s.carrier c).tab) ∧
  (∀ (s : State) (p : Fin 8) (c : Nat) (peak mean : Int) (left : Nat), s.pairOwner p = some c → (s.carrier c).active = true →
    s.rg R.RADIO_LINK_STAT_STATE (2 * c) = 3 → s.flag R.AGC_STAT_FROZEN p = false → (s.agcOf p).manualPend = none →
    s.rg R.AGC_STAT_INDEX p ≤ 15 → (s.agcOf p).cfg.en = true →
    let a := (s.agcOf p).cfg
    let i := s.rg R.AGC_STAT_INDEX p
    let k := min (min (ceilDiv (peak - 100 * a.hi).toNat (50 * a.step) + 1) a.atkMax) (15 - i)
    (100 * a.hi ≤ peak → 0 < k → gainFits a k left = true →
      ∃ t, exec (.agcWindowEnd p peak mean left) s = .next t ∧ t.rg R.AGC_STAT_INDEX p = i + k ∧
        t.rg R.AGC_STAT_ATTACKS p = (s.rg R.AGC_STAT_ATTACKS p + 1) % 2 ^ R.AGC_STAT_ATTACKS.width ∧ t.mem = s.mem) ∧
    (peak < 100 * a.hi → mean ≤ 100 * a.lo → a.relN ≤ (s.agcOf p).quiet + 1 → 0 < i → gainFits a 1 left = true →
      ∃ t, exec (.agcWindowEnd p peak mean left) s = .next t ∧ t.rg R.AGC_STAT_INDEX p = i - 1 ∧
        t.rg R.AGC_STAT_RELEASES p = (s.rg R.AGC_STAT_RELEASES p + 1) % 2 ^ R.AGC_STAT_RELEASES.width ∧ t.mem = s.mem)) ∧
  (∀ (s : State) (p : Fin 8) (peak mean : Int) (left : Nat), s.flag R.AGC_STAT_FROZEN p = true →
    exec (.agcWindowEnd p peak mean left) s = .next s) ∧
  (∀ (s : State) (p : Fin 8) (sym : Fin 14), (s.pairOwner p).any (fun c => (s.carrier c).active) = true →
    (s.flag R.AGC_STAT_FROZEN p = false → ∃ t, exec (.agcEnergyDetect p sym) s = .next t ∧ t.rg R.AGC_STAT_FROZEN p = 1 ∧
      t.rg R.AGC_STAT_ED p = 1 ∧ (t.agcOf p).detSym = some sym.val ∧ { t with regs := s.regs, radio := s.radio } = s ∧
      RegsBut s t [R.AGC_STAT_FROZEN.key p 0, R.AGC_STAT_ED.key p 0]) ∧
    (∃ t, exec (.agcFreezeStart p) s = .next t ∧ t.rg R.AGC_STAT_FROZEN p = 1 ∧ t.rg R.AGC_STAT_ED p = 0 ∧
      OnlyRegs s t [R.AGC_STAT_FROZEN.key p 0, R.AGC_STAT_ED.key p 0])) ∧
  (∀ (s : State) (p : Fin 8), ∃ t, exec (.agcFreezeEnd p) s = .next t ∧ t.rg R.AGC_STAT_FROZEN p = 0 ∧ t.rg R.AGC_STAT_ED p = 0 ∧
    (t.agcOf p).detSym = none ∧ { t with regs := s.regs, radio := s.radio } = s ∧
    RegsBut s t [R.AGC_STAT_FROZEN.key p 0, R.AGC_STAT_ED.key p 0])

/-- SLOT_FIRST_SAMPLE, RX_SYMBOL and TX_SYMBOL, R234, R238, R242, R258, R259, R273, R276: at a slot's first sample the uplink Heat bound to it takes the
carrier's record and the slot's start, and a slot with U symbols and no Heat is counted; a received symbol joins its Heat's samples, as
zeros while the receive link is not UP; a D symbol's samples leave on the transmit link at its boundary less the advance, or are discarded and counted. -/
def Obligations.SymbolsEnterAndLeaveTheTracks : Prop :=
  (∀ (s : State) (c : Fin 4) (sfn : Fin 1024) (subframe : Fin 10) (slot : Fin 8), (s.carrier c).active = true →
    let t0 := s.slotAt (s.carrier c).rec_ sfn subframe slot s.tk.ns
    let u := (s.reach t0).slotBoundary c
    (∀ p, u.heatList.find? (fun p => p.2.live && p.2.onSlot c sfn subframe slot false) = some p →
      ∃ t, exec (.slotFirstSample c sfn subframe slot) s = .next t ∧
        t.heat p.1 = some { p.2 with firstSample := true, slotStart := t0 } ∧
        { t with heats := u.heats } = u ∧ ∀ k, k ≠ p.1 → t.heat k = u.heat k) ∧
    (u.heatList.all (fun p => !(p.2.live && p.2.onSlot c sfn subframe slot false)) = true →
      (∃ y : Fin 14, 2 ≤ s.symCode c sfn subframe slot y) →
      ∃ t, exec (.slotFirstSample c sfn subframe slot) s = .next t ∧
        t.rg R.TRK_NOHEAT_NOHEAT_UL c = (u.rg R.TRK_NOHEAT_NOHEAT_UL c + 1) % 2 ^ R.TRK_NOHEAT_NOHEAT_UL.width ∧
        { t with regs := u.regs, pm := u.pm } = u ∧ RegsBut u t [R.TRK_NOHEAT_NOHEAT_UL.key c 0])) ∧
  (∀ (s : State) (c : Fin 4) (sfn : Fin 1024) (subframe : Fin 10) (slot : Fin 8) (sym : Fin 14) (samples : List Nat)
      (clips : BitVec 8) (lost : List Nat),
    s.coreRuns = true → (s.carrier c).active = true → 2 ≤ s.symCode c sfn subframe slot sym →
    let r := (s.carrier c).rec_
    let u := s.reach (s.slotAt r sfn subframe slot s.tk.ns + symNs (cScs r) (14 * slot + sym + 1) - symNs (cScs r) (14 * slot))
    let bad := u.rg R.RADIO_LINK_STAT_STATE (2 * c) != 3
    let v := (u.clipCount c clips).isoExport c sfn subframe slot sym (if bad then [] else samples)
    (∀ p, v.heatList.find? (fun p => p.2.live && p.2.firstSample && p.2.onSlot c sfn subframe slot false && !p.2.got sym) = some p →
      ∃ t h, exec (.rxSymbol c sfn subframe slot sym samples clips lost) s = .next t ∧ t.heat p.1 = some h ∧
        h.rx = p.2.rx ++ [(sym.val, bad, if bad then samples.map (fun _ => 0) else samples)] ∧ t.tk = u.tk) ∧
    (v.heatList.all (fun p => !(p.2.live && p.2.firstSample && p.2.onSlot c sfn subframe slot false && !p.2.got sym)) = true →
      exec (.rxSymbol c sfn subframe slot sym samples clips lost) s = .next v)) ∧
  (∀ (s : State) (c : Fin 4) (sfn : Fin 1024) (subframe : Fin 10) (slot : Fin 8) (sym : Fin 14),
    s.coreRuns = true → (s.carrier c).active = true → cTxAnt (s.carrier c).rec_ ≠ 0 → s.symCode c sfn subframe slot sym = 0 →
    let r := (s.carrier c).rec_
    let t0 := s.slotAt r sfn subframe slot s.tk.ns + symNs (cScs r) (14 * slot + sym) - symNs (cScs r) (14 * slot) - cTxAdv r
    let u := (s.reach t0).txSettle c sfn subframe slot
    (u.rg R.RADIO_LINK_STAT_STATE (2 * c + 1) = 3 → ∃ t, exec (.txSymbol c sfn subframe slot sym) s = .next t ∧
      t.out = u.out ++ [.port "tx" c (t0 :: u.txSamples c slot sym ((u.carrier c).txOf sfn subframe slot))] ∧ { t with out := u.out } = u) ∧
    (u.rg R.RADIO_LINK_STAT_STATE (2 * c + 1) ≠ 3 → ∃ t, exec (.txSymbol c sfn subframe slot sym) s = .next t ∧
      (vget t.radio.links (2 * c + 1)).drops = (vget u.radio.links (2 * c + 1)).drops + symSamples r slot sym * cTxAnt r ∧
      { t with radio := u.radio } = u))

/-- DECODER_START, CODEWORD_DECODE_DONE, DECODER_PARITY_FAULT, ENCODE_CODEWORD_DONE and POLAR_DONE, R288 to R292, R300 to R309, R360, Table COD-4: a free
decoder takes the codeword at the head of its queue, one in a reservation its port's first and else, lent, the radio's; a codeword's
bits join its job and the decoder is free; a parity fault requeues the codeword at the head and the third in a second holds the decoder; the codeword with
the earliest finish line is encoded; the oldest polar request writes its result and completes. -/
def Obligations.DecodersTakeFinishAndFault : Prop :=
  (∀ (s : State) (d : Fin 16), let u := s.trackAll
    u.coreRuns = true → u.decFree d = true →
    (∀ w, (u.dec d).resv = none → (List.range 16).find? (fun k => u.decFree k && (u.dec k).resv.isNone) = some d.val → u.radioHead = some w →
      ∃ t, exec (.decoderStart d) s = .next t ∧ (t.dec d).work = some w ∧ (t.dec d).lent = false ∧ t.rgBit R.COD_STAT_BUSY d = true ∧
        t.rgBit R.COD_STAT_LENT d = false ∧ t.mem = u.mem ∧ t.heats = u.heats ∧
        RegsBut u t [R.COD_STAT_BUSY.key 0 0, R.COD_STAT_LENT.key 0 0]) ∧
    (∀ p : Fin 2, (u.dec d).resv = some p.val → u.ponWaits p = true →
      ∃ t, exec (.decoderStart d) s = .next t ∧ (t.dec d).work = some (.pon p) ∧ (t.dec d).lent = false ∧
        t.rgBit R.COD_STAT_BUSY d = true ∧ t.mem = u.mem ∧ t.heats = u.heats ∧
        RegsBut u t [R.COD_STAT_BUSY.key 0 0, R.COD_STAT_LENT.key 0 0]) ∧
    (∀ (p : Fin 2) w, (u.dec d).resv = some p.val → u.ponWaits p = false → u.inO5 p = false → u.coding.lendEn = true →
      (∀ k, k < 16 → u.decFree k = true → (u.dec k).resv ≠ none) → u.radioHead = some w →
      ∃ t, exec (.decoderStart d) s = .next t ∧ (t.dec d).work = some w ∧ (t.dec d).lent = true ∧
        t.rgBit R.COD_STAT_LENT d = true ∧ t.mem = u.mem ∧ t.heats = u.heats)) ∧
  (∀ (s : State) (d : Fin 16) (p : Fin 2) (pon : Option Nat), s.coreRuns = true → (s.dec d).work = some (.pon p) →
    ∃ t, exec (.codewordDecodeDone d pon) s = .next t ∧ (t.dec d).work = none ∧ t.rgBit R.COD_STAT_BUSY d = false ∧
      t.rg R.PON_FEC_CW_CW p = (s.rg R.PON_FEC_CW_CW p + 1) % 2 ^ R.PON_FEC_CW_CW.width ∧
      (∀ k, pon = some k → t.rg R.PON_FEC_CORR_CORR p = (s.rg R.PON_FEC_CORR_CORR p + k) % 2 ^ R.PON_FEC_CORR_CORR.width) ∧
      (pon = none → t.rg R.PON_FEC_UNC_UNC p = (s.rg R.PON_FEC_UNC_UNC p + 1) % 2 ^ R.PON_FEC_UNC_UNC.width) ∧
      { t with regs := s.regs, pm := s.pm, coding := s.coding } = s ∧
      RegsBut s t [R.COD_STAT_BUSY.key 0 0, R.COD_STAT_LENT.key 0 0, R.PON_FEC_CW_CW.key p 0,
        if pon.isSome then R.PON_FEC_CORR_CORR.key p 0 else R.PON_FEC_UNC_UNC.key p 0]) ∧
  (∀ (s : State) (d : Fin 16) (slot : Fin 32) (j c : Nat) (pon : Option Nat) (h : Heat) (x : Job), s.coreRuns = true →
    (s.dec d).work = some (.radio slot j c) → s.heat slot = some h → h.live = true → h.jobs[j]? = some x → x.result = none →
    jNew x.rec_ = true → x.cwOut.length + 1 ≠ jC x.rec_ →
    let b := recover x.rec_ (deinterleave (jQm x.rec_) ((x.llr.drop (jEoff x.rec_ c)).take (jE x.rec_ c)).toArray)
    let o := ldpcDecode x.rec_ ((List.range b.size).map (fun i => llr8 (b.getD i 0))).toArray
    ∃ t g y, exec (.codewordDecodeDone d pon) s = .next t ∧ (t.dec d).work = none ∧ t.rgBit R.COD_STAT_BUSY d = false ∧
      t.heat slot = some g ∧ g.jobs[j]? = some y ∧ y.cwOut = x.cwOut ++ [(c, o.1, o.2)] ∧ y.iters = max x.iters o.1 ∧ y.result = none ∧
      t.rg R.COD_CW_CW = (s.rg R.COD_CW_CW + 1) % 2 ^ R.COD_CW_CW.width) ∧
  (∀ (s : State) (d : Fin 16) (w : Work), (s.dec d).work = some w →
    let n := ((s.dec d).faults.filter (fun t => decide (s.tk.localNs < t + 1000000000))).length
    ∃ t, exec (.decoderParityFault d) s = .next t ∧ (t.dec d).work = none ∧ t.coding.again = w :: s.coding.again ∧
      t.rg R.COD_FAULT_FAULTS = (s.rg R.COD_FAULT_FAULTS + 1) % 2 ^ R.COD_FAULT_FAULTS.width ∧
      t.decHeld d = (s.decHeld d || decide (2 ≤ n)) ∧ (2 ≤ n → (t.dec d).resv = none) ∧ t.mem = s.mem ∧ t.heats = s.heats) ∧
  (∀ (s : State), s.coreRuns = true → s.coding.enc ≠ [] →
    ∃ m ∈ s.coding.enc, (∀ y ∈ s.coding.enc, m.1 ≤ y.1) ∧
      exec .encodeCodewordDone s = .next { s with coding := { s.coding with enc := s.coding.enc.erase m } }) ∧
  (∀ (s : State) (q : PolarReq) (rest : List PolarReq) (a b : Nat × Nat) (inp : List Byte) (u : State) (k : Cmd), s.coreRuns = true →
    s.coding.polar = q :: rest → TheCmd s q.ring q.cid k → s.handleMem (pIn q.desc) = some a → s.handleMem (pOut q.desc) = some b →
    s.readMem a.1 (pInBytes q.desc) = (some inp, u) →
    let o := (polarResult q.desc inp).1
    ∃ t, exec .polarDone s = .next t ∧ t.coding.polar = rest ∧ t.cmd? q.ring q.cid = none ∧ t.bytes b.1 o.length = o ∧
      BytesBut s t b.1 o.length)

/-- PON_DOWNSTREAM_FRAME, XGEM_FRAME and PON_BLOCK_TIMEOUT, R316 to R320, R324, R332, R338, R341, R360: on a synchronised port a frame latches its superframe count and
TK_NS, counts its codewords or queues them for the Hurdle decoders, counts PLOAM messages whose MIC failed, and brings a waiting EqD into force; an
XGEM frame of a known port is decrypted and its SDU built in a Pool buffer, and what is lost, unknown, unencrypted or without its
key is counted; on a port that is not synchronised neither does anything; an open block is dropped after 2 ms. -/
def Obligations.DownstreamFramesAreCountedAndReassembled : Prop :=
  (∀ (s : State) (p : Fin 2) (sf cws corr unc micFail : Nat), (s.port p).enabled = true → s.flag R.PON_STAT_SYNC p = true →
    (s.port p).frozen = false →
    let x := s.port p
    let lat := x.latches ++ [(sf % 2 ^ 51, s.tk.ns)]
    ∃ t, exec (.ponDownstreamFrame p sf cws corr unc micFail) s = .next t ∧ (t.port p).sf = some (sf % 2 ^ 51) ∧
      (t.port p).latches = lat.drop (lat.length - 16) ∧ t.tk.ns = s.tk.ns ∧
      (x.mode = 1 → (t.port p).wait = x.wait + cws) ∧
      (x.mode ≠ 1 → t.rg R.PON_FEC_CW_CW p = (s.rg R.PON_FEC_CW_CW p + cws) % 2 ^ R.PON_FEC_CW_CW.width ∧
        t.rg R.PON_FEC_CORR_CORR p = (s.rg R.PON_FEC_CORR_CORR p + corr) % 2 ^ R.PON_FEC_CORR_CORR.width ∧
        t.rg R.PON_FEC_UNC_UNC p = (s.rg R.PON_FEC_UNC_UNC p + unc) % 2 ^ R.PON_FEC_UNC_UNC.width) ∧
      (∀ v, x.eqdPend = some v → t.rg R.PON_EQD_EQD p = v % 2 ^ R.PON_EQD_EQD.width ∧ (t.port p).eqdPend = none)) ∧
  (∀ (s : State) (p : Fin 2), s.flag R.PON_STAT_SYNC p = false →
    (∀ sf cws corr unc micFail, exec (.ponDownstreamFrame p sf cws corr unc micFail) s = .next s) ∧
    (∀ hdrOk idle portId key lf icb payload, exec (.xgemFrame p hdrOk idle portId key lf icb payload) s = .next s)) ∧
  (∀ (s : State) (p : Fin 2) (portId : Fin 65536) (key : Fin 4) (lf : Bool) (icb : List Nat) (payload : List Byte),
    (s.port p).enabled = true → s.flag R.PON_STAT_SYNC p = true → (s.port p).frozen = false →
    (∀ idle, ∃ t, exec (.xgemFrame p false idle portId key lf icb payload) s = .next t ∧
      t.rg R.PON_FRAME_HEC_LOSS p = (s.rg R.PON_FRAME_HEC_LOSS p + 1) % 2 ^ R.PON_FRAME_HEC_LOSS.width ∧
      (t.port p).sdus = (s.port p).sdus.map (fun o => { o with skip := true }) ∧ t.mem = s.mem ∧
      RegsBut s t [R.PON_FRAME_HEC_LOSS.key p 0]) ∧
    exec (.xgemFrame p true true portId key lf icb payload) s = .next s ∧
    ((s.port p).findEntry false portId = none → ∃ t, exec (.xgemFrame p true false portId key lf icb payload) s = .next t ∧
      t.rg R.PON_FRAME_UNKNOWN_PORT p = (s.rg R.PON_FRAME_UNKNOWN_PORT p + 1) % 2 ^ R.PON_FRAME_UNKNOWN_PORT.width ∧
      { t with regs := s.regs, pm := s.pm } = s ∧ RegsBut s t [R.PON_FRAME_UNKNOWN_PORT.key p 0]) ∧
    (∀ (e : Nat) (en : XgemEntry), (s.port p).findEntry false portId = some (e, en) →
      (key.val = 0 → en.encReq = true → ∃ t, exec (.xgemFrame p true false portId key lf icb payload) s = .next t ∧
        t.rg R.PON_KEY_ENC_REQ p = (s.rg R.PON_KEY_ENC_REQ p + 1) % 2 ^ R.PON_KEY_ENC_REQ.width ∧ t.mem = s.mem) ∧
      (key.val ≠ 0 → s.xgemKey p en.bcast key = none → ∃ t, exec (.xgemFrame p true false portId key lf icb payload) s = .next t ∧
        t.rg R.PON_KEY_KEY_MISS p = (s.rg R.PON_KEY_KEY_MISS p + 1) % 2 ^ R.PON_KEY_KEY_MISS.width ∧ (t.port p).keyMiss = true ∧
        t.mem = s.mem) ∧
      (∀ k, key.val ≠ 0 → s.xgemKey p en.bcast key = some k → en.encReq = false →
        exec (.xgemFrame p true false portId key lf icb payload) s = exec (.xgemFrame p true false portId 0 lf icb
          ((ctrMode (roundKeys k) 128 icb (payload.map (·.toNat))).map (BitVec.ofNat 8))) s) ∧
      (key.val = 0 → en.encReq = false → (((s.port p).entry e).kind = 0 ∨ ((s.port p).entry e).kind = 1) → s.bonded p e = false →
        s.holdsOmci p e = false → s.openSdu p e = none →
        let a := s.alloc (portOwner p) ((s.port p).entry e).cls
        a.status = Sc.ok → payload.length ≤ 2 ^ (a.st.pclass ((s.port p).entry e).cls).size →
        ∃ t, exec (.xgemFrame p true false portId key lf icb payload) s = .next t ∧
          (lf = false → t.openSdu p e = some ⟨e, a.val, payload, false⟩ ∧ t.mem = s.mem) ∧
          (∀ m, lf = true → a.st.handleMem a.val = some m → t.bytes m.1 payload.length = payload ∧ BytesBut s t m.1 payload.length)))) ∧
  (∀ (s : State) (p : Fin 2) (e : Fin 256) (b : OpenBlock), s.openBlock p e = some b →
    let u := s.since b.since 2000000
    ∃ t, exec (.ponBlockTimeout p e) s = .next t ∧ t.openBlock p e = none ∧ t.tk = u.tk ∧ t.mem = s.mem ∧
      t.rg R.PON_BLOCK_BLOCK_DROP p = (u.rg R.PON_BLOCK_BLOCK_DROP p + 1) % 2 ^ R.PON_BLOCK_BLOCK_DROP.width)

/-- PON_SYNC_ACQUIRED, PON_SYNC_LOSS, PON_SYNC_REGAINED, PON_TO1_EXPIRY and PON_TO2_EXPIRY, R316, R333, R336, R351, R353, Table PON-5: synchronisation leaves
O1 for O2-3 where a profile is known and the laser permitted, and O6 for O5; its loss declares LOFS, and in O5 goes to O6 with TO2 running and the laser off; TO1
clears the ONU-ID and TO2 all activation data, and the port is in O1. -/
def Obligations.SynchronisationMovesActivation : Prop :=
  (∀ (s : State) (p : Fin 2) (row : Fin 2 → Instr), row = .ponSyncAcquired ∨ row = .ponSyncRegained → (s.port p).enabled = true →
    ∃ t, exec (row p) s = .next t ∧ t.rg R.PON_STAT_SYNC p = 1 ∧ (t.port p).sf = none ∧ t.mem = s.mem ∧ t.tk = s.tk ∧
      (s.rg R.PON_STAT_OSTATE p = 6 → t.rg R.PON_STAT_OSTATE p = 5 ∧ (t.port p).to2 = 0) ∧
      (s.rg R.PON_STAT_OSTATE p = 1 → (s.port p).profiles ≠ [] → s.laserPermit p = true → t.rg R.PON_STAT_OSTATE p = 2) ∧
      (s.rg R.PON_STAT_OSTATE p ≠ 1 → s.rg R.PON_STAT_OSTATE p ≠ 6 → t.rg R.PON_STAT_OSTATE p = s.rg R.PON_STAT_OSTATE p)) ∧
  (∀ (s : State) (p : Fin 2), s.flag R.PON_STAT_SYNC p = true →
    ∃ t, exec (.ponSyncLoss p) s = .next t ∧ t.rg R.PON_STAT_SYNC p = 0 ∧
      ((s.port p).mode ≠ 0 → (s.port p).frozen = false → (s.defect p 3).st = .clear → (t.defect p 3).st = .declared) ∧
      (s.isMember p = false → t.mem = s.mem) ∧
      (s.rg R.PON_STAT_OSTATE p = 5 → t.rg R.PON_STAT_OSTATE p = 6 ∧ t.rg R.PON_STAT_LASER p = 0 ∧ t.rg R.PON_STAT_PM p = 0 ∧
        (t.port p).to2 = s.tk.localNs + (s.port p).to2Ms * 1000000) ∧
      (s.rg R.PON_STAT_OSTATE p ≠ 5 → t.rg R.PON_STAT_OSTATE p = s.rg R.PON_STAT_OSTATE p)) ∧
  (∀ (s : State) (p : Fin 2), (s.rg R.PON_STAT_OSTATE p = 2 ∨ s.rg R.PON_STAT_OSTATE p = 4) → (s.port p).to1 ≠ 0 →
    let u := s.since (s.port p).to1 0
    u.rg R.PON_STAT_OSTATE p = s.rg R.PON_STAT_OSTATE p →
    ∃ t, exec (.ponTo1Expiry p) s = .next t ∧ t.rg R.PON_STAT_OSTATE p = 1 ∧ t.rg R.PON_STAT_ONU_ID p = 0 ∧ (t.port p).to1 = 0 ∧
      Store.get 0 (t.port p).allocs 0 = 0 ∧ t.rg R.PON_STAT_LASER p = 0 ∧ t.mem = s.mem ∧ t.tk = u.tk) ∧
  (∀ (s : State) (p : Fin 2), s.rg R.PON_STAT_OSTATE p = 6 →
    let u := s.since (s.port p).to2 0
    u.rg R.PON_STAT_OSTATE p = 6 →
    ∃ t, exec (.ponTo2Expiry p) s = .next t ∧ t.rg R.PON_STAT_OSTATE p = 1 ∧ t.rg R.PON_STAT_ONU_ID p = 0 ∧ t.rg R.PON_EQD_EQD p = 0 ∧
      (t.port p).allocs = [] ∧ (t.port p).uni = [] ∧ (t.port p).to2 = 0 ∧ t.rg R.PON_STAT_LASER p = 0 ∧ t.mem = s.mem ∧ t.tk = u.tk)

/-- BURST_FIX, BURST_START, BURST_END, SN_GRANT, SN_SEND and RANGING_GRANT, R326, R328 to R331, R333, R343, R355, R397, R398, Table DEF-3: 12 µs before its start a
burst's contents and its buffer reports are fixed; at its start it is sent while the laser is on, else counted and what it held returns; its end frees what it carried, pulses
the burst enable and drives a level that waited; grants of activation are answered in O2-3 and O4. -/
def Obligations.BurstsAreFixedSentAndEnded : Prop :=
  (∀ (s : State) (p : Fin 2) (start : Nat) (profile : Fin 4) (allocs : List (Nat × Nat × Bool × Bool)),
    (s.port p).enabled = true → s.rg R.PON_STAT_OSTATE p = 5 →
    let u := s.reach (start - 12000)
    ∃ t b, exec (.burstFix p start profile allocs) s = .next t ∧ (t.port p).bursts = (u.port p).bursts ++ [b] ∧ b.start = start ∧
      b.profile = profile.val ∧ b.started = false ∧ t.tk = u.tk ∧ t.mem.cells = s.mem.cells ∧
      (allocs = [] → b.body = [] ∧ b.pieces = [] ∧ b.dbru = []) ∧
      (∀ a k n, allocs = [(a, n, false, true)] → 4 ≤ n → (u.port p).allocIdx a = some k → b.dbru = [(a, u.dbru p k start)])) ∧
  (∀ (s : State) (p : Fin 2) (start : Nat) (profile : Fin 4) (allocs : List (Nat × Nat × Bool × Bool)), s.rg R.PON_STAT_OSTATE p ≠ 5 →
    exec (.burstFix p start profile allocs) s = .next s) ∧
  (∀ (s : State) (p : Fin 2) (b : Burst), (s.port p).bursts.find? (fun b => !b.started) = some b →
    let u := s.reach b.start
    (u.flag R.PON_STAT_LASER p = true → u.rg R.PON_STAT_OSTATE p = 5 →
      ∃ t, exec (.burstStart p) s = .next t ∧ t.mem = s.mem ∧ t.tk = u.tk ∧
        (t.port p).bursts = (s.port p).bursts.map (fun y => if y == b then { y with started := true } else y) ∧
        t.out = s.out ++ [.port "pon_burst" p ([b.start, b.profile, u.rg R.PON_DEF_RDI p + (if (s.port p).gasp then 2 else 0)] ++ b.body.flatMap (·.bytes))] ∧
        (u.rg R.PON_STAT_PM p = 1 → (b.sleep = some 1 ∨ b.sleep = some 2) → t.rg R.PON_STAT_PM p = 2 ∧
          (t.port p).frozen = (b.sleep == some 2) ∧ ((s.port p).gasp = false → t.rg R.PON_STAT_LASER p = 0))) ∧
    ((u.flag R.PON_STAT_LASER p = false ∨ u.rg R.PON_STAT_OSTATE p ≠ 5) →
      ∃ t, exec (.burstStart p) s = .next t ∧ t.mem = s.mem ∧ t.out = s.out ∧
        (t.port p).bursts = (s.port p).bursts.filter (fun y => !(y == b)) ∧ (t.port p).ploamQ = b.ploam ++ (s.port p).ploamQ ∧
        t.rg R.PON_BURST_SKIP_SKIP p = (u.rg R.PON_BURST_SKIP_SKIP p + 1) % 2 ^ R.PON_BURST_SKIP_SKIP.width)) ∧
  (∀ (s : State) (p : Fin 2) (ns : Nat) (b : Burst), (s.port p).bursts.find? (·.started) = some b →
    let u := s.reach (b.start + ns)
    let bits (n : Nat) := n * 1000000 / (s.port p).upKbps
    ∃ t, exec (.burstEnd p ns) s = .next t ∧ t.mem = s.mem ∧ t.tk = u.tk ∧
      (t.port p).bursts = (s.port p).bursts.filter (fun y => !(y == b)) ∧
      .port "opt_ben_low" p [b.start - bits (rec16 (vget s.optics p).rec_ 4), b.start + ns + bits (rec16 (vget s.optics p).rec_ 6)] ∈ t.out ∧
      ((s.port p).levelAck = true → u.rg R.OPT_STAT_STATE p = 3 →
        t.rg R.OPT_STAT_LEVEL p = (vget s.optics p).level % 2 ^ R.OPT_STAT_LEVEL.width ∧ (t.port p).levelAck = false)) ∧
  (∀ (s : State) (p : Fin 2), s.rg R.PON_STAT_OSTATE p = 2 →
    (∃ t, exec (.snGrant p) s = .next t ∧ (t.port p).snPend = true ∧ { t with ports := s.ports } = s) ∧
    ((s.port p).snPend = true → ∃ t, exec (.snSend p) s = .next t ∧ (t.port p).snPend = false ∧ t.mem = s.mem ∧
      (s.flag R.PON_STAT_LASER p = true → t.out = s.out ++ [.port "pon_ploam" p (upSerial :: (slice (s.port p).rec_ 24 8).map (·.toNat))] ∧
        t.regs = s.regs) ∧
      (s.flag R.PON_STAT_LASER p = false → t.out = s.out ∧
        t.rg R.PON_BURST_SKIP_SKIP p = (s.rg R.PON_BURST_SKIP_SKIP p + 1) % 2 ^ R.PON_BURST_SKIP_SKIP.width))) ∧
  (∀ (s : State) (p : Fin 2), s.rg R.PON_STAT_OSTATE p = 4 →
    (s.flag R.PON_STAT_LASER p = true → ∃ t, exec (.rangingGrant p) s = .next t ∧
      t.out = s.out ++ [.port "pon_ploam" p (upRegistration :: (slice (s.port p).rec_ 32 36).map (·.toNat))] ∧ { t with out := s.out } = s) ∧
    (s.flag R.PON_STAT_LASER p = false → ∃ t, exec (.rangingGrant p) s = .next t ∧
      t.rg R.PON_BURST_SKIP_SKIP p = (s.rg R.PON_BURST_SKIP_SKIP p + 1) % 2 ^ R.PON_BURST_SKIP_SKIP.width ∧
      { t with regs := s.regs, pm := s.pm } = s ∧ RegsBut s t [R.PON_BURST_SKIP_SKIP.key p 0]))

/-- The downstream PLOAM messages of activation, R331 to R333, R335, R337, Table PON-5, and their copies to the host: Burst_Profile, Assign_ONU-ID, Ranging_Time, Deactivate_ONU-ID
and Disable_Serial_Number. `u` is the state in which the message has been copied to the host. A disabled port ignores every message. -/
def Obligations.PloamDrivesActivation : Prop :=
  (∀ (s : State) (p : Fin 2) (index : Fin 4) (profile msg : List Byte), (s.port p).enabled = true → s.warm = false →
    let u := s.copyPloam p msg
    ∃ t, exec (.ploamBurstProfile p index profile msg) s = .next t ∧ t.mem = u.mem ∧
      (t.port p).profiles = (u.port p).profiles.filter (fun q => q.1 != index.val) ++ [(index.val, profile)] ∧
      (u.rg R.PON_STAT_OSTATE p = 1 → u.flag R.PON_STAT_SYNC p = true → u.laserPermit p = true → t.rg R.PON_STAT_OSTATE p = 2) ∧
      (u.rg R.PON_STAT_OSTATE p ≠ 1 → { t with ports := u.ports } = u)) ∧
  (∀ (s : State) (p : Fin 2) (onu : Fin 1024) (serial msg : List Byte), (s.port p).enabled = true → s.warm = false →
    let u := s.copyPloam p msg
    (u.rg R.PON_STAT_OSTATE p = 2 → serial = slice (u.port p).rec_ 24 8 →
      ∃ t, exec (.ploamAssignOnuId p onu serial msg) s = .next t ∧ t.rg R.PON_STAT_OSTATE p = 4 ∧ t.rg R.PON_STAT_ONU_ID p = onu ∧
        (t.port p).to1 = u.tk.localNs + (u.port p).to1Ms * 1000000 ∧ Store.get 0 (t.port p).allocs 0 = onu + 1 ∧ t.mem = u.mem) ∧
    ((u.rg R.PON_STAT_OSTATE p ≠ 2 ∨ serial ≠ slice (u.port p).rec_ 24 8) → exec (.ploamAssignOnuId p onu serial msg) s = .next u)) ∧
  (∀ (s : State) (p : Fin 2) (eqd : BitVec 32) (msg : List Byte), (s.port p).enabled = true → s.warm = false →
    let u := s.copyPloam p msg
    (u.rg R.PON_STAT_OSTATE p = 4 → ∃ t, exec (.ploamRangingTime p eqd msg) s = .next t ∧ t.rg R.PON_STAT_OSTATE p = 5 ∧
      (t.port p).eqdPend = some eqd.toNat ∧ (t.port p).to1 = 0 ∧ t.mem = u.mem) ∧
    (u.rg R.PON_STAT_OSTATE p = 5 → ∃ t, exec (.ploamRangingTime p eqd msg) s = .next t ∧ (t.port p).eqdPend = some eqd.toNat ∧
      { t with ports := u.ports } = u)) ∧
  (∀ (s : State) (p : Fin 2) (onu : Fin 1024) (msg : List Byte), (s.port p).enabled = true → s.warm = false →
    let u := s.copyPloam p msg
    2 ≤ u.rg R.PON_STAT_OSTATE p → u.rg R.PON_STAT_OSTATE p ≤ 6 →
    (onu.val = 1023 ∨ (4 ≤ u.rg R.PON_STAT_OSTATE p ∧ onu.val = u.rg R.PON_STAT_ONU_ID p)) →
    ∃ t, exec (.ploamDeactivateOnuId p onu msg) s = .next t ∧ t.rg R.PON_STAT_OSTATE p = 1 ∧ t.rg R.PON_STAT_ONU_ID p = 0 ∧
      t.rg R.PON_EQD_EQD p = 0 ∧ (t.port p).allocs = [] ∧ (t.port p).uni = [] ∧ (t.port p).to1 = 0 ∧ (t.port p).to2 = 0 ∧
      t.rg R.PON_STAT_LASER p = 0) ∧
  (∀ (s : State) (p : Fin 2) (serial : Option (List Byte)) (msg : List Byte), (s.port p).enabled = true → s.warm = false →
    let u := s.copyPloam p msg
    (serial = none ∨ serial = some (slice (u.port p).rec_ 24 8)) →
    (∃ t, exec (.ploamDisableSerialNumber p true serial msg) s = .next t ∧ t.rg R.PON_STAT_OSTATE p = 7 ∧ (t.port p).disabled = true ∧
      (u.rg R.PON_STAT_OSTATE p ≠ 7 → (u.port p).bursts.any (·.started) = false → t.rg R.PON_STAT_LASER p = 0)) ∧
    (u.rg R.PON_STAT_OSTATE p = 7 → ∃ t, exec (.ploamDisableSerialNumber p false serial msg) s = .next t ∧
      t.rg R.PON_STAT_OSTATE p = 1 ∧ (t.port p).disabled = false ∧ t.mem = u.mem)) ∧
  (∀ (s : State) (p : Fin 2) (index : Fin 4) (onu : Fin 1024) (eqd : BitVec 32) (disable : Bool) (serial : List Byte)
      (which : Option (List Byte)) (profile msg : List Byte),
    ∀ i ∈ [Instr.ploamBurstProfile p index profile msg, .ploamAssignOnuId p onu serial msg, .ploamRangingTime p eqd msg,
      .ploamDeactivateOnuId p onu msg, .ploamDisableSerialNumber p disable which msg], (s.port p).enabled = false → exec i s = .next s)

/-- The other downstream PLOAM messages, R328, R337 to R339, R342, R398, R421, R422, Table PON-7: Request_Registration, Assign_Alloc-ID, Key_Control, Sleep_Allow,
Change_Power_Level, Power_Consumption_Inquire and an unsupported one: each answer joins the upstream queue with whether an installed integrity key makes its
MIC; the key that Key_Control draws is a free value, reported under the key-encryption key; while the Marshal restarts messages are held. -/
def Obligations.PloamRequestsAreAnswered : Prop :=
  (∀ (s : State) (p : Fin 2) (msg : List Byte), (s.port p).enabled = true → s.warm = false →
    let u := s.copyPloam p msg
    let mic := if (u.slotKey 0 (8 + 4 * p)).isSome then 1 else 0
    let queued (t : State) (m : List Nat) : Prop := (t.port p).ploamQ = (u.port p).ploamQ ++ [m ++ [mic]]
    (u.hasOnu p = true →
      (∃ t, exec (.ploamRequestRegistration p msg) s = .next t ∧ queued t (u.registration p) ∧ { t with ports := u.ports } = u) ∧
      (∃ t, exec (.ploamPowerConsumptionInquire p msg) s = .next t ∧ queued t [upPower, u.pacer.powerMw] ∧ { t with ports := u.ports } = u) ∧
      (∀ (alloc : Fin 65535) (i : Nat), (∀ k, k < 32 → Store.get 0 (u.port p).allocs k ≠ alloc.val + 1) →
        (List.range 32).find? (fun k => k != 0 && Store.get 0 (u.port p).allocs k == 0) = some i →
        ∃ t, exec (.ploamAssignAllocId p alloc true msg) s = .next t ∧ Store.get 0 (t.port p).allocs i = alloc.val + 1 ∧
          queued t [upAck, 0] ∧ { t with ports := u.ports } = u) ∧
      (∀ (alloc : Fin 65535), (∀ k, k < 32 → Store.get 0 (u.port p).allocs k ≠ alloc.val + 1) →
        (∀ k, 0 < k → k < 32 → Store.get 0 (u.port p).allocs k ≠ 0) →
        ∃ t, exec (.ploamAssignAllocId p alloc true msg) s = .next t ∧ (t.port p).allocs = (u.port p).allocs ∧ queued t [upAck, 4]) ∧
      (∀ (alloc : Fin 65535) (i : Nat), (List.range 32).find? (fun k => Store.get 0 (u.port p).allocs k == alloc.val + 1) = some i →
        ∃ t, exec (.ploamAssignAllocId p alloc false msg) s = .next t ∧ Store.get 0 (t.port p).allocs i = 0 ∧
          queued t [upAck, 0] ∧ { t with ports := u.ports } = u) ∧
      (∀ (index : Fin 3) (at_ : Option Nat) (kek : List Nat), index.val ≠ 0 → u.slotKey 0 (kekSlot p) = some kek → u.cipher.rngOk = true →
        ∃ t, exec (.ploamKeyControl p index false at_ msg) s = .next t ∧
          (t.port p).keyNew = some (index.val, Config.freeValue 4 u.free % 2 ^ 128, at_) ∧
          queued t ([upKeyReport, index.val, 0] ++ aesEnc (roundKeys kek) (natBlock (Config.freeValue 4 u.free % 2 ^ 128))) ∧
          { t with ports := u.ports, free := u.free } = u) ∧
      (∀ (index : Fin 3) (confirm : Bool) (at_ : Option Nat), index.val ≠ 0 → (u.slotKey 0 (kekSlot p) = none ∨ u.cipher.rngOk = false) →
        ∃ t, exec (.ploamKeyControl p index confirm at_ msg) s = .next t ∧ t.ports = u.ports ∧ t.mem = u.mem ∧
          t.rg R.PON_PLOAM_PLOAM_UNSUP p = (u.rg R.PON_PLOAM_PLOAM_UNSUP p + 1) % 2 ^ R.PON_PLOAM_PLOAM_UNSUP.width) ∧
      (∃ t, exec (.ploamChangePowerLevel p 3 msg) s = .next t ∧ queued t [upAck, 4] ∧ { t with ports := u.ports } = u) ∧
      (∀ level : Fin 4, level.val < 3 → (u.port p).bursts.any (·.started) = false → u.rg R.OPT_STAT_STATE p = 3 →
        ∃ t, exec (.ploamChangePowerLevel p level msg) s = .next t ∧ t.rg R.OPT_STAT_LEVEL p = level ∧ queued t [upAck, 0] ∧
          { t with ports := u.ports, optics := u.optics, regs := u.regs } = u ∧ RegsBut u t [R.OPT_STAT_LEVEL.key p 0]) ∧
      (∀ level : Fin 4, level.val < 3 → (u.port p).bursts.any (·.started) = true →
        ∃ t, exec (.ploamChangePowerLevel p level msg) s = .next t ∧ (vget t.optics p).level = level ∧ (t.port p).levelAck = true ∧
          { t with ports := u.ports, optics := u.optics } = u)) ∧
    (u.psOn p = true →
      (u.rg R.PON_STAT_PM p = 0 → ∃ t, exec (.ploamSleepAllow p true msg) s = .next t ∧ t.rg R.PON_STAT_PM p = 1 ∧ t.mem = u.mem) ∧
      (u.rg R.PON_STAT_PM p = 1 → ∃ t, exec (.ploamSleepAllow p false msg) s = .next t ∧ t.rg R.PON_STAT_PM p = 0 ∧
        OnlyRegs u t [R.PON_STAT_PM.key p 0]) ∧
      ((u.rg R.PON_STAT_PM p = 2 ∨ u.rg R.PON_STAT_PM p = 3) → ∃ t, exec (.ploamSleepAllow p false msg) s = .next t ∧
        t.rg R.PON_STAT_PM p = 0 ∧ (t.port p).sleepQ = some 0 ∧ t.mem = u.mem)) ∧
    (∃ t, exec (.ploamUnsupported p msg) s = .next t ∧ { t with regs := u.regs, pm := u.pm } = u ∧
      t.rg R.PON_PLOAM_PLOAM_UNSUP p = (u.rg R.PON_PLOAM_PLOAM_UNSUP p + 1) % 2 ^ R.PON_PLOAM_PLOAM_UNSUP.width ∧
      RegsBut u t [R.PON_PLOAM_PLOAM_UNSUP.key p 0])) ∧
  (∀ (s : State) (p : Fin 2) (msg : List Byte), (s.port p).enabled = true → s.warm = true →
    ∃ t, exec (.ploamUnsupported p msg) s = .next t ∧ t.mem = s.mem ∧
      (t.port p).held = (if 32 ≤ (s.port p).held.length then (s.port p).held.drop 1 else (s.port p).held) ++ [.ploamUnsupported p msg])

/-- PON_SLEEP_REQUEST, PON_TLOWPOWER_EXPIRY, PON_TAWARE_EXPIRY, PON_WAKE_STIMULUS and PON_KEY_SWITCH, R339, R342, R343, Table PON-7 (PM: 0 ACTIVE_HELD, 1 ACTIVE_FREE, 2 LOW, 3 AWARE): a request
is queued after Thold while nothing forbids low power; Tlowpower and Taware move the port between LOW and AWARE; a local stimulus ends power saving, permits
the laser and queues Sleep_Request (Awake); the drawn key replaces the key of its index at the superframe named. -/
def Obligations.PowerSavingAndKeySwitch : Prop :=
  (∀ (s : State) (p : Fin 2), s.rg R.PON_STAT_PM p = 1 → s.psOn p = true → s.psCalm p = true → (s.port p).sleepQ = none →
    (s.port p).bursts.all (fun b => b.sleep.isNone) = true →
    let u := s.since (s.port p).pmFrom (rec16 (s.port p).pmRec 16 * 1000000)
    ∃ t, exec (.ponSleepRequest p) s = .next t ∧ (t.port p).sleepQ = some (if (s.port p).watchful then 2 else 1) ∧
      { t with ports := u.ports } = u) ∧
  (∀ (s : State) (p : Fin 2), (s.rg R.PON_STAT_PM p ≠ 1 ∨ s.psOn p = false ∨ s.psCalm p = false) →
    exec (.ponSleepRequest p) s = .next s) ∧
  (∀ (s : State) (p : Fin 2), s.rg R.PON_STAT_PM p = 2 →
    let u := s.since (s.port p).pmFrom ((s.port p).lowPowerMs * 1000000)
    ∃ t, exec (.ponTlowpowerExpiry p) s = .next t ∧ t.rg R.PON_STAT_PM p = 3 ∧ (t.port p).frozen = false ∧
      (t.port p).pmFrom = u.tk.localNs ∧ { t with regs := u.regs, ports := u.ports } = u ∧ RegsBut u t [R.PON_STAT_PM.key p 0]) ∧
  (∀ (s : State) (p : Fin 2), s.rg R.PON_STAT_PM p = 3 →
    let u := s.since (s.port p).pmFrom ((s.port p).awareMs * 1000000)
    ∃ t, exec (.ponTawareExpiry p) s = .next t ∧ t.rg R.PON_STAT_PM p = 2 ∧ (t.port p).frozen = (s.port p).watchful ∧
      (t.port p).pmFrom = u.tk.localNs ∧ { t with regs := u.regs, ports := u.ports } = u ∧ RegsBut u t [R.PON_STAT_PM.key p 0]) ∧
  (∀ (s : State) (p : Fin 2),
    (s.rg R.PON_STAT_PM p = 0 → exec (.ponWakeStimulus p) s = .next s) ∧
    (s.rg R.PON_STAT_PM p ≠ 0 → ∃ t, exec (.ponWakeStimulus p) s = .next t ∧ t.rg R.PON_STAT_PM p = 0 ∧ (t.port p).sleepQ = some 0 ∧
      (t.port p).frozen = false ∧ { t with regs := s.regs, ports := s.ports } = s ∧
      RegsBut s t [R.PON_STAT_PM.key p 0, R.PON_STAT_LASER.key p 0] ∧
      (s.laserPermit p = true → 2 ≤ s.rg R.PON_STAT_OSTATE p → s.rg R.PON_STAT_OSTATE p ≤ 5 → s.flag R.PON_DEF_LASER_HOLD p = false →
        t.rg R.PON_STAT_LASER p = 1))) ∧
  (∀ (s : State) (p : Fin 2) (i k : Nat) (at_ : Option Nat), (s.port p).keyNew = some (i, k, at_) →
    ((∀ a, at_ = some a → ∃ n, (s.port p).sf = some n ∧ a ≤ n) →
      ∃ t, exec (.ponKeySwitch p) s = .next t ∧ (t.port p).uni = (i, k) :: (s.port p).uni.filter (fun q => q.1 != i) ∧
        (t.port p).keyNew = none ∧ { t with ports := s.ports } = s) ∧
    (∀ a n, at_ = some a → (s.port p).sf = some n → n < a → exec (.ponKeySwitch p) s = .next s))

/-- DEFECT_CONDITION, DEFECT_ENTRY_MET, DEFECT_EXIT_MET and PM_SECOND_MARK, R348 to R352, R359 to R362, Tables DEF-1 to DEF-3: a condition starts and abandons the counts of entry and exit; a
count that is met declares the defect, which holds the laser off and is reported unless a defect above it is declared, or clears it; at a PM second the deltas
are latched and the mark moves to it. -/
def Obligations.DefectsPersistAndSecondsLatch : Prop :=
  (∀ (s : State) (p : Fin 2) (d : Fin 8), d.val < 3 → (s.port p).mode ≠ 0 → (s.port p).frozen = false →
    ((s.defect p d).st = .clear → ∃ t, exec (.defectCondition p d true) s = .next t ∧ (t.defect p d).st = .entering ∧
      (t.defect p d).since = s.tk.localNs ∧ t.rg R.PON_DEF_LASER_HOLD p = 1 ∧ t.rg R.PON_STAT_LASER p = 0 ∧ t.mem = s.mem) ∧
    ((s.defect p d).st = .entering → ∃ t, exec (.defectCondition p d false) s = .next t ∧ t.defect p d = {} ∧ t.mem = s.mem) ∧
    ((s.defect p d).st = .declared → ∃ t, exec (.defectCondition p d false) s = .next t ∧ (t.defect p d).st = .leaving ∧
      (t.defect p d).since = s.tk.localNs ∧ { t with ports := s.ports } = s) ∧
    ((s.defect p d).st = .leaving → ∃ t, exec (.defectCondition p d true) s = .next t ∧ (t.defect p d).st = .declared ∧
      { t with ports := s.ports } = s)) ∧
  (∀ (s : State) (p : Fin 2) (d : Fin 8), d.val < 3 → (s.port p).frozen = false →
    ((s.defect p d).st = .entering → ∃ t, exec (.defectEntryMet p d) s = .next t ∧ (t.defect p d).st = .declared ∧
      t.tk.localNs = max s.tk.localNs ((s.defect p d).since + entryNs d) ∧ t.rg R.PON_DEF_DECLARED p = t.defMask p Defect.declared ∧
      ((∀ k, k < d.val → (s.defect p k).declared = false) → t.rg R.PON_DEF_REPORTED p = 2 ^ d.val) ∧
      t.rg R.PON_DEF_LASER_HOLD p = 1 ∧ t.rg R.PON_STAT_LASER p = 0 ∧ (d.val = 0 → t.mem = s.mem)) ∧
    ((s.defect p d).st = .leaving → ∃ t, exec (.defectExitMet p d) s = .next t ∧ t.defect p d = {} ∧
      t.tk.localNs = max s.tk.localNs ((s.defect p d).since + exitNs d) ∧ t.rg R.PON_DEF_DECLARED p = t.defMask p Defect.declared ∧
      t.mem = s.mem)) ∧
  (∀ (s : State), ∃ t, exec .pmSecondMark s = .next t ∧ t.pm.mark = t.tk.ns ∧ t.pm.last = t.pm.acc ∧ t.tk.localNs ≥ s.tk.localNs ∧
    (s.tk.slewLeft = 0 → s.tk.frac < 2 ^ 32 → s.secAt s.pm.mark = s.taiAt s.tk.ns / 1000000000 →
      t.tk.ns = s.tk.ns + (1000000000 - s.taiAt s.tk.ns % 1000000000)))

/-- BOND_GAP_TIMEOUT, BOND_MEMBER_REJOIN, FRT_FRAME_GENERATE and FRT_FRAME_RECEIVE, R373, R378, R381 to R386, Tables BND-2 to BND-5: missing sequence numbers are skipped and counted and the SDU held
is passed on; a member that meets the rejoin criteria waits for the next frame; a tributary generates a frame, taking one byte more or less from its buffer where the fill is past
the threshold, and AIS where data is short; a received frame that is not valid is counted as lost, a valid one advances the buffer by its payload. -/
def Obligations.BondedSequencesAndTributaries : Prop :=
  (∀ (s : State) (portId : Fin 65536) (ex : Nat) (h : HeldSdu), (s.bondPort portId).expect = some ex → (s.bondPort portId).nearest ex = some h →
    let u := s.since ((s.bondPort portId).held.foldl (fun m k => min m k.at_) h.at_) (s.skewNs.natAbs + s.bond.gapWait * 1000)
    ∃ t, exec (.bondGapTimeout portId) s = .next t ∧ t.tk = u.tk ∧ (∀ k ∈ (t.bondPort portId).held, k.seq ≠ h.seq) ∧
      t.rg R.BND_SEQ_SEQ_LOSS = (u.rg R.BND_SEQ_SEQ_LOSS + seq24 h.seq ex) % 2 ^ R.BND_SEQ_SEQ_LOSS.width) ∧
  (∀ (s : State) (p : Fin 2) (c : Nat), vget s.bond.clearAt p = some c → (s.bndState = 3 ∨ s.bndState = 4) → s.isMember p = false →
    s.inO5 p = true → 64 ≤ s.bond.count → s.skewNs.natAbs ≤ 40000 → p.val ∉ s.bond.readmit →
    let u := s.since c 100000000
    ∃ t, exec (.bondMemberRejoin p) s = .next t ∧ t.bond.readmit = s.bond.readmit ++ [p.val] ∧ { t with bond := u.bond } = u) ∧
  (∀ (s : State) (t : Fin 16), s.flag R.FRT_STAT_EN t = true → (s.frt t).up = true →
    let x := s.frt t
    let w := x.waiting ++ [(s.frtMake t).1]
    let rd := s.frtRd x
    let f : Nat := (s.frtWr x + 2 ^ 64 - rd) % 2 ^ 64
    let d : Int := (f : Int) - (x.n : Int) - (x.centre : Int)
    ∃ y, exec (.frtFrameGenerate t) s = .next y ∧ (y.frt t).waiting = (if 16 < w.length then w.drop 1 else w) ∧
      y.rg R.FRT_STAT_FRAMES t = (s.rg R.FRT_STAT_FRAMES t + 1) % 2 ^ R.FRT_STAT_FRAMES.width ∧ (y.frt t).seq = (x.seq + 1) % 256 ∧
      (x.slip = false → f ≤ x.cap → f < x.n - 1 → y.mem = s.mem ∧
        (s.frtMake t).1 = frtFrame t x true x.ptr 0 0 (List.replicate x.n 0xFF)) ∧
      (x.slip = false → f ≤ x.cap → x.n - 1 ≤ f → d > (x.thresh : Int) → y.frtRd x = (rd + x.n + 1) % 2 ^ 64 ∧
        (y.frt t).ptr = (x.ptr + x.n - 1) % x.n ∧ y.rg R.FRT_ADJ_NJ t = (s.rg R.FRT_ADJ_NJ t + 1) % 2 ^ R.FRT_ADJ_NJ.width) ∧
      (x.slip = false → f ≤ x.cap → x.n - 1 ≤ f → d < -(x.thresh : Int) → y.frtRd x = (rd + x.n - 1) % 2 ^ 64 ∧
        (y.frt t).ptr = (x.ptr + 1) % x.n ∧ y.rg R.FRT_ADJ_PJ t = (s.rg R.FRT_ADJ_PJ t + 1) % 2 ^ R.FRT_ADJ_PJ.width) ∧
      (x.slip = false → f ≤ x.cap → x.n - 1 ≤ f → d ≤ (x.thresh : Int) → -(x.thresh : Int) ≤ d → s.mem.bad = [] →
        y.frtRd x = (rd + x.n) % 2 ^ 64 ∧ (y.frt t).ptr = x.ptr ∧
        (s.frtMake t).1 = frtFrame t x false x.ptr 0 0 ((List.range x.n).map (fun k => s.byte (x.buf + (rd + k) % x.cap))))) ∧
  (∀ (s : State) (p : Fin 2) (e : Fin 256) (sdu : List Byte) (n : Nat), s.frtOf p e = some n →
    let x := s.frt n
    let ok := crc8 (sdu.take 7) == rec8 sdu 7 && recF sdu 5 0 14 == x.n && sdu.length == 8 + x.n && recF sdu 0 0 4 == n &&
      (recF sdu 0 4 1 == 1) == x.slip
    (ok = false → ∃ t, exec (.frtFrameReceive p e sdu) s = .next t ∧ t.rg R.FRT_ERR_LOST n = (s.rg R.FRT_ERR_LOST n + 1) % 2 ^ R.FRT_ERR_LOST.width ∧
      { t with regs := s.regs, pm := s.pm, frts := s.frts } = s ∧ RegsBut s t [R.FRT_ERR_LOST.key n 0] ∧
      t.frt n = { s.frt n with bad := (s.frt n).bad + 1 } ∧ (∀ m, m < 16 → m ≠ n → t.frt m = s.frt m)) ∧
    (ok = true → (x.port ≠ 2 ∨ x.lastSeq ≠ some (rec8 sdu 1)) →
      ∃ t, exec (.frtFrameReceive p e sdu) s = .next t ∧ (t.frt n).lastSeq = some (rec8 sdu 1) ∧ (t.frt n).got = true ∧
        t.rg R.FRT_STAT_FRAMES n = (s.rg R.FRT_STAT_FRAMES n + 1) % 2 ^ R.FRT_STAT_FRAMES.width ∧
        (recF sdu 0 5 1 = 1 → t.mem = s.mem) ∧
        (∀ l, recF sdu 0 5 1 = 0 → x.slip = false → recF sdu 2 13 2 = 0 → x.lastSeq = some l → recF sdu 2 0 13 = x.ptr % x.n →
          x.n ≤ s.frtRoom x → t.frtWr x = (s.frtWr x + x.n) % 2 ^ 64) ∧
        (recF sdu 0 5 1 = 0 → x.slip = true → (s.frtWr x + 2 ^ 64 - s.frtRd x) % 2 ^ 64 < x.centre + 2 * x.n →
          x.n ≤ (s.frtWr x + 2 ^ 64 - s.frtRd x) % 2 ^ 64 → t.frtWr x = (s.frtWr x + x.n) % 2 ^ 64)))

/-- OPTIC_INSERT, OPTIC_SETTLED, OPTIC_IDENTIFY_DONE, OPTIC_TX_FAULT, OPTIC_TX_REPERMIT, OPTIC_REMOVE, OPTIC_MONITOR_POLL and OPTIC_LEDGER_WRITE, R390 to R405, Tables OPT-2 to OPT-4 (0 EMPTY,
1 SETTLING, 2 IDENTIFYING, 3 ACCEPTED, 4 REJECTED, 5 FAULT): what takes an optic from each state to the next, when its laser is off, and where its ledger is written. -/
def Obligations.OpticsMoveThroughTheirStates : Prop :=
  (∀ (s : State) (p : Fin 2), s.rg R.OPT_STAT_STATE p = 0 →
    ∃ t, exec (.opticInsert p) s = .next t ∧ t.rg R.OPT_STAT_STATE p = 1 ∧ (t.defect p 0).st = .clear ∧ t.mem = s.mem ∧
      (t.port p).raw.testBit 0 = false ∧
      t.tk.localNs = (if (s.defect p 0).st = .leaving then max s.tk.localNs ((s.defect p 0).since + 100000000) else s.tk.localNs)) ∧
  (∀ (s : State) (p : Fin 2), s.rg R.OPT_STAT_STATE p = 1 →
    ∃ t, exec (.opticSettled p) s = .next t ∧ t.rg R.OPT_STAT_STATE p = 2 ∧ t.mem = s.mem ∧
      t.tk.localNs = max s.tk.localNs ((s.optic p).since + 300000000)) ∧
  (∀ (s : State) (p : Fin 2) (ok : Bool), s.rg R.OPT_STAT_STATE p = 2 →
    (∃ t, exec (.opticIdentifyDone p none ok) s = .next t ∧ t.rg R.OPT_STAT_STATE p = 4 ∧ t.rg R.OPT_STAT_REASON p = 7 ∧ t.mem = s.mem ∧
      t.rg R.OPT_FAULT_I2C p = (s.rg R.OPT_FAULT_I2C p + 1) % 2 ^ R.OPT_FAULT_I2C.width) ∧
    (∀ a0 a2 s0 s1,
      let o := { s.optic p with a0 := a0, a2 := a2, slot0 := s0, slot1 := s1 }
      let r := s.rejectReason o
      let overridden := r == 6 && s.overrides.contains o.ident
      ∃ t, exec (.opticIdentifyDone p (some (a0, a2, s0, s1)) ok) s = .next t ∧ t.mem = s.mem ∧
        ((r = 0 ∨ overridden = true) → t.rg R.OPT_STAT_STATE p = 3 ∧ t.rg R.OPT_STAT_REASON p = 0) ∧
        (r ≠ 0 → overridden = false → t.rg R.OPT_STAT_STATE p = 4 ∧ t.rg R.OPT_STAT_REASON p = r) ∧
        t.rg R.OPT_STAT_OVERRIDE p = (if overridden then 1 else 0))) ∧
  (∀ (s : State) (p : Fin 2) (sent : Nat),
    let n := (s.rg R.OPT_FAULT_TXF p + 1) % 2 ^ R.OPT_FAULT_TXF.width
    (s.rg R.OPT_STAT_STATE p = 3 → ∃ t, exec (.opticTxFault p sent) s = .next t ∧ t.rg R.OPT_FAULT_TXF p = n ∧ t.rg R.PON_STAT_LASER p = 0 ∧
      t.mem = s.mem ∧ (t.optic p).lastFault = some s.tk.localNs ∧
      (if (s.optic p).lastFault.any (fun x => decide (s.tk.localNs < x + 60000000000)) then t.rg R.OPT_STAT_STATE p = 5
        else t.rg R.OPT_STAT_STATE p = 3 ∧ (t.optic p).txHold = true)) ∧
    (s.rg R.OPT_STAT_STATE p ≠ 3 → ∃ t, exec (.opticTxFault p sent) s = .next t ∧ t.rg R.OPT_FAULT_TXF p = n ∧
      { t with regs := s.regs, pm := s.pm } = s ∧ RegsBut s t [R.OPT_FAULT_TXF.key p 0])) ∧
  (∀ (s : State) (p : Fin 2), (s.optic p).txHold = true →
    ∃ t, exec (.opticTxRepermit p) s = .next t ∧ (t.optic p).txHold = false ∧ t.mem = s.mem ∧
      t.tk.localNs = max s.tk.localNs ((s.optic p).lastFault.getD s.tk.localNs + 10000000)) ∧
  (∀ (s : State) (p : Fin 2) (sent : Nat), s.rg R.OPT_STAT_STATE p ≠ 0 →
    ∃ t, exec (.opticRemove p sent) s = .next t ∧ t.rg R.OPT_STAT_STATE p = 0 ∧ t.rg R.PON_STAT_LASER p = 0 ∧ (t.optic p).ledger = [] ∧
      (t.optic p).a0 = [] ∧ t.mem = s.mem ∧ t.rg R.OPT_STAT_REASON p = 0 ∧ (t.port p).raw.testBit 0 = true ∧
      ((s.port p).mode ≠ 0 → (s.port p).frozen = false → (s.defect p 0).st = .clear → (t.defect p 0).st = .entering)) ∧
  (∀ (s : State) (p : Fin 2) (ok : Bool), (s.rg R.OPT_STAT_STATE p = 3 ∨ s.rg R.OPT_STAT_STATE p = 5) →
    (∃ t, exec (.opticMonitorPoll p none ok) s = .next t ∧ (t.optic p).sinceWrite = (s.optic p).sinceWrite + 1 ∧
      t.rg R.OPT_FAULT_I2C p = (s.rg R.OPT_FAULT_I2C p + 1) % 2 ^ R.OPT_FAULT_I2C.width ∧
      { t with regs := s.regs, pm := s.pm, optics := s.optics } = s ∧ RegsBut s t [R.OPT_FAULT_I2C.key p 0]) ∧
    (∀ d, ∃ t, exec (.opticMonitorPoll p (some d) ok) s = .next t ∧ (t.optic p).diag = d ∧
      t.rg R.OPT_BIAS_NOW p = d.getD 2 0 % 65536 ∧ t.mem = s.mem) ∧
    ((s.optic p).ledgerS ≤ (s.optic p).sinceWrite → (s.optic p).ledger ≠ [] → s.flag R.PWR_RAIL_PWR_FAIL = false →
      s.flag R.OPT_STAT_LEDGER_RO p = false →
      let r := sealLedger (putRec (putRec (s.optic p).ledger 4 4 ((ledgerSeq (s.optic p).ledger + 1) % 2 ^ 32)) 24 4 (s.secAt s.tk.ns % 2 ^ 32))
      ∃ t, exec (.opticLedgerWrite p ok) s = .next t ∧ (t.optic p).ledger = r ∧ (t.optic p).sinceWrite = 0 ∧ t.mem = s.mem ∧
        (ok = true → (if (s.optic p).newer = some 0 then (t.optic p).slot1 = r else (t.optic p).slot0 = r)) ∧
        (ok = false → t.rg R.OPT_STAT_LEDGER_RO p = 1)))

/-- CIPH_LOCK_REQ, CIPH_LOCK_REL, CIPH_LEASE_EXPIRY, KEY_COMMIT and KEY_ERASE, R415 to R417, R425, Table CIP-4: a free lock is taken and every page shows it; a release, or the end of a
lease with no session part in flight, frees it and zeroes the session; a commit installs the staged key, zeroes the staging words and shows the key's check value, or is refused; an
erase zeroes a slot that nothing uses, or is refused. -/
def Obligations.KeysAndTheSharedLock : Prop :=
  (∀ (s : State) (u : Fin 8), s.cipher.holder = none →
    ∃ t, exec (.ciphLockReq u) s = .next t ∧ t.cipher.holder = some u.val ∧ t.cipher.session = none ∧ t.cipher.leaseFrom = s.tk.localNs ∧
      t.rg R.CIPH_LOCK_HELD 0 u = 1 ∧ t.rg R.CIPH_LOCK_OWNER 0 0 = u ∧ (∀ v : Fin 8, v ≠ u → t.rg R.CIPH_LOCK_HELD 0 v = 0 ∧ t.rg R.CIPH_LOCK_BUSY 0 v = 1) ∧
      { t with regs := s.regs, cipher := s.cipher } = s ∧ t.cipher.keys = s.cipher.keys) ∧
  (∀ (s : State) (u : Fin 8) (h : Nat), s.cipher.holder = some h → exec (.ciphLockReq u) s = .next s) ∧
  (∀ (s : State) (u : Fin 8), s.cipher.holder = some u.val →
    (s.cipher.jobs.any (·.2.2) = false → ∃ t, exec (.ciphLockRel u) s = .next t ∧ t.cipher.holder = none ∧ t.cipher.session = none ∧
      t.rg R.CIPH_LOCK_HELD 0 u = 0 ∧ { t with regs := s.regs, cipher := s.cipher } = s ∧ t.cipher.keys = s.cipher.keys) ∧
    (s.cipher.jobs.any (·.2.2) = true → ∃ t, exec (.ciphLockRel u) s = .next t ∧ t.cipher.holder = some u.val ∧ t.cipher.relPend = true ∧
      { t with cipher := s.cipher } = s)) ∧
  (∀ (s : State) (u : Fin 8), s.cipher.holder ≠ some u.val → exec (.ciphLockRel u) s = .next s) ∧
  (∀ (s : State) (h : Nat), s.cipher.holder = some h →
    let queued := s.host.cmds.any (fun c => c.user == h && c.opcode == 0x70 && !c.done && c.arg 8 4 2 != 0)
    let u := s.since s.cipher.leaseFrom (s.leaseUs h * 1000)
    (queued = true → exec .ciphLeaseExpiry s = .next s) ∧
    (queued = false → ∃ t, exec .ciphLeaseExpiry s = .next t ∧ t.cipher.holder = none ∧ t.cipher.session = none ∧ t.tk = u.tk ∧ t.mem = s.mem ∧
      t.cipher.keys = s.cipher.keys ∧ t.host = s.host ∧
      t.rg R.CIPH_STAT_LOCK_LOST 0 0 = (u.rg R.CIPH_STAT_LOCK_LOST 0 0 + 1) % 2 ^ R.CIPH_STAT_LOCK_LOST.width)) ∧
  (∀ (s : State) (u : Fin 8) (slot : Fin 16) (len : Fin 2) (usage : Fin 32),
    let key := s.staged u len
    (s.commitBad u slot len usage = false → ∃ t, exec (.keyCommit u slot len usage) s = .next t ∧ t.slotKey u slot = some key ∧
      t.rg R.KEY_STAT_VALID slot u = 1 ∧ t.rg R.KEY_STAT_LEN slot u = len ∧ t.rg R.KEY_STAT_USAGE slot u = usage ∧
      t.rg R.KEY_STAT_KCV slot u = kcvOf key % 2 ^ 24 ∧ (∀ i : Fin 8, t.rg R.KEY_STAGE_WORD i u = 0) ∧
      { t with regs := s.regs, cipher := s.cipher } = s ∧ t.cipher.holder = s.cipher.holder) ∧
    (s.commitBad u slot len usage = true → ∃ t, exec (.keyCommit u slot len usage) s = .next t ∧ t.rg R.CIPH_STAT_CFG_REJ 0 u = 1 ∧
      (∀ i : Fin 8, t.rg R.KEY_STAGE_WORD i u = 0) ∧
      OnlyRegs s t (R.CIPH_STAT_CFG_REJ.key 0 u :: (List.range 8).map (fun i => R.KEY_STAGE_WORD.key i u)))) ∧
  (∀ (s : State) (u : Fin 8) (slot : Fin 16),
    (s.slotBusy u slot = false → (slot.val < 8 ∨ u = 0) → ∃ t, exec (.keyErase u slot) s = .next t ∧ t.slotKey u slot = none ∧
      t.rg R.KEY_STAT_VALID slot u = 0 ∧ t.rg R.KEY_STAT_KCV slot u = 0 ∧ { t with regs := s.regs, cipher := s.cipher } = s ∧
      RegsBut s t [R.KEY_STAT_VALID.key slot u, R.KEY_STAT_LEN.key slot u, R.KEY_STAT_USAGE.key slot u, R.KEY_STAT_KCV.key slot u]) ∧
    ((s.slotBusy u slot = true ∨ (8 ≤ slot.val ∧ u ≠ 0)) → ∃ t, exec (.keyErase u slot) s = .next t ∧ t.rg R.CIPH_STAT_CFG_REJ 0 u = 1 ∧
      OnlyRegs s t [R.CIPH_STAT_CFG_REJ.key 0 u]))

/-- CIPHER, CIPHER_PART_DONE, KEY_UNWRAP, ENTROPY_HEALTH_FAIL and ENTROPY_HEALTH_RECOVER, R412, R420, R422, R424, R425, R522 to R525: a CIPHER that is admitted waits for a pipeline, a session part of a user
without the lock is refused; a single operation writes its result at DST, and nothing else, and completes; KEY_UNWRAP installs the unwrapped key in its port's slot. -/
def Obligations.CipherOperationsRun : Prop :=
  (∀ (s : State) (ring : Fin 64) (cid : Fin 65536) (c : Cmd), Ready s ring cid 0x70 c → s.rg R.PST_STAT_STATE ≠ 2 →
    (started s c).cipherFieldsOk c = true →
    ((c.part = 0 ∨ s.cipher.holder = some c.user) → ∃ t, exec (.cipher ring cid) s = .next t ∧
      t.cipher.jobs = s.cipher.jobs ++ [(ring.val, cid.val, c.part != 0)] ∧ { t with cipher := s.cipher } = started s c) ∧
    (c.part ≠ 0 → s.cipher.holder ≠ some c.user → ∃ t, exec (.cipher ring cid) s = .next t ∧ t.cmd? ring cid = none ∧ t.cipher = s.cipher ∧
      t.mem = s.mem)) ∧
  (∀ (s : State) (ring : Fin 64) (cid : Fin 65536) (c : Cmd), Ready s ring cid 0x70 c → s.rg R.PST_STAT_STATE ≠ 2 →
    (started s c).cipherFieldsOk c = false → ∃ t, exec (.cipher ring cid) s = .next t ∧ t.cmd? ring cid = none ∧ t.cipher = s.cipher ∧ t.mem = s.mem) ∧
  (∀ (s : State) (ring : Fin 64) (cid : Fin 65536) (host : Option (List Byte × List Byte)) (c : Cmd) (key : List Nat), s.coreRuns = true →
    TheCmd s ring cid c → s.cipher.jobs.find? (fun j => j.1 == ring.val && j.2.1 == cid.val) = some (ring.val, cid.val, false) →
    c.part = 0 → c.mode < 4 → s.slotKey c.user c.slot = some key → 0 < c.len → 0 < c.paramLen →
    s.inMem c.csrc c.len = true → s.inMem c.cparam c.paramLen = true → inWindows c.csrc c.len = false →
    inWindows c.cparam c.paramLen = false → s.mem.bad = [] →
    let par := (s.bytes c.cparam c.paramLen).map (·.toNat)
    let x := newSession c (par.take 16)
    c.lengthOk 0 = true → c.ctrOk x.chain = true →
    let o := (cipherRun key c x ((s.bytes c.csrc c.len).map (·.toNat)) []).1.map (BitVec.ofNat 8)
    s.inMem c.cdst o.length = true →
    ∃ t, exec (.cipherPartDone ring cid host) s = .next t ∧ t.cmd? ring cid = none ∧ t.bytes c.cdst o.length = o ∧
      BytesBut s t c.cdst o.length ∧ t.cipher.session = s.cipher.session ∧ t.cipher.keys = s.cipher.keys) ∧
  (∀ (s : State) (ring : Fin 64) (cid : Fin 65536) (c : Cmd) (kek : List Nat), Ready s ring cid 0x71 c → c.user = 0 →
    c.only [(8, 0, 1), (9, 0, 2), (16, 0, 128)] = true → (c.arg 9 0 2 = 1 ∨ c.arg 9 0 2 = 2) → s.slotKey 0 (kekSlot (c.arg 8 0 1)) = some kek →
    let slot := 9 + 4 * c.arg 8 0 1 + c.arg 9 0 2
    let key := aesDec (roundKeys kek) ((slice c.args 8 16).map (·.toNat))
    ∃ t, exec (.keyUnwrap ring cid) s = .next t ∧ t.slotKey 0 slot = some key ∧ t.rg R.KEY_STAT_VALID slot 0 = 1 ∧ t.cmd? ring cid = none ∧
      t.mem = s.mem) ∧
  (∀ (s : State),
    (∃ t, exec .entropyHealthFail s = .next t ∧ t.cipher = { s.cipher with rngOk := false } ∧ { t with cipher := s.cipher, log := s.log } = s) ∧
    (∃ t, exec .entropyHealthRecover s = .next t ∧ t.cipher = { s.cipher with rngOk := true } ∧ { t with cipher := s.cipher } = s))

/-- SQ_TAIL_WRITE, CQ_HEAD_WRITE and COMMAND_FETCH, R443 to R445, R449 to R452: the owner's doorbell moves the tail or the head of its ring, a value out of range faults the ring, and a doorbell of
another function is only counted; a fetched entry with a free CID and a known opcode is in flight, and its ring's head has advanced. -/
def Obligations.DoorbellsAndFetch : Prop :=
  (∀ (s : State) (fn : Fin 8) (n : Fin 64) (v : Fin 1024), s.ownPage fn n = true → (s.ring n).st = .active →
    (v.val < (s.ring n).sqSize → ∃ t, exec (.sqTailWrite fn n v) s = .next t ∧ t.ring n = { s.ring n with sqTail := v } ∧
      (∀ m, m ≠ n.val → t.ring m = s.ring m) ∧ { t with host := s.host } = s ∧ t.host.cmds = s.host.cmds) ∧
    ((s.ring n).sqSize ≤ v.val → ∃ t, exec (.sqTailWrite fn n v) s = .next t ∧ (t.ring n).st = .faulted ∧ t.mem = s.mem ∧
      t.host.cmds = s.host.cmds ∧ (n.val = 0 → t.rg R.HQ_STAT_FAULT = 1 ∧ t.rg R.HQ_STAT_CAUSE = 1))) ∧
  (∀ (s : State) (fn : Fin 8) (n : Fin 64) (v : Fin 1024), s.ownPage fn n = false →
    ∀ i ∈ [Instr.sqTailWrite fn n v, .cqHeadWrite fn n v], ∃ t, exec i s = .next t ∧
      t.rg R.HQ_STAT_DB_FOREIGN = (s.rg R.HQ_STAT_DB_FOREIGN + 1) % 2 ^ R.HQ_STAT_DB_FOREIGN.width ∧
      { t with regs := s.regs, pm := s.pm } = s ∧ RegsBut s t [R.HQ_STAT_DB_FOREIGN.key 0 0]) ∧
  (∀ (s : State) (fn : Fin 8) (n : Fin 64) (v : Fin 1024), s.ownPage fn n = true → (s.ring n).st = .active →
    let r := s.ring n
    let ok := v.val < r.cqSize ∧ (v.val + r.cqSize - r.cqHead) % r.cqSize ≤ (r.cqTail + r.cqSize - r.cqHead) % r.cqSize
    (ok → ∃ t, exec (.cqHeadWrite fn n v) s = .next t ∧ (t.ring n).cqHead = v ∧ t.mem = s.mem ∧
      (r.waiting = [] → t.ring n = { r with cqHead := v } ∧ { t with host := s.host } = s ∧ t.host.cmds = s.host.cmds)) ∧
    (¬ ok → ∃ t, exec (.cqHeadWrite fn n v) s = .next t ∧ (t.ring n).st = .faulted ∧ t.mem = s.mem ∧ t.host.cmds = s.host.cmds)) ∧
  (∀ (s : State) (d : HostData), s.fetchStopped = false → s.nextRing = none → exec (.commandFetch d) s = .next s) ∧
  (∀ (s : State) (n : Nat) (b : List Byte), s.fetchStopped = false → s.nextRing = some n → b.length = 64 →
    let r := s.ring n
    let head := if r.sqHead + 1 = r.sqSize then 0 else r.sqHead + 1
    let k : Cmd := ⟨n, rec16 b 2, r.owner, rec8 b 0, recF b 1 0 1 == 1, b.drop 8, head, none, false, false, []⟩
    s.host.cmds.any (fun c => c.ring == n && c.cid == rec16 b 2) = false →
    (rec8 b 0 ∈ opcodes → recF b 1 1 7 = 0 → rec32 b 4 = 0 →
      ∃ t, exec (.commandFetch (.got b)) s = .next t ∧ (t.ring n).sqHead = head ∧ { t with host := s.host } = s ∧
        t.host.cmds = s.host.cmds ++ [k]) ∧
    ((rec8 b 0 ∉ opcodes ∨ recF b 1 1 7 ≠ 0 ∨ rec32 b 4 ≠ 0) →
      ∃ t, exec (.commandFetch (.got b)) s = .next t ∧ (t.ring n).sqHead = head ∧ t.cmd? n (rec16 b 2) = none ∧ t.mem = s.mem)) ∧
  (∀ (s : State) (n tag : Nat), s.fetchStopped = false → s.nextRing = some n → tag < 1024 → s.tagBusy tag = false →
    ∃ t, exec (.commandFetch (.pend tag)) s = .next t ∧ { t with host := s.host } = s ∧ t.host.cmds = s.host.cmds ∧
      t.host.reads = s.host.reads ++ [⟨tag, (s.ring n).owner, (s.ring n).sqBase + 64 * (s.ring n).sqHead, 64, .entry n, s.tk.localNs, none⟩])

/-- HOST_READ_COMPLETION, HOST_READ_TIMEOUT, TAG_QUARANTINE_END, MSIX_COALESCE_TIMEOUT and MSIX_VECTOR_UNMASK, R456 to R460: data of a read reaches its command, a failed or late completion is counted
and fails the command, a timed-out tag is quarantined for twice the timeout; a ring's unsignalled entries are signalled; a pending vector that is no longer masked is sent. -/
def Obligations.ReadsTagsAndVectors : Prop :=
  (∀ (s : State) (tag : Fin 1024) (status : CplStatus) (bytes : List Byte),
    s.host.reads.find? (fun r => r.tag == tag.val && r.until_.isNone) = none →
    ∃ t, exec (.hostReadCompletion tag status bytes) s = .next t ∧ { t with regs := s.regs, pm := s.pm, log := s.log } = s ∧
      t.rg R.HQ_PCIE_LATE_CPL = (s.rg R.HQ_PCIE_LATE_CPL + 1) % 2 ^ R.HQ_PCIE_LATE_CPL.width ∧ RegsBut s t [R.HQ_PCIE_LATE_CPL.key 0 0]) ∧
  (∀ (s : State) (tag : Fin 1024) (bytes : List Byte) (r : HostRead),
    s.host.reads.find? (fun r => r.tag == tag.val && r.until_.isNone) = some r → bytes.length ≠ r.len →
    ∃ t, exec (.hostReadCompletion tag .ok bytes) s = .next t ∧ t.host.reads = s.host.reads ∧
      t.rg R.HQ_PCIE_LATE_CPL = (s.rg R.HQ_PCIE_LATE_CPL + 1) % 2 ^ R.HQ_PCIE_LATE_CPL.width) ∧
  (∀ (s : State) (tag : Fin 1024) (bytes : List Byte) (r : HostRead) (ring cid : Nat) (c : Cmd),
    s.host.reads.find? (fun r => r.tag == tag.val && r.until_.isNone) = some r → r.for_ = .cmd ring cid → TheCmd s ring cid c →
    (bytes.length = r.len → ∃ t, exec (.hostReadCompletion tag .ok bytes) s = .next t ∧
      t.cmd? ring cid = some { c with rdata := some (c.rdata.getD [] ++ bytes) } ∧ t.host.reads = s.host.reads.erase r ∧ { t with host := s.host } = s) ∧
    (∀ status, status ≠ .ok → ∃ t, exec (.hostReadCompletion tag status bytes) s = .next t ∧ t.cmd? ring cid = none ∧ t.mem = s.mem ∧
      t.host.reads = s.host.reads.erase r ∧ t.rg R.HQ_PCIE_CPL_FAIL = (s.rg R.HQ_PCIE_CPL_FAIL + 1) % 2 ^ R.HQ_PCIE_CPL_FAIL.width) ∧
    (let u := s.since r.issued (ctoNs s.host.cto)
      ∃ t, exec (.hostReadTimeout tag) s = .next t ∧ t.cmd? ring cid = none ∧ t.mem = s.mem ∧ t.tk = u.tk ∧
        (∃ q ∈ t.host.reads, q.tag = tag.val ∧ q.until_ = some (u.tk.localNs + 2 * ctoNs s.host.cto)) ∧
        t.rg R.HQ_PCIE_CPL_FAIL = (u.rg R.HQ_PCIE_CPL_FAIL + 1) % 2 ^ R.HQ_PCIE_CPL_FAIL.width)) ∧
  (∀ (s : State) (tag : Fin 1024) (r : HostRead) (e : Nat), s.host.reads.find? (fun r => r.tag == tag.val && r.until_.isSome) = some r →
    r.until_ = some e →
    let u := s.since e 0
    ∃ t, exec (.tagQuarantineEnd tag) s = .next t ∧ t.host.reads = s.host.reads.erase r ∧ { t with host := u.host } = u ∧ e ≤ t.tk.localNs) ∧
  (∀ (s : State) (n : Fin 64), (s.ring n).st ≠ .absent → (s.ringCoal n).2.2 = true → 0 < (s.ring n).unsig →
    let u := s.since (s.ring n).oldest ((s.ringCoal n).2.1 * 1000)
    ∃ t, exec (.msixCoalesceTimeout n) s = .next t ∧ t.ring n = { s.ring n with unsig := 0 } ∧ t.mem = s.mem ∧ t.tk = u.tk ∧
      t.rgBit R.INT_RING_PEND_PEND n 0 (s.ring n).owner = false ∧
      (∀ p, vget s.host.fns (s.ring n).owner = p →
        p.msixEn = true → s.fnUp (s.ring n).owner = true → p.fnMask = false → p.mask.testBit (ringVector n) = false → s.host.linkUp = true →
        p.bme = true → t.out = s.out ++ [.msix (s.ring n).owner (ringVector n)])) ∧
  (∀ (s : State) (fn : Fin 8) (mask : BitVec 72) (fnMask : Bool),
    ∃ t, exec (.msixVectorUnmask fn mask fnMask) s = .next t ∧ (vget t.host.fns fn).mask = mask.toNat ∧ (vget t.host.fns fn).fnMask = fnMask ∧
      t.mem = s.mem ∧ t.host.rings = s.host.rings ∧ t.host.cmds = s.host.cmds ∧
      (∀ v : Fin 72, (vget s.host.fns fn).pba.testBit v = true → (vget s.host.fns fn).msixEn = true → fnMask = false → mask.getLsbD v = false →
        (vget t.host.fns fn).pba.testBit v = false ∧ (s.host.linkUp = true → (vget s.host.fns fn).bme = true → .msix fn v ∈ t.out)))

/-- PCIE_DL_DOWN, PCIE_LINK_UP, BUS_MASTER_ENABLE_SET, BUS_MASTER_ENABLE_CLEAR, HQ_EN_SET, HQ_EN_CLEAR, PME_TURN_OFF and ASPM_L1_ENTRY, R458, R462, R463, R466, R629, R645, Table HST-8: a link that goes down holds
every ring and clears what configuration set; Bus Master Enable set again sends the held writes in order and resumes the function's rings; EN brings ring 0 up with its fields,
is refused where they are not valid, and cleared drains it. -/
def Obligations.LinkAndRingZero : Prop :=
  (∀ (s : State) (unacked : List (Fin 8 × Nat)), s.host.linkUp = true →
    ∃ t, exec (.pcieDlDown unacked) s = .next t ∧ t.host.linkUp = false ∧ t.host.vfEn = false ∧ t.host.cmds = s.host.cmds ∧
      (∀ u : Fin 8, (vget t.host.fns u).bme = false ∧ (vget t.host.fns u).msixEn = false) ∧
      (∀ n : Fin 64, t.ring n = (if (s.ring n).st = .active ∨ (s.ring n).st = .faulted ∨ (s.ring n).st = .draining then
        { s.ring n with before := (s.ring n).st, st := .held } else s.ring n)) ∧
      t.host.reads.all (fun r => r.until_.isSome) = true ∧ { t with host := s.host, log := s.log, regs := s.regs } = s ∧
      t.rg R.HQ_STAT_READY = 0 ∧ RegsBut s t [R.HQ_STAT_READY.key 0 0]) ∧
  (∀ (s : State) (unacked : List (Fin 8 × Nat)), s.host.linkUp = false → exec (.pcieDlDown unacked) s = .next s) ∧
  (∀ (s : State),
    (s.flag R.RST_STAT_IN_RESET = false → s.boot.perst = false →
      exec .pcieLinkUp s = .next { s with host := { s.host with linkUp := true, crs := !s.boot.up } }) ∧
    ((s.flag R.RST_STAT_IN_RESET = true ∨ s.boot.perst = true) → exec .pcieLinkUp s = .next s)) ∧
  (∀ (s : State) (fn : Fin 8) (cfg : PcieCfg), s.host.linkUp = true → (vget s.host.fns fn).bme = false →
    ∃ t rest, exec (.busMasterEnableSet fn cfg) s = .next t ∧ (vget t.host.fns fn).bme = true ∧ (vget t.host.fns fn).msixEn = cfg.msixEn ∧
      t.out = s.out ++ (vget s.host.fns fn).heldWrites ++ rest ∧ (vget t.host.fns fn).downAt = none ∧ t.mem = s.mem ∧
      (∀ n : Fin 64, (s.ring n).st = .held → (s.ring n).owner = fn.val → ((s.ring n).before = .active ∨ (s.ring n).before = .faulted) →
        (t.ring n).st = (s.ring n).before)) ∧
  (∀ (s : State) (fn : Fin 8),
    exec (.busMasterEnableClear fn) s = .next { s with host := { s.host with fns := vmod s.host.fns fn (fun p => { p with bme := false }) } }) ∧
  (∀ (s : State), (s.ring 0).st = .absent →
    (s.hqValid = true → ∃ t, exec .hqEnSet s = .next t ∧ t.rg R.HQ_CTL_EN = 1 ∧ t.rg R.HQ_STAT_READY = 1 ∧ t.rg R.HQ_STAT_FAULT = 0 ∧
      t.rg R.HQ_STAT_CAUSE = 0 ∧ (t.ring 0).st = .active ∧ (t.ring 0).sqBase = s.rg R.HQ_SQ_BASE_BASE ∧ (t.ring 0).cqBase = s.rg R.HQ_CQ_BASE_BASE ∧
      (t.ring 0).sqSize = s.rg R.HQ_SIZE_SQ_SIZE ∧ (t.ring 0).cqSize = s.rg R.HQ_SIZE_CQ_SIZE ∧ (t.ring 0).phase = true ∧
      (t.ring 0).sqHead = 0 ∧ (t.ring 0).cqTail = 0 ∧ { t with regs := s.regs, host := s.host } = s) ∧
    (s.hqValid = false → ∃ t, exec .hqEnSet s = .next t ∧ t.rg R.HQ_CTL_EN = 0 ∧ t.rg R.HQ_STAT_FAULT = 1 ∧ t.rg R.HQ_STAT_CAUSE = 4 ∧
      OnlyRegs s t [R.HQ_CTL_EN.key 0 0, R.HQ_STAT_FAULT.key 0 0, R.HQ_STAT_CAUSE.key 0 0])) ∧
  (∀ (s : State), (s.ring 0).st ≠ .absent → ∃ t, exec .hqEnSet s = .next t ∧ t.rg R.HQ_CTL_EN = 1 ∧ OnlyRegs s t [R.HQ_CTL_EN.key 0 0]) ∧
  (∀ (s : State), ((s.ring 0).st = .active ∨ (s.ring 0).st = .faulted) →
    ∃ t, exec .hqEnClear s = .next t ∧ t.rg R.HQ_CTL_EN = 0 ∧ t.rg R.HQ_STAT_READY = 0 ∧ t.mem = s.mem ∧
      (s.host.cmds.any (fun c => c.ring == 0) = true → (t.ring 0).st = .draining) ∧
      (s.host.cmds.any (fun c => c.ring == 0) = false → (s.ring 0).waiting = [] → (s.ring 0).deleters = [] → t.ring 0 = {})) ∧
  (∀ (s : State), s.pst.bench = true → exec .pmeTurnOff s =
    .next { s with host := { s.host with l1 := 3 }, out := s.out ++ [.port "pme_to_ack" 0 []] }) ∧
  (∀ (s : State) (l12 : Bool), s.host.linkUp = true → s.host.l1 = 0 →
    exec (.aspmL1Entry l12) s = .next { s with host := { s.host with l1 := if l12 then 2 else 1 } })

/-- FLR, VF_ENABLE_CLEAR and LINK_HOLD_EXPIRY, R464, R465, Table RST-2: nothing of a virtual function's user is left: its commands, rings, programs and window mappings; and an FLR of the PF, or
its link hold's expiry, starts the reset of R635. -/
def Obligations.FunctionResetsClearOneUser : Prop :=
  let gone (t : State) (u : Nat) : Prop := (∀ c ∈ t.host.cmds, c.user ≠ u) ∧ (∀ p ∈ t.progs, p.user ≠ u) ∧ vget t.host.maps u = [] ∧
    ∀ n : Fin 64, (t.ring n).st = .absent ∨ (t.ring n).owner ≠ u
  (∀ (s : State) (u : Fin 8), s.resetReaches = true → u ≠ 0 →
    (s.host.vfEn = true → ∃ t, exec (.flr u) s = .next t ∧ gone t u) ∧
    (s.host.vfEn = false → exec (.flr u) s = .next s)) ∧
  (∀ (s : State) (u : Fin 8), s.resetReaches = false → exec (.flr u) s = .next s) ∧
  (∀ (s : State), Inv s → s.resetReaches = true → s.boot.reset = none →
    ∃ t, exec (.flr 0) s = .next t ∧ t.rgBit R.RST_CAUSE_CAUSE 5 = true ∧ t.host.cmds = [] ∧ t.host.linkUp = s.host.linkUp ∧
      (∀ n : Fin 64, (t.ring n).st = .absent) ∧ ∀ u : Fin 8, vget t.host.fns u = {}) ∧
  (∀ (s : State),
    (s.host.vfEn = true → ∃ t, exec .vfEnableClear s = .next t ∧ t.host.vfEn = false ∧ ∀ u : Fin 8, u ≠ 0 → gone t u) ∧
    (s.host.vfEn = false → exec .vfEnableClear s = .next s)) ∧
  (∀ (s : State) (fn : Fin 8) (t0 : Nat), (vget s.host.fns fn).downAt = some t0 →
    let k := s.rg R.HQ_CTL_LINK_HOLD
    let u := s.since t0 ((if k = 0 then 10 else k) * 10000000)
    (u.resetReaches = true → fn ≠ 0 → ∃ t, exec (.linkHoldExpiry fn) s = .next t ∧ gone t fn) ∧
    (Inv s → u.resetReaches = true → fn = 0 → s.boot.reset = none → ∃ t, exec (.linkHoldExpiry fn) s = .next t ∧
      t.rgBit R.RST_CAUSE_CAUSE 3 = true ∧ t.rg R.RST_STAT_IN_RESET = 1 ∧ t.host.cmds = [] ∧ t.host.linkUp = false) ∧
    (u.resetReaches = false → exec (.linkHoldExpiry fn) s = .next u))

/-- COLD_START, VAON_LOSS, STRAP_LATCH, BOARD_RESET, SYS_RST_N_DEASSERT, PERST_N, PERST_N_DEASSERT and BOUNDARY_SCAN_INSTRUCTION, R590, R634, R636, R640, R646, R702, Tables RST-2 and RST-3: what each
transition clears, keeps and starts, and the straps as they are latched.
HOT_RESET, SOFT_RESET, HOT_RESET_HEAT_DEADLINE, MARSHAL_WATCHDOG and MARSHAL_START, R635, R637, R638, R643, R644: the reset's cause, what it cancels and when it ends for the Heats that it waits for; the watchdog's
first firing begins a warm restart, another within a second a fatal stop in dump mode; the Marshal's start takes a valid board record and opens the device. -/
def Obligations.StartsResetsAndPins : Prop :=
  ((∀ (s : State), ∃ t, exec .coldStart s = .next t ∧ t.flash = s.flash ∧ t.mem = {} ∧ t.host = {} ∧ t.heats = State.reset.heats ∧ t.tk = {} ∧
    t.rg R.RST_CAUSE_CAUSE = 1 ∧ t.rg R.ID_DIE_DIE_ID = Config.dieId % 2 ^ R.ID_DIE_DIE_ID.width ∧ t.pwr.seq = .raising 0 ∧ t.pwr.en = 1 ∧
    t.boot.started = 1 ∧ t.boot.latched = false) ∧
  (∀ (s : State), ∃ t, exec .vaonLoss s = .next t ∧ t.pst.off = true ∧ t.flash = s.flash ∧ t.mem = {} ∧ t.regs = [] ∧ t.host = {} ∧ t.out = s.out) ∧
  (∀ (s : State) (pins : BitVec 17), s.rgBit R.PWR_RAIL_OK 0 = true → s.boot.latched = false →
    (s.boot.started.testBit 0 = true → ∃ t, exec (.strapLatch pins) s = .next t ∧ t.rg R.RST_STRAP_STRAPS = pins.toNat ∧
      t.rg R.BYK_STAT_DEV = pins.toNat % 64 ∧ t.rg R.SMI_CTL_ADDR = 0x58 + pins.toNat / 2 ^ 10 % 4 ∧ t.rg R.VRC_CFG_PH_CNT = pins.toNat / 2 ^ 6 % 16 ∧
      t.boot.latched = true ∧ { t with regs := s.regs, boot := s.boot } = s ∧
      RegsBut s t [R.RST_STRAP_STRAPS.key 0 0, R.BYK_STAT_DEV.key 0 0, R.ID_FMT_DEV.key 0 0, R.SMI_CTL_ADDR.key 0 0, R.VRC_CFG_PH_CNT.key 0 0]) ∧
    (s.boot.started.testBit 0 = false → s.boot.started.testBit 7 = true → ∃ t, exec (.strapLatch pins) s = .next t ∧
      t.rg R.RST_STRAP_STRAPS / 2 ^ 6 % 16 = s.rg R.RST_STRAP_STRAPS / 2 ^ 6 % 16 ∧ t.rg R.BYK_STAT_DEV = pins.toNat % 64 ∧ t.boot.latched = true ∧
      t.rg R.VRC_CFG_PH_CNT = s.rg R.VRC_CFG_PH_CNT)) ∧
  (∀ (s : State), s.pst.off = false → s.boot.sysRst = false → s.boot.latched = true →
    ∃ t, exec .boardReset s = .next t ∧ t.boot.sysRst = true ∧ t.rg R.RST_CAUSE_CAUSE = s.boot.started % 2 + 2 ∧ t.mem = {} ∧ t.host.cmds = [] ∧
      t.rg R.VRC_FLT_STATE = 0 ∧ t.boot.up = false ∧ (∀ n : Fin 64, (t.ring n).st = .absent) ∧ t.boot.latched = true) ∧
  (∀ (s : State) (pins : BitVec 17),
    (s.boot.sysRst = false → exec (.sysRstNDeassert pins) s = .next s) ∧
    (s.boot.sysRst = true → s.pwr.failStage = 0 → s.pwr.seq = .on → s.rg R.VRC_FLT_STATE = 0 → 4 ≤ s.rg R.VRC_CFG_PH_CNT →
      s.rg R.VRC_CFG_PH_CNT ≤ 12 → ∃ t, exec (.sysRstNDeassert pins) s = .next t ∧ t.boot.sysRst = false ∧ t.rg R.VRC_FLT_STATE = 1 ∧ t.mem = s.mem ∧
      (s.boot.latched = true → t.rg R.BYK_STAT_DEV = pins.toNat % 64 ∧ t.rg R.VRC_CFG_PH_CNT = s.rg R.VRC_CFG_PH_CNT)) ∧
    (s.boot.sysRst = true → s.pwr.failStage = 0 → s.pwr.seq = .off → ∃ t, exec (.sysRstNDeassert pins) s = .next t ∧ t.boot.sysRst = false ∧
      t.pwr.seq = .raising 0 ∧ t.pwr.tries = 0 ∧ t.mem = s.mem)) ∧
  (∀ (s : State), s.pst.off = false → s.boot.perst = false →
    (s.pst.bench = false → s.vcoreOn = true → s.boot.stop = none → ∃ t, exec .perstN s = .next t ∧ t.boot.perst = true ∧ t.host.linkUp = false ∧
      t.rgBit R.RST_CAUSE_CAUSE 2 = true ∧ t.rg R.MEM_STAT_TRAINED = 0 ∧ t.mem = {} ∧ t.host.cmds = [] ∧ t.boot.up = false) ∧
    (s.pst.bench = false → (s.vcoreOn = false ∨ s.boot.stop ≠ none) → ∃ t, exec .perstN s = .next t ∧ t.boot.perst = true ∧
      t.host.linkUp = false ∧ { t with boot := s.boot, host := s.host } = s)) ∧
  (∀ (s : State),
    (s.pst.wakeN = false → exec .perstNDeassert s = .next { s with boot := { s.boot with perst := false } }) ∧
    (s.pst.wakeN = true → ∃ t, exec .perstNDeassert s = .next t ∧ t.boot.perst = false ∧ t.pst.wakeN = false ∧ t.out = s.out ++ [.port "wake_n" 0 [1]] ∧
      { t with boot := s.boot, pst := s.pst, out := s.out } = s)) ∧
  (∀ (s : State) (i : Option (Fin 6)), ∃ t, exec (.boundaryScanInstruction i) s = .next t ∧ t.boot.tap = i.map (·.val) ∧
    { t with boot := s.boot, out := s.out } = s ∧
    t.out = s.out ++ (match i with
      | none => [.port "tap_reset" 0 []]
      | some k => if k = 3 then [.port "tdo" 0 [0x1B8A_856F]] else if 2 ≤ k.val then [.port "tap" k []] else []))) ∧
  ((∀ (s : State), Inv s → s.resetReaches = true → s.boot.reset = none →
    ∃ t, exec .hotReset s = .next t ∧ t.rgBit R.RST_CAUSE_CAUSE 3 = true ∧ t.rg R.RST_STAT_IN_RESET = 1 ∧ t.host.cmds = [] ∧
      (∀ n : Fin 64, (t.ring n).st = .absent) ∧ t.host.linkUp = false ∧ t.host.vfEn = false ∧
      t.rg R.RST_COUNT_HOT_SOFT = (s.rg R.RST_COUNT_HOT_SOFT + 1) % 2 ^ R.RST_COUNT_HOT_SOFT.width) ∧
  (∀ (s : State) (fn : Fin 8), s.resetReaches = false → exec .hotReset s = .next s ∧ exec (.softReset fn) s = .next s) ∧
  (∀ (s : State) (fn : Fin 8), fn ≠ 0 → exec (.softReset fn) s = .next s) ∧
  (∀ (s : State), Inv s → s.resetReaches = true → s.boot.reset = none → s.flag R.RST_STAT_IN_RESET = false → s.host.crs = false →
    ∃ t, exec (.softReset 0) s = .next t ∧ t.rgBit R.RST_CAUSE_CAUSE 4 = true ∧ t.rg R.RST_STAT_IN_RESET = 1 ∧ t.host.cmds = [] ∧
      (∀ n : Fin 64, (t.ring n).st = .absent) ∧ t.host.linkUp = s.host.linkUp ∧
      t.rg R.RST_COUNT_HOT_SOFT = (s.rg R.RST_COUNT_HOT_SOFT + 1) % 2 ^ R.RST_COUNT_HOT_SOFT.width) ∧
  (∀ (s : State) (t0 k : Nat), s.boot.reset = some (t0, k) →
    ∃ t, exec .hotResetHeatDeadline s = .next t ∧ t.heatList = [] ∧ t.boot.reset = none ∧ t0 + 100000000 ≤ t.tk.localNs) ∧
  (∀ (s : State), s.vcoreOn = true → s.boot.dumpMode = false →
    ((∀ w, s.boot.wdog = some w → w + 1000000000 < s.tk.localNs) → ∃ t, exec .marshalWatchdog s = .next t ∧ t.warm = true ∧ t.boot.up = false ∧
      t.boot.wdog = some s.tk.localNs ∧ t.rgBit R.RST_CAUSE_CAUSE 6 = true ∧ { t with regs := s.regs, boot := s.boot, warm := s.warm } = s ∧
      RegsBut s t [R.RST_CAUSE_CAUSE.key 0 0]) ∧
    (∀ w, s.boot.wdog = some w → s.tk.localNs ≤ w + 1000000000 → s.boot.stop = none → ∃ t, exec .marshalWatchdog s = .next t ∧
      t.rg R.FLT_STAT_LAST_CAUSE = 1 ∧ t.rg R.FLT_STAT_FROZEN = 1 ∧ t.boot.dumpMode = true ∧ t.boot.up = false)) ∧
  (∀ (s : State) (r : Option (List Byte)) (a b : List Byte), s.mayBoot = false → exec (.marshalStart r a b) s = .next s) ∧
  (∀ (s : State) (r : Option (List Byte)) (a b : List Byte), Inv s → s.mayBoot = true → s.boot.stop = none → s.boot.started = 0 → s.warm = true →
    ∃ t, exec (.marshalStart r a b) s = .next t ∧ t.warm = false ∧ t.boot.up = true ∧
      t.rg R.RST_COUNT_WDOG = (s.rg R.RST_COUNT_WDOG + 1) % 2 ^ R.RST_COUNT_WDOG.width) ∧
  (∀ (s : State) (r : List Byte) (a b : List Byte), Inv s → s.mayBoot = true → s.boot.stop = none → s.warm = false → s.boot.started = 1 ∨ s.boot.started = 2 →
    s.flashFitted = true → boardOk (fitBytes 512 r) = true →
    ∃ t, exec (.marshalStart (some r) a b) s = .next t ∧ t.boot.up = true ∧ t.boot.started = 0 ∧ t.host.crs = false ∧ t.rg R.RST_STAT_IN_RESET = 0 ∧
      t.boot.rec_ = fitBytes 512 r ∧ t.rg R.RST_BOOT_REC = 0 ∧ t.rg R.PWR_CAP_CAP = rec16 (fitBytes 512 r) 10 ∧
      t.rg R.RST_STAT_READY = s.rg R.RST_STAT_READY ∧
      t.rg R.PST_STAT_STATE = (if s.flag R.PST_STAT_FORCED then 1 else 0) ∧ (s.boot.started = 1 → t.rg R.VRC_CFG_LATCH = 1)))

/-- BYK_PORT_ENABLE, BYK_PORT_DISABLE, BYK_LINK_RST, BYK_LANES_EQUALISED, BYK_TRAINING_TIMEOUT, BYK_ALIGN_DONE, BYK_LINK_LOSS and HELLO, R567 to R569, Table
BYK-6 (0 DISABLED, 1 TRAINING, 2 ALIGN, 3 HELLO, 4 UP, 5 RETRAIN, 6 FAULTED): how a port moves through its states, and the four refusals of a HELLO. -/
def Obligations.BykPortsMoveThroughTheirStates : Prop :=
  (∀ (s : State) (q : Fin 4), s.rgBit R.BYK_CTL_PORT_EN q = false → s.rg R.BYK_PORT_STATE q = 0 →
    ∃ t, exec (.bykPortEnable q) s = .next t ∧ t.rgBit R.BYK_CTL_PORT_EN q = true ∧
      t.rg R.BYK_PORT_STATE q = (if (s.neighbour q).isSome then 1 else 0) ∧
      { t with regs := s.regs, byk := s.byk } = s ∧
      RegsBut s t [R.BYK_CTL_PORT_EN.key 0 0, R.BYK_PORT_STATE.key q 0, R.BYK_PORT_CAUSE.key q 0]) ∧
  (∀ (s : State) (q : Fin 4), s.rgBit R.BYK_CTL_PORT_EN q = true →
    ∃ t, exec (.bykPortDisable q) s = .next t ∧ t.rgBit R.BYK_CTL_PORT_EN q = false ∧ t.rg R.BYK_PORT_STATE q = 0) ∧
  (∀ (s : State) (q : Fin 4),
    (s.rg R.BYK_PORT_STATE q = 6 → ∃ t, exec (.bykLinkRst q) s = .next t ∧ t.rg R.BYK_PORT_STATE q = 1 ∧ t.rg R.BYK_PORT_CAUSE q = 0 ∧
      (t.bport q).attempts = 1 ∧ { t with regs := s.regs, byk := s.byk } = s ∧
      RegsBut s t [R.BYK_PORT_STATE.key q 0, R.BYK_PORT_CAUSE.key q 0]) ∧
    (s.rg R.BYK_PORT_STATE q ≠ 6 → exec (.bykLinkRst q) s = .next s)) ∧
  (∀ (s : State) (q : Fin 4), s.rg R.BYK_PORT_STATE q = 1 →
    ∃ t, exec (.bykLanesEqualised q) s = .next t ∧ t.rg R.BYK_PORT_STATE q = 2 ∧ OnlyRegs s t [R.BYK_PORT_STATE.key q 0]) ∧
  (∀ (s : State) (q : Fin 4), s.rg R.BYK_PORT_STATE q = 1 →
    ∃ t u, exec (.bykTrainingTimeout q) s = .next t ∧ u = s.since (s.bport q).since 100000000 ∧
      ((s.bport q).attempts < 3 → (t.bport q).attempts = (s.bport q).attempts + 1 ∧ (t.bport q).since = u.tk.localNs ∧
        { t with byk := u.byk } = u) ∧
      (3 ≤ (s.bport q).attempts → t.rg R.BYK_PORT_STATE q = 6 ∧ t.rg R.BYK_PORT_CAUSE q = 1)) ∧
  (∀ (s : State) (q : Fin 4), s.rg R.BYK_PORT_STATE q = 2 →
    ∃ t, exec (.bykAlignDone q) s = .next t ∧ t.rg R.BYK_PORT_STATE q = 3 ∧
      t.out = s.out ++ [.port "byk" q (10 :: (s.neighbour q).getD s.dev :: s.dev :: 1 :: s.helloBody q)] ∧
      { t with regs := s.regs, byk := s.byk, out := s.out, free := s.free } = s ∧ RegsBut s t [R.BYK_PORT_STATE.key q 0]) ∧
  (∀ (s : State) (q : Fin 4),
    (s.portUp q = true → ∃ t, exec (.bykLinkLoss q) s = .next t ∧ t.rg R.BYK_PORT_STATE q = 5 ∧
      t.rg R.BYK_PORT_RETRAIN q = (s.rg R.BYK_PORT_RETRAIN q + 1) % 2 ^ R.BYK_PORT_RETRAIN.width) ∧
    (s.portUp q = false → exec (.bykLinkLoss q) s = .next s)) ∧
  (∀ (s : State) (q : Fin 4) (dev : Fin 64) (edition topo dimX dimY : Nat) (epoch : Fin 65536) (ready : Bool) (retryUs : Fin 65536)
    (offer : Bool) (tkState : Fin 5) (hops : Fin 256), s.rg R.BYK_PORT_STATE q = 3 →
    ∃ t, exec (.hello q dev edition topo dimX dimY epoch ready retryUs offer tkState hops) s = .next t ∧
      (∀ cause, cause = (if edition ≠ s.rg R.ID_REV_ROM_EDITION then 2 else if s.neighbour q ≠ some dev.val then 3
          else if dev.val = s.dev then 4
          else if topo ≠ s.topo ∨ dimX ≠ s.rg R.BYK_CTL_DIM_X ∨ dimY ≠ s.rg R.BYK_CTL_DIM_Y then 5 else 0) →
        (cause ≠ 0 → t.rg R.BYK_PORT_STATE q = 6 ∧ t.rg R.BYK_PORT_CAUSE q = cause ∧ t.mem = s.mem) ∧
        (cause = 0 → t.rg R.BYK_PORT_STATE q = 4 ∧ t.rg R.BYK_PORT_PEER q = dev ∧
          t.rg R.BYK_PORT_PEER_READY q = (if ready then 1 else 0) ∧
          (t.peer dev).heard = true ∧ (t.peer dev).ready = ready ∧ (t.peer dev).epoch = epoch)))

/-- BYK_PARCEL_RECEIVE and BYK_REPLAY_TIMEOUT, R563, R564: the next parcel in sequence with a good CRC is acknowledged and any other is answered by a negative
acknowledgement, FEC and CRC counts advance, four uncorrectable codewords in 1 ms retrain the port; a sender without an acknowledgement resends, and after
eight resends without progress retrains. -/
def Obligations.ParcelsAreAcknowledgedOrReplayed : Prop :=
  (∀ (s : State) (q : Fin 4) (seq ackSeq : Fin 4096) (crcOk : Bool) (corr unc bad : Nat), s.portUp q = true →
    ((s.bport q).unc ++ List.replicate unc s.tk.localNs).countP (fun x => decide (s.tk.localNs ≤ x + 1000000)) < 4 →
    ∃ t, exec (.bykParcelReceive q seq ackSeq 0 crcOk corr unc bad) s = .next t ∧
      t.rg R.BYK_PORT_FEC_CORR q = (s.rg R.BYK_PORT_FEC_CORR q + corr) % 2 ^ R.BYK_PORT_FEC_CORR.width ∧
      t.rg R.BYK_PORT_FEC_UNC q = (s.rg R.BYK_PORT_FEC_UNC q + unc) % 2 ^ R.BYK_PORT_FEC_UNC.width ∧
      t.rg R.BYK_PORT_CRC_ERR q = (s.rg R.BYK_PORT_CRC_ERR q + bad + if crcOk then 0 else 1) % 2 ^ R.BYK_PORT_CRC_ERR.width ∧
      (crcOk = true → seq.val = (s.bport q).rx →
        (t.bport q).rx = ((s.bport q).rx + 1) % 4096 ∧ t.out = s.out ++ [.port "byk_ack" q [1, seq]]) ∧
      (crcOk = false ∨ seq.val ≠ (s.bport q).rx →
        (t.bport q).rx = (s.bport q).rx ∧ t.out = s.out ++ [.port "byk_ack" q [2, ((s.bport q).rx + 4095) % 4096]]) ∧
      { t with regs := s.regs, pm := s.pm, byk := s.byk, out := s.out } = s ∧
      RegsBut s t [R.BYK_PORT_FEC_CORR.key q 0, R.BYK_PORT_FEC_UNC.key q 0, R.BYK_PORT_CRC_ERR.key q 0]) ∧
  (∀ (s : State) (q : Fin 4) (seq ackSeq : Fin 4096) (ack : Fin 3) (crcOk : Bool) (corr unc bad : Nat), s.portUp q = true →
    4 ≤ ((s.bport q).unc ++ List.replicate unc s.tk.localNs).countP (fun x => decide (s.tk.localNs ≤ x + 1000000)) →
    ∃ t, exec (.bykParcelReceive q seq ackSeq ack crcOk corr unc bad) s = .next t ∧ t.rg R.BYK_PORT_STATE q = 5) ∧
  (∀ (s : State) (q : Fin 4) (seq ackSeq : Fin 4096), s.portUp q = true → seq.val = (s.bport q).rx →
    (s.bport q).unc = [] →
    ∃ t, exec (.bykParcelReceive q seq ackSeq 1 true 0 0 0) s = .next t ∧
      (∀ left, left = ((s.bport q).tx + 4096 - (ackSeq.val + 1) % 4096) % 4096 →
        (left < (s.bport q).unacked → (t.bport q).unacked = left ∧ (t.bport q).resends = 0) ∧
        ((s.bport q).unacked ≤ left → (t.bport q).unacked = (s.bport q).unacked)) ∧ t.mem = s.mem) ∧
  (∀ (s : State) (q : Fin 4), s.portUp q = true → 0 < (s.bport q).unacked →
    ∃ t u, exec (.bykReplayTimeout q) s = .next t ∧ u = s.since (s.bport q).sentAt 10000 ∧
      ((s.bport q).resends < 8 → (t.bport q).resends = (s.bport q).resends + 1 ∧
        t.out = u.out ++ [.port "byk_replay" q [(s.bport q).unacked]] ∧
        t.rg R.BYK_PORT_REPLAY q = (u.rg R.BYK_PORT_REPLAY q + 1) % 2 ^ R.BYK_PORT_REPLAY.width ∧
        { t with regs := u.regs, pm := u.pm, byk := u.byk, out := u.out } = u ∧ RegsBut u t [R.BYK_PORT_REPLAY.key q 0]) ∧
      (8 ≤ (s.bport q).resends → u.portUp q = true → t.rg R.BYK_PORT_STATE q = 5))

/-- BYK_READ_REQ, BYK_READ_RSP, BYK_WRITE, BYK_ADD, BYK_TAG_ACK and BYK_ADD_RSP, R562, R570 to R574: a target refuses what is meant for another epoch or comes
before it is ready, answers a read with the bytes, applies the next tagged operation in sequence once and drops or only acknowledges any other; the
initiator's operation leaves its list when it is acknowledged. -/
def Obligations.RemoteAccessesAreServed : Prop :=
  (∀ (s : State) (src : Fin 64) (xid epoch : Fin 65536) (addr len : Nat) (host : Option (List Byte)) (q : Nat), s.route src = some q →
    ∃ t, exec (.bykReadReq src xid epoch addr len host) s = .next t ∧
      (epoch.val ≠ s.epoch → t.out = s.out ++ [.port "byk" q [2, src, s.dev, xid, Sc.resetLost]]) ∧
      (epoch.val = s.epoch → s.flag R.BYK_CFG_READY = false → t.out = s.out ++ [.port "byk" q [2, src, s.dev, xid, Sc.notReady]]) ∧
      (epoch.val = s.epoch → s.flag R.BYK_CFG_READY = true → 0 < len → len ≤ 4096 → s.inMem addr len = true →
        s.mem.bad.filter (touchesWord addr len) = [] →
        t.out = s.out ++ [.port "byk" q ([2, src.val, s.dev, xid.val, Sc.ok] ++ (s.bytes addr len).map (·.toNat))] ∧
        t.mem.cells = s.mem.cells)) ∧
  (∀ (s : State) (src : Fin 64) (xid status : Fin 65536) (bytes : List Byte) (r : RemoteRead), r ∈ s.byk.reads → r.xid = xid → r.dev = src →
    r.got = none → (∀ y ∈ s.byk.reads, y.xid = xid.val → y.dev = src.val → y.got = none → y = r) →
    ∃ t, exec (.bykReadRsp src xid status bytes) s = .next t ∧
      (status.val = Sc.ok → { r with got := some (fitBytes r.len bytes) } ∈ t.byk.reads ∧ { t with byk := s.byk } = s) ∧
      (status.val ≠ Sc.ok → t.xfer? r.xfer = none)) ∧
  (∀ (s : State) (src : Fin 64) (seq : Nat) (epoch : Fin 65536) (addr : Nat) (bytes : List Byte),
    ∃ t, exec (.bykWrite src seq epoch addr bytes) s = .next t ∧
      (epoch.val = s.epoch → s.flag R.BYK_CFG_READY = true → seq = seqNext (s.peer src).lastAcc → s.inMem addr bytes.length = true →
        (∀ k, k < bytes.length → t.byte (addr + k) = bytes.getD k 0) ∧ BytesBut s t addr bytes.length ∧ (t.peer src).lastAcc = seq ∧
        { t with mem := s.mem, byk := s.byk, out := s.out } = s) ∧
      (epoch.val ≠ s.epoch ∨ s.flag R.BYK_CFG_READY = false ∨ seq ≠ seqNext (s.peer src).lastAcc →
        (t.peer src).lastAcc = (s.peer src).lastAcc ∧ { t with byk := s.byk, out := s.out } = s) ∧
      (∀ q, s.route src = some q → epoch.val ≠ s.epoch → t.out = s.out ++ [.port "byk" q [4, src, s.dev, seq, Sc.resetLost]]) ∧
      (∀ q, s.route src = some q → epoch.val = s.epoch → s.flag R.BYK_CFG_READY = true → seq ≠ seqNext (s.peer src).lastAcc →
        t.out = s.out ++ [.port "byk" q (if seqAfter seq (s.peer src).lastAcc then [10, src, s.dev, 2, (s.peer src).epoch]
          else [4, src, s.dev, seq, Sc.ok])])) ∧
  (∀ (s : State) (src : Fin 64) (seq : Nat) (epoch : Fin 65536) (addr : Nat) (addend : BitVec 64), epoch.val = s.epoch →
    s.flag R.BYK_CFG_READY = true → seq = seqNext (s.peer src).lastAcc → s.inMem addr 8 = true → addr % 8 = 0 →
    s.mem.bad.filter (touchesWord addr 8) = [] →
    ∃ t, exec (.bykAdd src seq epoch addr addend) s = .next t ∧
      (∀ k, k < 8 → t.byte (addr + k) = (leBytes 8 (leNat (s.bytes addr 8) + addend.toNat)).getD k 0) ∧ BytesBut s t addr 8 ∧
      (t.peer src).adds.getLast? = some (seq, leNat (s.bytes addr 8)) ∧ (t.peer src).lastAcc = seq) ∧
  (∀ (s : State) (src : Fin 64) (seq : Nat) (status retryUs : Fin 65536),
    ((∀ o ∈ (s.peer src).ops, o.seq ≠ seq) → exec (.bykTagAck src seq status retryUs) s = .next s ∧
      exec (.bykAddRsp src seq status) s = .next s) ∧
    (∀ o, (s.peer src).ops.find? (fun o => o.seq == seq) = some o → o.for_ = .nobody → (s.peer src).waiting = [] →
      (∃ t, exec (.bykTagAck src seq status retryUs) s = .next t ∧ (t.peer src).ops = (s.peer src).ops.filter (fun x => x.seq != seq) ∧
        (status.val ≠ Sc.notReady → { t with byk := s.byk } = s) ∧
        (status.val = Sc.notReady → (t.peer src).ready = false ∧ (t.peer src).retryUs = retryUs)) ∧
      (∃ t, exec (.bykAddRsp src seq status) s = .next t ∧ (t.peer src).ops = (s.peer src).ops.filter (fun x => x.seq != seq) ∧
        (status.val ≠ Sc.notReady → { t with byk := s.byk } = s))))

/-- RESYNC_REQ, RESYNC_RSP, SKIP, BYK_RESYNC_TIMEOUT and RELAY_DONE, R137, R575 to R577: the target answers with the last OPSEQ that it has accepted; the
initiator keeps and re-issues only what comes after it; abandoned operations are skipped; and a relay ends with the next hop's report. -/
def Obligations.ResynchronisationAndRelays : Prop :=
  (∀ (s : State) (src : Fin 64) (epoch : Fin 65536) (q : Nat), s.route src = some q →
    (epoch.val ≠ s.epoch → ∃ t, exec (.resyncReq src epoch) s = .next t ∧
      t.out = s.out ++ [.port "byk" q [10, src, s.dev, 3, Sc.resetLost, 0]] ∧ { t with byk := s.byk, out := s.out } = s) ∧
    (epoch.val = s.epoch → (s.peer src).ops = [] → ∃ t, exec (.resyncReq src epoch) s = .next t ∧
      t.out = s.out ++ [.port "byk" q [10, src, s.dev, 3, Sc.ok, (s.peer src).lastAcc]] ∧ { t with byk := s.byk, out := s.out } = s)) ∧
  (∀ (s : State) (src : Fin 64) (status : Fin 65536) (last : Nat), (s.peer src).resync = true → (s.peer src).waiting = [] →
    (∀ o ∈ (s.peer src).ops, o.for_ = .nobody) →
    ∃ t, exec (.resyncRsp src status last) s = .next t ∧ (t.peer src).resync = false ∧ t.mem = s.mem ∧ (t.peer src).abandoned = [] ∧
      (status.val ≠ Sc.resetLost → (t.peer src).ops = (s.peer src).ops.filter (fun o => seqAfter o.seq last)) ∧
      (status.val = Sc.resetLost → (t.peer src).ops = [] ∧ (t.peer src).nextSeq = 1)) ∧
  (∀ (s : State) (src : Fin 64) (status : Fin 65536) (last : Nat), (s.peer src).resync = false →
    exec (.resyncRsp src status last) s = .next s) ∧
  (∀ (s : State) (src : Fin 64) (epoch : Fin 65536) (last : Nat),
    (epoch.val = s.epoch → seqAfter last (s.peer src).lastAcc = true → ∃ t, exec (.skip src epoch last) s = .next t ∧
      (t.peer src).lastAcc = last ∧ (t.peer src).blk = none ∧ t.mem = s.mem) ∧
    (epoch.val ≠ s.epoch ∨ seqAfter last (s.peer src).lastAcc = false → exec (.skip src epoch last) s = .next s)) ∧
  (∀ (s : State) (d : Fin 64),
    ((s.peer d).lost = none → exec (.bykResyncTimeout d) s = .next s) ∧
    (∀ t0, (s.peer d).lost = some t0 → ∃ t, exec (.bykResyncTimeout d) s = .next t ∧
      (t.peer d).abandoned = (s.peer d).abandoned ++ (s.peer d).ops)) ∧
  (∀ (s : State) (src : Fin 64) (seq : Nat) (epoch : Fin 65536) (hop : Nat) (status relayStatus : Fin 65536) (relayHop : Fin 64) (x : Xfer)
    (h : List Byte), epoch.val = s.epoch → s.flag R.BYK_CFG_READY = true → seq = seqNext (s.peer src).lastAcc → x ∈ s.xfers →
    x.relayWait = true → x.hop + 1 = hop → (s.relayOf x)[x.hop]? = some h → recF h 0 0 6 = src →
    (∀ y ∈ s.xfers, y.relayWait = true → dRelayPlan y.desc = dRelayPlan x.desc → y = x) →
    ∃ t, exec (.relayDone src seq epoch (dRelayPlan x.desc) hop status relayStatus relayHop) s = .next t ∧ t.xfer? x.id = none ∧
      (t.peer src).lastAcc = seq)

/-- BYK_BLOCK and BYK_BATON, R135, R136, R579: the next message of a block is stored in buffers of the receive class, the whole block is queued upstream, and
one without a place is acknowledged with nothing stored; a relay's data starts a chain at its hop, or is refused to the device that fed it. -/
def Obligations.BlocksAndRelaysArrive : Prop :=
  (∀ (s : State) (src : Fin 64) (seq : Nat) (epoch : Fin 65536) (hdr data : List Byte), epoch.val = s.epoch → s.flag R.BYK_CFG_READY = true →
    seq = seqNext (s.peer src).lastAcc →
    let h := fitBytes 16 hdr
    (recF h 12 0 24 = 0 → s.blockPeer src (recF h 1 0 2) = none →
      ∃ t, exec (.bykBlock src seq epoch hdr data) s = .next t ∧ (t.peer src).lastAcc = seq ∧
        { t with byk := s.byk, out := s.out } = s) ∧
    (∀ b : RxBlock,
      ((recF h 12 0 24 = 0 ∧ b.hdr = h.take 12 ∧ b.got = 0 ∧ b.bufs = [] ∧ b.cls = s.rg R.BYK_CFG_RX_CLASS ∧
          s.blockPeer src (recF h 1 0 2) = some (b.pon, b.entry)) ∨
        (recF h 12 0 24 ≠ 0 ∧ (s.peer src).blk = some b ∧ b.hdr = h.take 12 ∧ b.got = recF h 12 0 24)) →
      ∀ (st : Nat) (bufs : List Nat) (w : State),
        s.allocN 45 b.cls (ceilDiv (b.got + data.length) (2 ^ (s.pclass b.cls).size) - b.bufs.length) [] = (st, bufs, w) →
        ∃ t, exec (.bykBlock src seq epoch hdr data) s = .next t ∧
          (st = Sc.ok → (t.peer src).lastAcc = seq ∧
            (t.peer src).blk = (if ceilDiv (rec32 h 8) 8 ≤ b.got + data.length then none
              else some { b with got := b.got + data.length, bufs := b.bufs ++ bufs })) ∧
          (st ≠ Sc.ok → st ≠ Sc.badField → (t.peer src).lastAcc = (s.peer src).lastAcc ∧ t = w))) ∧
  (∀ (s : State) (src : Fin 64) (plan hop prog : Nat) (desc data : List Byte),
    (s.rg R.PST_STAT_STATE = 2 → ∃ t, exec (.bykBaton src plan hop prog desc data) s = .next t ∧ t.rgBit R.PST_STAT_CAUSE 4 = true ∧
      t.xfers = s.xfers) ∧
    (s.rg R.PST_STAT_STATE ≠ 2 → s.prog? prog = none ∨ s.flag R.BYK_CFG_READY = false →
      ∃ t, exec (.bykBaton src plan hop prog desc data) s = .next t ∧ t.xfers = s.xfers ∧
        (t.peer src).ops.length + (t.peer src).waiting.length = (s.peer src).ops.length + (s.peer src).waiting.length + 1) ∧
    (∀ (p : Prog) (r : List Byte), s.rg R.PST_STAT_STATE ≠ 2 → s.prog? prog = some p → p.ready = true → s.flag R.BYK_CFG_READY = true →
      ((relayPlans p.image).getD plan [])[hop - 1]? = some r → (∀ y ∈ s.xfers, y.id < s.xferNext) →
      ∀ d, d = setRelay (fitBytes 64 desc) (rec8 r 1) (recF r 2 0 3) (recF r 3 0 1 == 0) → dTotal d ≤ data.length →
      ∃ t x, exec (.bykBaton src plan hop prog desc data) s = .next t ∧ t.xfer? s.xferNext = some x ∧ x.hop = hop ∧
        x.inbound = data.take (dTotal d) ∧ x.desc = d ∧ x.issuer = .relay src prog ∧ x.user = p.user))

/-- BYK_ISO, ISO_DELIVER, BYK_TIME_EXCHANGE, TIME_SYNC, TIME_REQ and TIME_RSP, R580 to R583: an isochronous frame joins its channel's slip buffer, the oldest is
displaced from a full one; a symbol's boundary delivers the frame of its label or the oldest; a time exchange is stamped at both ends and its sample
recorded. -/
def Obligations.FramesAndTimeCrossTheLink : Prop :=
  (∀ (s : State) (q : Fin 4) (ch : Fin 16) (sfn : Fin 1024) (subframe : Fin 10) (slot : Fin 8) (sym : Fin 14) (seq : Nat) (data : List Byte) (n : Nat),
    s.portUp q = true →
    (List.range 16).find? (fun n => s.flag R.BYK_ISO_EN n && s.rg R.BYK_ISO_DIR n == 1 && s.rg R.BYK_ISO_PORT n == q.val &&
      s.rg R.BYK_ISO_PEER_CH n == ch.val) = some n →
    let f : IsoFrame := ⟨[sfn, subframe, slot, sym], seq, fitBytes (s.isoBytes n) data⟩
    let held := (s.isoCh n).frames
    ∃ t, exec (.bykIso q ch sfn subframe slot sym seq data) s = .next t ∧ t.mem = s.mem ∧
      (held.length < s.rg R.BYK_ISO_DEPTH n → (t.isoCh n).frames = held ++ [f] ∧ { t with byk := s.byk } = s) ∧
      (s.rg R.BYK_ISO_DEPTH n ≤ held.length → (t.isoCh n).frames = held.drop 1 ++ [f] ∧
        t.rg R.BYK_ISO_DROP n = (s.rg R.BYK_ISO_DROP n + 1) % 2 ^ R.BYK_ISO_DROP.width)) ∧
  (∀ (s : State) (n : Fin 16) (sfn : Fin 1024) (subframe : Fin 10) (slot : Fin 8) (sym : Fin 14), s.flag R.BYK_ISO_EN n = true →
    s.rg R.BYK_ISO_DIR n = 1 → (s.carrier (s.rg R.BYK_ISO_CARRIER n)).active = true → 2 ≤ s.symCode (s.rg R.BYK_ISO_CARRIER n) sfn subframe slot sym →
    ∀ r, r = (s.carrier (s.rg R.BYK_ISO_CARRIER n)).rec_ →
    ∀ u, u = s.reach (s.slotAt r sfn subframe slot s.tk.ns + symNs (cScs r) (14 * slot + sym + 1) - symNs (cScs r) (14 * slot)) →
    ∃ t, exec (.isoDeliver n sfn subframe slot sym) s = .next t ∧ t.tk = u.tk ∧
      (u.isoLocked n = false → ∀ f fs, (s.isoCh n).frames = f :: fs →
        (t.isoCh n).frames = fs ∧ (t.isoCh n).last = some f ∧ (t.isoCh n).count = (s.isoCh n).count + 1) ∧
      (u.isoLocked n = true → ∀ f, (s.isoCh n).frames.find? (fun f => f.label == [sfn.val, subframe.val, slot.val, sym.val]) = some f →
        (t.isoCh n).frames = [] ∧ (t.isoCh n).last = some f ∧ (t.isoCh n).count = (s.isoCh n).count + 1) ∧
      ((s.isoCh n).frames = [] → (s.isoCh n).last = none → (t.isoCh n).count = (s.isoCh n).count)) ∧
  (∀ (s : State) (q : Fin 4), s.rgBit R.BYK_CTL_TIME_OFFER q = true → s.portUp q = true → s.flag R.TK_STAT_EPOCH_VALID = true →
    s.byk.hops < 16 → s.rg R.TK_STAT_SRC ≠ 4 →
    ∃ t, exec (.bykTimeExchange q) s = .next t ∧ { t with byk := s.byk, out := s.out } = s ∧
      t.out = s.out ++ [.port "byk" q [10, (s.neighbour q).getD s.dev, s.dev, 8, s.tk.ns, s.rg R.EPOCH_TAI_TAI, s.rg R.TK_STAT_STATE,
        s.byk.hops]]) ∧
  (∀ (s : State) (q : Fin 4) (t1 : Nat) (epoch : BitVec 64) (state : Fin 5) (hops : Fin 256) (turn : Nat), s.portUp q = true →
    s.rg R.TK_CTL_BYK_PORT = q →
    ∃ t, exec (.timeSync q t1 epoch state hops turn) s = .next t ∧ (t.bport q).t1 = t1 ∧ (t.bport q).t2 = s.tk.ns ∧
      t.tk.localNs = s.tk.localNs + turn ∧ (t.bport q).t3 = t.tk.ns ∧ (t.bport q).masterEpoch = some epoch.toNat ∧
      (t.bport q).hops = hops ∧ t.mem = s.mem ∧
      t.out.getLast? = some (.port "byk" q [10, (t.neighbour q).getD t.dev, t.dev, 9])) ∧
  (∀ (s : State) (q : Fin 4), s.portUp q = true → ∃ t, exec (.timeReq q) s = .next t ∧ { t with byk := s.byk, out := s.out } = s ∧
    t.out = s.out ++ [.port "byk" q [10, (s.neighbour q).getD s.dev, s.dev, 10, s.tk.ns]]) ∧
  (∀ (s : State) (q : Fin 4) (t4 e : Nat), s.portUp q = true → s.rg R.TK_CTL_BYK_PORT = q → (s.bport q).masterEpoch = some e →
    s.rg R.TK_STAT_SRC ≠ 4 →
    let p := s.bport q
    let d : Int := (((p.t2 : Int) - p.t1) + ((t4 : Int) - p.t3)) / 2 + Config.bykAsymmetry q
    ∃ t, exec (.timeRsp q t4) s = .next t ∧ { t with byk := s.byk } = s ∧
      (t.bport q).samples = (if p.samples.length < 15 then p.samples ++ [(p.t2 : Int) - p.t1 - d] else [])) ∧
  (∀ (s : State) (q : Fin 4) (t4 e : Nat), s.portUp q = true → s.rg R.TK_CTL_BYK_PORT = q → (s.bport q).masterEpoch = some e →
    s.rg R.TK_STAT_SRC = 4 → s.byk.hops = (s.bport q).hops + 1 → (s.bport q).samples.length = 15 →
    ∃ t, exec (.timeRsp q t4) s = .next t ∧ (t.bport q).samples = [] ∧ t.mem = s.mem)

/-- RAIL_ENABLE_STEP, RAIL_START_TIMEOUT, RAIL_RESTART_WAIT, POWER_DOWN_RAIL_STEP, RAIL_FAULT, SYSCLK_LOSS, VCORE_START_REACHED and VCORE_START_TIMEOUT, R588 to
R591, R606, R610, R611, R699: rails rise one by one from VIO18 to VCORE, waiting after VRIM's for the straps and SYS_RST_N; one that fails to start takes the
others down, three failures in a row hold them off; they fall in the opposite order; and a good rail in fault takes everything off at once. -/
def Obligations.RailsRiseAndFall : Prop :=
  (∀ (s : State) (r : Nat), s.pwr.seq = .raising r → r < 4 → s.boot.sysRst = false →
    ∃ t, exec .railEnableStep s = .next t ∧ t.rgBit R.PWR_RAIL_OK r = true ∧ t.pwr.seq = .raising (r + 1) ∧ t.pwr.en = setBit s.pwr.en (r + 1) ∧
      { t with regs := s.regs, pwr := s.pwr } = s ∧ RegsBut s t [R.PWR_RAIL_OK.key 0 0]) ∧
  (∀ (s : State), s.pwr.seq = .raising 4 → s.boot.sysRst = false →
    (s.boot.latched = true → 4 ≤ s.rg R.VRC_CFG_PH_CNT → s.rg R.VRC_CFG_PH_CNT ≤ 12 → ∃ t, exec .railEnableStep s = .next t ∧
      t.rgBit R.PWR_RAIL_OK 4 = true ∧ t.pwr.seq = .raising 5 ∧ t.rg R.VRC_FLT_STATE = 1 ∧ t.mem = s.mem ∧
      (∀ k, k < 12 → (t.rg R.VRC_PH_PST k = 0 ↔ k ∈ ((List.range (s.rg R.VRC_CFG_PH_CNT)).filter (fun k => !s.rgBit R.VRC_FLT_LOST k)).take s.minPhases))) ∧
    (s.boot.latched = false → exec .railEnableStep s = .next s)) ∧
  (∀ (s : State) (r : Nat), s.pwr.seq = .raising r → s.boot.sysRst = true → exec .railEnableStep s = .next s) ∧
  (∀ (s : State) (r : Nat), s.pwr.seq = .raising r → r < 5 →
    ∃ t, exec .railStartTimeout s = .next t ∧ t.pwr.seq = .waiting ∧ t.pwr.en = 0 ∧ t.pwr.tries = s.pwr.tries + 1 ∧ t.rg R.PWR_RAIL_OK = 0 ∧
      t.mem = {}) ∧
  (∀ (s : State), s.pwr.seq = .waiting →
    ∃ t, exec .railRestartWait s = .next t ∧ t.pwr.seq = (if s.pwr.tries < 3 then .raising 0 else .held) ∧
      (s.pwr.tries < 3 → t.pwr.en = setBit s.pwr.en 0) ∧ { t with pwr := s.pwr } = s) ∧
  (∀ (s : State) (r : Nat), s.pwr.seq = .lowering → r ≤ 4 → s.pwr.en.testBit r = true → (∀ k, r < k → k ≤ 4 → s.pwr.en.testBit k = false) →
    ∃ t, exec .powerDownRailStep s = .next t ∧ t.pwr.en = clearBit s.pwr.en r ∧ t.rgBit R.PWR_RAIL_OK r = false ∧
      t.pwr.seq = (if clearBit s.pwr.en r = 0 then .off else .lowering) ∧ t.mem = s.mem) ∧
  (∀ (s : State) (r : Fin 6),
    (s.rgBit R.PWR_RAIL_OK r = true → ∃ t, exec (.railFault r) s = .next t ∧ t.pwr.seq = .off ∧ t.pwr.en = 0 ∧
      t.pwr.emerg = some (r.val, s.rg R.VRC_FLT_STATE) ∧ t.rg R.PWR_RAIL_OK = 0 ∧ t.rg R.VRC_FLT_STATE = 0 ∧ t.mem = {} ∧
      (∀ p, p < 2 → .port "opt_ben" p [1] ∈ t.out) ∧ .port "fail_safe" 0 [] ∈ t.out) ∧
    (s.rgBit R.PWR_RAIL_OK r = false → exec (.railFault r) s = .next s)) ∧
  (∀ (s : State), s.vcoreOn = true → ∃ t, exec .sysclkLoss s = .next t ∧ t.pwr.backup = true ∧ { t with pwr := s.pwr } = s) ∧
  (∀ (s : State), s.rg R.VRC_FLT_STATE = 1 →
    (∃ t, exec .vcoreStartReached s = .next t ∧ t.rg R.VRC_FLT_STATE = s.runState ∧ t.rg R.PACER_STAT_VSET = 20 ∧ t.rg R.VRC_STAT_VOUT = 650 ∧
      t.rgBit R.PWR_RAIL_OK 5 = true ∧ t.pwr.seq = .on ∧ t.pwr.tries = 0 ∧ t.mem = s.mem) ∧
    (∃ t, exec .vcoreStartTimeout s = .next t ∧ t.rg R.VRC_FLT_STATE = 0 ∧ t.pwr.seq = .waiting ∧ t.pwr.en = 0 ∧
      t.pwr.tries = s.pwr.tries + 1)) ∧
  (∀ (s : State), s.rg R.VRC_FLT_STATE ≠ 1 → exec .vcoreStartReached s = .next s ∧ exec .vcoreStartTimeout s = .next s)

/-- PHASE_OPEN, PHASE_SENSE_FAIL, PHASE_SHED, PHASE_ADD, PHASE_SHARE_IMBALANCE, DROOP, DROOP_CLEAR, CORE_HOLD, CORE_HOLD_RESUME, CORE_HOLD_TIMEOUT and FORCED_PACE_STOP, R597
to R605: an open phase leaves service, one derates the controller and a second forces Pace; phases are shed from the highest and added from the lowest;
a droop raises the Brake; a hold stops the core until it resumes, and for longer than 100 µs it is a fatal stop. -/
def Obligations.PhasesDroopsAndHolds : Prop :=
  (∀ (s : State) (n : Fin 12) (amps : Fin 512), Inv s → s.vcoreOn = true → s.rg R.VRC_PH_PST n = 0 →
    ∃ t, exec (.phaseOpen (some n) amps) s = .next t ∧ t.rgBit R.VRC_FLT_LOST n = true ∧ t.rg R.VRC_PH_PST n = 2 ∧
      t.rgBit R.VRC_STAT_ACTIVE n = false ∧ t.rg R.VRC_STAT_IOUT = amps ∧
      (t.lostCount ≤ 1 → t.rg R.VRC_FLT_STATE = max 3 (s.rg R.VRC_FLT_STATE)) ∧
      (2 ≤ t.lostCount → t.rg R.VRC_FLT_STATE = 4 ∧ t.rg R.PST_STAT_FORCED = 1) ∧
      (t.iLim4N < amps * 4 * t.rg R.VRC_CFG_PH_CNT → t.rgBit R.PACER_STAT_BRAKE_CAUSE 0 = true)) ∧
  (∀ (s : State) (amps : Fin 512), Inv s → s.vcoreOn = true →
    ∃ t, exec (.phaseOpen none amps) s = .next t ∧ (∀ n, n < 12 → n < s.rg R.VRC_CFG_PH_CNT → t.rgBit R.VRC_FLT_LOST n = true) ∧
      t.rg R.VRC_STAT_IOUT = amps) ∧
  (∀ (s : State) (n : Fin 12) (amps : Fin 512), s.vcoreOn = true → s.rg R.VRC_PH_PST n = 0 → s.rgBit R.VRC_FLT_SENSE_FB n = false →
    ∃ t, exec (.phaseSenseFail n amps) s = .next t ∧ t.rgBit R.VRC_FLT_SENSE_FB n = true ∧ t.rg R.VRC_PH_PST n = 0 ∧
      t.rg R.VRC_FLT_STATE = max 3 (s.rg R.VRC_FLT_STATE) ∧ t.mem = s.mem) ∧
  (∀ (s : State) (n : Fin 12), s.vcoreOn = true → s.flag R.VRC_CFG_SHED_EN = true → s.flag R.PACER_STAT_KICK = false → s.rg R.VRC_PH_PST n = 0 →
    (∀ m, n < m → m < 12 → s.rg R.VRC_PH_PST m ≠ 0) → s.minPhases < (List.range 12).countP (fun m => s.rg R.VRC_PH_PST m == 0) →
    ∃ t, exec .phaseShed s = .next t ∧ t.rg R.VRC_PH_PST n = 1 ∧ t.rgBit R.VRC_STAT_ACTIVE n = false ∧
      OnlyRegs s t [R.VRC_PH_PST.key n 0, R.VRC_STAT_ACTIVE.key 0 0]) ∧
  (∀ (s : State) (n : Fin 12), s.vcoreOn = true → s.flag R.VRC_CFG_SHED_EN = true → s.rg R.VRC_PH_PST n = 1 →
    (∀ m, m < n → s.rg R.VRC_PH_PST m ≠ 1) →
    ∃ t, exec .phaseAdd s = .next t ∧ t.rg R.VRC_PH_PST n = 0 ∧ t.rgBit R.VRC_STAT_ACTIVE n = true ∧
      OnlyRegs s t [R.VRC_PH_PST.key n 0, R.VRC_STAT_ACTIVE.key 0 0]) ∧
  (∀ (s : State) (n : Fin 12), s.vcoreOn = true → s.rg R.VRC_PH_PST n = 0 → s.flag R.FLT_STAT_FROZEN = false →
    ∃ t r, exec (.phaseShareImbalance n) s = .next t ∧ t.log.recs.getLast? = some r ∧ r.code = Ev.VRC_SHARE.code ∧ r.source = n ∧
      { t with log := s.log } = s) ∧
  (∀ (s : State), s.vcoreOn = true → s.flag R.PACER_STAT_BRAKE_LEVEL = false → ∃ t, exec .droop s = .next t ∧
    t.rgBit R.PACER_STAT_BRAKE_CAUSE 2 = true ∧ t.rg R.PACER_STAT_BRAKE_LEVEL = 1 ∧ { t with regs := s.regs, pacer := s.pacer } = s) ∧
  (∀ (s : State), s.rgBit R.PACER_STAT_BRAKE_CAUSE 2 = true → ∃ t, exec .droopClear s = .next t ∧ t.rgBit R.PACER_STAT_BRAKE_CAUSE 2 = false ∧
    t.rg R.FLT_CNT_COVERED = (s.rg R.FLT_CNT_COVERED + 1) % 2 ^ R.FLT_CNT_COVERED.width ∧ t.mem = s.mem) ∧
  (∀ (s : State) (mv : Fin 500), s.vcoreOn = true → s.pwr.hold = none → ∃ t, exec (.coreHold mv) s = .next t ∧
    t.pwr.hold = some s.tk.localNs ∧ t.coreRuns = false ∧ t.rg R.VRC_STAT_VOUT = mv ∧
    { t with regs := s.regs, pwr := s.pwr, log := s.log } = s ∧ RegsBut s t [R.VRC_STAT_VOUT.key 0 0]) ∧
  (∀ (s : State) (t0 : Nat), s.pwr.hold = some t0 → s.boot.stop = none → ∃ t, exec .coreHoldResume s = .next t ∧ t.pwr.hold = none ∧
    t.rg R.FLT_CNT_COVERED = (s.rg R.FLT_CNT_COVERED + 1) % 2 ^ R.FLT_CNT_COVERED.width ∧ t.mem = s.mem) ∧
  (∀ (s : State) (t0 : Nat), Inv s → s.pwr.hold = some t0 → s.vcoreOn = true → s.boot.stop = none →
    ∃ t x, exec .coreHoldTimeout s = .next t ∧ t.boot.stop = some x ∧ x.cause = 2 ∧ x.answered = false ∧ t.rg R.FLT_STAT_LAST_CAUSE = 2 ∧
      t.rg R.FLT_STAT_FROZEN = 1 ∧ t.rg R.VRC_FLT_STATE = 5 ∧ t0 + 100000 ≤ x.at_) ∧
  (∀ (s : State), Inv s → s.rg R.VRC_FLT_STATE = 4 → s.rg R.PACER_STAT_BRAKE_LEVEL = 3 → s.rgBit R.PACER_STAT_BRAKE_CAUSE 0 = true →
    s.boot.stop = none →
    ∃ t x, exec .forcedPaceStop s = .next t ∧ t.boot.stop = some x ∧ x.cause = 3 ∧ t.rg R.FLT_STAT_LAST_CAUSE = 3 ∧
      t.rg R.FLT_STAT_FROZEN = 1 ∧ t.rg R.VRC_FLT_STATE = 5)

/-- PWR_FAIL_ASSERT, PWR_FAIL_LOG_FREEZE, PWR_FAIL_COMMIT_START, DYING_GASP_WINDOW_END and PWR_FAIL_RESTART, R355, R607 to R609: the steps of the timeline follow one
another at their instants after the fall of PWR_FAIL_N: the setpoint lowered, the log frozen and each active port's dying gasp, the short black-box commit,
and the power-down; power that returns restarts the device as after a board reset. -/
def Obligations.PowerFailureTimeline : Prop :=
  (∀ (s : State), Inv s → s.pst.off = false → s.pwr.failStage = 0 →
    ∃ t, exec .pwrFailAssert s = .next t ∧ t.pwr.failStage = 1 ∧ t.pwr.failAt = s.tk.localNs ∧ t.rg R.PWR_RAIL_PWR_FAIL = 1 ∧
      s.tk.localNs + 1000 ≤ t.tk.localNs ∧ t.mem = s.mem ∧
      (s.vcoreOn = true → t.rg R.PACER_STAT_VSET = min 20 (s.rg R.PACER_STAT_VSET) ∧ t.rg R.PACER_STAT_KICK = 0) ∧
      (∀ tgt ring cid c, s.pst.req = some (tgt, ring, cid) → 2 ≤ tgt → TheCmd s ring cid c → t.pst.req = none ∧
        t.rg R.PST_STAT_ENTRY_PEND = 0 ∧ t.cmd? ring cid = none)) ∧
  (∀ (s : State), s.pwr.failStage ≠ 0 → exec .pwrFailAssert s = .next s) ∧
  (∀ (s : State), Inv s → s.pwr.failStage = 1 →
    ∃ t, exec .pwrFailLogFreeze s = .next t ∧ t.pwr.failStage = 2 ∧ s.pwr.failAt + 10000 ≤ t.tk.localNs ∧
      (s.boot.up = true ∨ s.pst.bench = true → t.rg R.FLT_STAT_FROZEN = 1 ∧ t.rg R.INT_CAUSE_FATAL = 1 ∧
        ∀ p : Fin 2, s.inO5 p = true → (t.port p).gasp = true)) ∧
  (∀ (s : State), Inv s → s.pwr.failStage = 2 →
    ∃ t, exec .pwrFailCommitStart s = .next t ∧ t.pwr.failStage = 3 ∧ s.pwr.failAt + 50000 ≤ t.tk.localNs ∧ t.mem = s.mem ∧
      (s.boot.up = true ∨ s.pst.bench = true → s.boot.stop = none →
        (s.flag R.FLT_STAT_BB_ARMED = true → ∃ b, t.boot.bb = some b ∧ b.slot = (nextCommit s.flash.bb).2 ∧ t.rg R.FLT_STAT_BB_ARMED = 0 ∧
          b.body = (s.log.recs.drop (s.log.recs.length - 64)).flatMap LogRec.bytes) ∧
        (s.flag R.FLT_STAT_BB_ARMED = false → t.rg R.FLT_STAT_BB_LAST = 3 ∧ t.flash = s.flash)) ∧
      (s.boot.stop ≠ none → t.flash = s.flash)) ∧
  (∀ (s : State), s.pwr.failStage = 3 →
    ∃ t, exec .dyingGaspWindowEnd s = .next t ∧ t.pwr.failStage = 4 ∧ s.pwr.failAt + 4000000 ≤ t.tk.localNs ∧
      (s.pwr.seq ≠ .lowering → s.pwr.seq ≠ .off → t.rg R.VRC_FLT_STATE = 0 ∧ t.mem = {} ∧ t.host.cmds = [] ∧
        t.pwr.seq = (if s.pwr.en = 0 then .off else .lowering) ∧ ∀ p, p < 2 → .port "opt_ben" p [1] ∈ t.out)) ∧
  (∀ (s : State), s.pwr.failStage = 4 →
    (s.pwr.seq = .off → ∃ t, exec .pwrFailRestart s = .next t ∧ t.pwr.failStage = 0 ∧ t.pwr.seq = .raising 0 ∧ t.pwr.tries = 0 ∧
      t.rg R.RST_CAUSE_CAUSE = 0x82 ∧ t.rg R.PWR_RAIL_PWR_FAIL = 0 ∧ t.rg R.VRC_FLT_LOST = 0 ∧ t.rg R.VRC_FLT_SENSE_FB = 0 ∧ t.mem = {} ∧
      t.boot.started = 0x82 ∧ t.boot.latched = false) ∧
    (s.pwr.seq ≠ .off → exec .pwrFailRestart s = .next s))

/-- FATAL_STOP, THERMAL_TRIP, FATAL_DUMP_BUDGET_EXPIRY, BLACK_BOX_COMMIT_DONE and DUMP_DONE, R654 to R656, R667, R668, R672: a fatal cause freezes the log, starts the full black-box
commit, answers the commands in flight and is recorded; a second is only counted; the commit's marker makes its slot valid; a dump
goes to the host's region when it is reachable, else to blank flash, and the power-down follows when the commit and the dump have both ended. -/
def Obligations.FatalStopsCommitAndDump : Prop :=
  (∀ (s : State) (domain : Option Nat) (addr : BitVec 46), s.vcoreOn = true → s.boot.stop = none →
    ∃ t x, exec (.fatalStop domain addr) s = .next t ∧ t.boot.stop = some x ∧ x.cause = (if domain.isSome then 5 else 4) ∧
      x.at_ = s.tk.localNs ∧ t.rg R.FLT_STAT_FROZEN = 1 ∧ t.rg R.FLT_STAT_LAST_CAUSE = (if domain.isSome then 5 else 4) ∧ t.mem = s.mem ∧
      (∀ n : Fin 32, t.heat n = none) ∧ t.xfers = [] ∧ (∀ n, n < 8 → t.rg R.LANE_STAT_STATE n = 0) ∧
      (∀ q, q < 4 → t.rg R.BYK_PORT_STATE q = 0) ∧ (∀ p, p < 2 → .port "opt_ben" p [1] ∈ t.out) ∧
      (s.boot.up = true → x.answered = true ∧ ∀ c ∈ t.host.cmds, c.done = true) ∧
      (s.pwr.failStage < 3 → s.flag R.FLT_STAT_BB_ARMED = true → t.boot.bb ≠ none ∧ t.rg R.FLT_STAT_BB_ARMED = 0 ∧ x.committed = false) ∧
      (s.pwr.failStage < 3 → s.flag R.FLT_STAT_BB_ARMED = false → t.rg R.FLT_STAT_BB_LAST = 3)) ∧
  (∀ (s : State) (d : Fin 15) (domain : Option Nat) (addr : BitVec 46), s.boot.stop ≠ none →
    (∃ t, exec (.fatalStop domain addr) s = .next t ∧ { t with log := s.log } = s) ∧
    (∃ t, exec (.thermalTrip d) s = .next t ∧ { t with log := s.log } = s)) ∧
  (∀ (s : State) (d : Fin 15), s.vcoreOn = true → s.boot.stop = none → s.pwr.seq ≠ .on ∨ s.boot.up = false ∨ (s.pwr.failStage < 3 ∧ s.flag R.FLT_STAT_BB_ARMED = true) →
    ∃ t x, exec (.thermalTrip d) s = .next t ∧ t.boot.stop = some x ∧ x.cause = 6 ∧ t.rg R.FLT_STAT_LAST_CAUSE = 6 ∧
      t.rg R.FLT_STAT_FROZEN = 1 ∧ (s.boot.up = true → x.dumped = true ∧ t.rg R.FLT_STAT_DUMP = 3)) ∧
  (∀ (s : State) (b : BbWrite), s.boot.bb = some b → b.slot < 2 → s.boot.stop = none →
    ∃ t, exec .blackBoxCommitDone s = .next t ∧ t.boot.bb = none ∧ t.rg R.FLT_STAT_BB_LAST = 1 ∧ t.rg R.BB_SEQ_SEQ = rec32 b.hdr 8 ∧
      (vget t.flash.bb b.slot).mark = markOf b.hdr b.body ∧ (∀ j, j < 2 → j ≠ b.slot → vget t.flash.bb j = vget s.flash.bb j) ∧
      { t with regs := s.regs, flash := s.flash, boot := s.boot } = s ∧
      RegsBut s t [R.FLT_STAT_BB_LAST.key 0 0, R.BB_SEQ_SEQ.key 0 0]) ∧
  (∀ (s : State) (x : Stop), s.boot.stop = some x → x.cause = 1 → x.dumped = false → x.committed = false →
    ∃ t y, exec .fatalDumpBudgetExpiry s = .next t ∧ t.boot.stop = some y ∧ y.dumped = true ∧ t.rg R.FLT_STAT_DUMP = 3 ∧ t.boot.dumpSize = 0 ∧
      x.at_ + 2000000000 ≤ t.tk.localNs ∧ t.mem = s.mem) ∧
  (∀ (s : State) (x : Stop) (hostOk : Bool), s.boot.stop = some x → x.answered = true → x.dumped = false → x.committed = false →
    ∃ t y, exec (.dumpDone hostOk) s = .next t ∧ t.boot.stop = some y ∧ y.dumped = true ∧ t.mem = s.mem ∧
      (∀ r, s.boot.region = some r → s.host.linkUp = true → (vget s.host.fns 0).bme = true → hostOk = true →
        t.rg R.FLT_STAT_DUMP = 1 ∧ t.out = s.out ++ [.hostWrite 0 r.1 (s.dumpBytes x)] ∧ t.boot.dumpSize = (s.dumpBytes x).length ∧ t.flash = s.flash) ∧
      (s.boot.region = none → s.flashFitted = true → s.flash.dump = [] →
        t.rg R.FLT_STAT_DUMP = 2 ∧ t.flash.dump = s.dumpBytes x ∧ t.out = s.out) ∧
      (s.boot.region = none → s.flashFitted = false → t.rg R.FLT_STAT_DUMP = 3 ∧ t.boot.dumpSize = 0 ∧ t.flash = s.flash)) ∧
  (∀ (s : State) (x : Stop) (hostOk : Bool), s.boot.stop = some x → x.answered = true → x.dumped = false → x.committed = true → s.pwr.seq = .on →
    ∃ t, exec (.dumpDone hostOk) s = .next t ∧ t.boot.stop = none ∧ t.rg R.VRC_FLT_STATE = 0 ∧ t.mem = {} ∧
      t.pwr.seq = (if s.pwr.en = 0 then .off else .lowering))

/-- POWER_STATE, BASE_SETPOINT_SETTLED, ENTRY_COMMIT_POINT, REST_EXIT and BENCH_EXIT, R529, R615 to R618, R622 to R625, Tables PST-1 and PST-2: what a POWER_STATE
command comes to; a state is entered when its setpoint or its entry steps have ended, and its command completes then; Rest gates the Lanes, Bench saves
the Locker and turns VCORE off; an exit undoes that. -/
def Obligations.PowerStatesAreEnteredAndLeft : Prop :=
  (∀ (s : State) (ring : Fin 64) (cid : Fin 65536) (c : Cmd), Ready s ring cid 0x88 c → c.only [(8, 0, 2)] = true → s.pst.req = none → c.user = 0 →
    let tgt := c.arg 8 0 2
    let st := s.rg R.PST_STAT_STATE
    ∃ t, exec (.powerState ring cid) s = .next t ∧
      (tgt = st → t.cmd? ring cid = none ∧ t.pst = s.pst ∧ t.rg R.PST_STAT_STATE = st) ∧
      (tgt ≠ st → tgt = 0 → s.flag R.PST_STAT_FORCED = true → t.cmd? ring cid = none ∧ t.pst = s.pst ∧ t.rg R.PST_STAT_STATE = st) ∧
      (tgt ≠ st → tgt ≤ 1 → st ≠ 2 → (tgt = 1 ∨ s.flag R.PST_STAT_FORCED = false) →
        t.pst.req = some (tgt, ring.val, cid.val) ∧ { t with pst := s.pst } = started s c) ∧
      (Inv s → tgt ≤ 1 → st = 2 → (tgt = 1 ∨ s.flag R.PST_STAT_FORCED = false) → t.rg R.PST_STAT_STATE = tgt ∧ t.cmd? ring cid = none) ∧
      (tgt ≠ st → 2 ≤ tgt → (∀ r, (started s c).entryRefusal c tgt = some r → t.cmd? ring cid = none ∧ t.pst = s.pst ∧
        t.rg R.PST_STAT_STATE = st)) ∧
      (tgt ≠ st → 2 ≤ tgt → (started s c).entryRefusal c tgt = none → t.pst.req = some (tgt, ring.val, cid.val) ∧
        t.rg R.PST_STAT_ENTRY_PEND = 1 ∧ t.rg R.PST_STAT_STATE = st)) ∧
  (∀ (s : State) (tgt ring cid : Nat) (c : Cmd), Inv s → s.pst.req = some (tgt, ring, cid) → tgt ≤ 1 → TheCmd s ring cid c →
    ∃ t, exec .baseSetpointSettled s = .next t ∧ t.rg R.PST_STAT_STATE = tgt ∧ t.pst.req = none ∧ t.cmd? ring cid = none ∧ t.mem = s.mem ∧
      (if tgt = 0 then 50 else 20) ≤ t.rg R.PACER_STAT_VSET) ∧
  (∀ (s : State) (i2c : BitVec 2) (ring cid : Nat) (c : Cmd), Inv s → s.pst.req = some (2, ring, cid) → TheCmd s ring cid c →
    ∃ t, exec (.entryCommitPoint i2c) s = .next t ∧ t.rg R.PST_STAT_STATE = 2 ∧ t.rg R.PST_STAT_ENTRY_PEND = 0 ∧ t.pst.req = none ∧
      t.pst.restFrom = s.rg R.PST_STAT_STATE ∧ t.cmd? ring cid = none ∧ t.coreRuns = false ∧ t.mem = s.mem ∧
      (∀ n, n < 8 → t.rg R.LANE_STAT_STATE n = (if s.rg R.LANE_STAT_STATE n = 1 then 0 else s.rg R.LANE_STAT_STATE n)) ∧
      t.rg R.PACER_STAT_VSET = min 20 (s.rg R.PACER_STAT_VSET)) ∧
  (∀ (s : State) (i2c : BitVec 2) (ring cid : Nat), s.pst.req = some (3, ring, cid) →
    ∃ t, exec (.entryCommitPoint i2c) s = .next t ∧ t.pst.bench = true ∧ t.pst.req = none ∧ t.rg R.VRC_FLT_STATE = 0 ∧
      t.rg R.MEM_STAT_TRAINED = 0 ∧ t.rg R.PST_STAT_ENTRY_PEND = 0 ∧ t.host.cmds = [] ∧ t.host.l1 = 2 ∧ t.coreRuns = false ∧
      rec32 t.pst.locker 0 = 0x4B43_4F4C ∧ rec16 t.pst.locker 4 = 152 ∧ t.pst.locker.length = 1232 ∧
      (∀ a, t.byte a = if lpBase ≤ a then s.byte a else 0)) ∧
  (∀ (s : State), Inv s → s.rg R.PST_STAT_STATE = 2 → s.flag R.PST_STAT_WAKE_PEND = true → s.flag R.PST_STAT_ENTRY_PEND = false →
    s.pst.bench = false → s.pst.restFrom ≤ 1 →
    ∃ t, exec .restExit s = .next t ∧ t.rg R.PST_STAT_STATE = (if s.flag R.PST_STAT_FORCED then 1 else s.pst.restFrom) ∧
      t.rg R.PST_STAT_WAKE_PEND = 0 ∧ t.mem = s.mem ∧
      (∀ n, n < 8 → t.rg R.LANE_STAT_STATE n = (if s.rg R.LANE_STAT_STATE n = 0 then 1 else s.rg R.LANE_STAT_STATE n)) ∧
      (∀ p, p < 2 → t.rg R.PON_STAT_PM p = 0)) ∧
  (∀ (s : State) (upset : Option (Nat × Byte)), s.pst.bench = true → s.rg R.VRC_FLT_STATE = 0 → s.flag R.PST_STAT_WAKE_PEND = true →
    s.pwr.failStage = 0 → 4 ≤ s.rg R.VRC_CFG_PH_CNT → s.rg R.VRC_CFG_PH_CNT ≤ 12 →
    let b := match upset with | some (i, x) => modAt s.pst.locker i (fun _ => x) | none => s.pst.locker
    ∃ t, exec (.benchExit upset) s = .next t ∧ t.rg R.VRC_FLT_STATE = 1 ∧ t.host.crs = true ∧ t.mem = s.mem ∧
      t.boot.started = (if lockerOk b then s.boot.started else s.boot.started ||| 512) ||| 256 ∧
      (s.host.l1 = 3 → t.pst.wakeN = true ∧ .port "wake_n" 0 [0] ∈ t.out))

/-- SMI_ADDRESS_MATCH, WAKE_N_ASSERT, PCIE_WAKE_ACTIVITY, WAKE_AT_TIMER, SMI_WRITE_PHASE, SMI_READ_PHASE, SMI_STATUS, SMI_WAKE, SMI_RESIDENCY and SMI_EVENT, R620 to R622, R626 to
R628, Tables PST-3 and PST-6: a source that WAKE_MASK admits is recorded and waits for the exit from Rest or Bench, or cancels an entry; the SMI takes a
command, checks its code and length, and answers the next read. -/
def Obligations.WakeSourcesAndTheSmi : Prop :=
  (∀ (s : State), s.rgBit R.PST_CTL_WAKE_MASK 0 = false → exec .smiAddressMatch s = .next s) ∧
  (∀ (s : State), s.rgBit R.PST_CTL_WAKE_MASK 0 = true → s.rg R.PST_STAT_STATE = 2 ∨ s.pst.bench = true → s.flag R.PST_STAT_ENTRY_PEND = false →
    ∃ t, exec .smiAddressMatch s = .next t ∧ t.rgBit R.PST_STAT_CAUSE 0 = true ∧ t.rg R.PST_STAT_WAKE_PEND = 1 ∧
      OnlyRegs s t [R.PST_STAT_CAUSE.key 0 0, R.PST_STAT_WAKE_PEND.key 0 0]) ∧
  (∀ (s : State) (tgt ring cid : Nat) (c : Cmd), s.rgBit R.PST_CTL_WAKE_MASK 0 = true → s.flag R.PST_STAT_ENTRY_PEND = true →
    s.pst.req = some (tgt, ring, cid) → 2 ≤ tgt → TheCmd s ring cid c →
    ∃ t, exec .smiAddressMatch s = .next t ∧ t.pst.req = none ∧ t.rg R.PST_STAT_ENTRY_PEND = 0 ∧ t.rgBit R.PST_STAT_CAUSE 0 = true ∧
      t.cmd? ring cid = none ∧ t.rg R.PST_STAT_STATE = s.rg R.PST_STAT_STATE) ∧
  (∀ (s : State), s.rgBit R.PST_CTL_WAKE_MASK 1 = true → s.rg R.PST_STAT_STATE = 2 ∨ s.pst.bench = true → s.flag R.PST_STAT_ENTRY_PEND = false →
    (s.pst.wakeN = true → exec .wakeNAssert s = .next s) ∧
    (s.pst.wakeN = false → ∃ t, exec .wakeNAssert s = .next t ∧ t.rgBit R.PST_STAT_CAUSE 1 = true ∧ t.rg R.PST_STAT_WAKE_PEND = 1 ∧
      OnlyRegs s t [R.PST_STAT_CAUSE.key 0 0, R.PST_STAT_WAKE_PEND.key 0 0])) ∧
  (∀ (s : State),
    (s.host.l1 = 3 → exec .pcieWakeActivity s = .next s) ∧
    (s.host.l1 ≠ 3 → s.pst.bench = false → s.flag R.PST_STAT_ENTRY_PEND = false → ∃ t, exec .pcieWakeActivity s = .next t ∧ t.host.l1 = 0 ∧
      (s.rg R.PST_STAT_STATE = 2 → s.rgBit R.PST_CTL_WAKE_MASK 2 = true → t.rgBit R.PST_STAT_CAUSE 2 = true ∧ t.rg R.PST_STAT_WAKE_PEND = 1) ∧
      { t with regs := s.regs, host := s.host } = s)) ∧
  (∀ (s : State), Inv s →
    (s.rg R.WAKE_AT_AT = 0 → exec .wakeAtTimer s = .next s) ∧
    (s.rg R.WAKE_AT_AT ≠ 0 → ∃ t, exec .wakeAtTimer s = .next t ∧ t.rg R.WAKE_AT_AT = 0 ∧ t.mem = s.mem ∧
      (s.rg R.PST_STAT_STATE = 2 → s.flag R.PST_STAT_ENTRY_PEND = false → s.rgBit R.PST_CTL_WAKE_MASK 3 = true →
        t.rgBit R.PST_STAT_CAUSE 3 = true ∧ t.rg R.PST_STAT_WAKE_PEND = 1))) ∧
  (∀ (s : State) (cmd len : Byte) (data : List Byte) (pec : Option Byte),
    (s.smiUp = false ∨ data.length ≠ len.toNat → exec (.smiWritePhase cmd len data pec) s = .next s) ∧
    (s.smiUp = true → data.length = len.toNat →
      ∃ t, exec (.smiWritePhase cmd len data pec) s = .next t ∧ t.mem = s.mem ∧
        (s.flag R.SMI_CTL_PEC_EN = true →
          pec ≠ some (BitVec.ofNat 8 (crc8 (leBytes 1 (2 * s.rg R.SMI_CTL_ADDR) ++ ([cmd, len] ++ data)))) →
          t.pst.smiCmd = none ∧ t.pst.smiResp = (4, []) ∧
          t.rg R.SMI_STAT_PEC_ERR = (s.rg R.SMI_STAT_PEC_ERR + 1) % 2 ^ R.SMI_STAT_PEC_ERR.width) ∧
        (s.flag R.SMI_CTL_PEC_EN = false →
          (smiLen cmd.toNat = some len.toNat → t.pst.smiCmd = some (cmd.toNat, data) ∧ { t with pst := s.pst } = s) ∧
          (∀ n, smiLen cmd.toNat = some n → n ≠ len.toNat → t.pst.smiResp = (3, []) ∧ t.pst.smiCmd = none) ∧
          (smiLen cmd.toNat = none → t.pst.smiResp = (2, []) ∧ t.pst.smiCmd = none)))) ∧
  (∀ (s : State), s.smiUp = true → ∃ t, exec .smiReadPhase s = .next t ∧ { t with regs := s.regs, pm := s.pm, out := s.out } = s ∧
    t.out = s.out ++ [.port "smi" 0 ((s.withPec (2 * s.rg R.SMI_CTL_ADDR + 1)
      (leBytes 1 s.pst.smiResp.1 ++ leBytes 1 s.pst.smiResp.2.length ++ s.pst.smiResp.2)).map (·.toNat))]) ∧
  (∀ (s : State) (d : List Byte), s.smiUp = true →
    (s.pst.smiCmd = some (1, d) → ∃ t, exec .smiStatus s = .next t ∧ t.pst.smiCmd = none ∧
      t.pst.smiResp = (0, leBytes 1 (s.rg R.PST_STAT_STATE) ++ leBytes 1 (s.rg R.PST_STAT_CAUSE) ++ leBytes 2 s.tjMax ++ leBytes 1 (s.rg R.PWR_RAIL_OK) ++
        leBytes 1 (s.rg R.TK_STAT_STATE)) ∧
      t.rg R.SMI_STAT_CMDS = (s.rg R.SMI_STAT_CMDS + 1) % 2 ^ R.SMI_STAT_CMDS.width ∧
      { t with regs := s.regs, pm := s.pm, pst := s.pst } = s ∧ RegsBut s t [R.SMI_STAT_CMDS.key 0 0]) ∧
    (s.pst.smiCmd = some (2, d) → ∃ t, exec .smiWake s = .next t ∧ t.pst.smiCmd = none ∧ t.pst.smiResp = (0, []) ∧
      (s.rg R.PST_STAT_STATE = 2 → t.rgBit R.PST_STAT_CAUSE 4 = true)) ∧
    (s.pst.smiCmd = some (3, d) → ∃ t, exec .smiResidency s = .next t ∧ t.pst.smiCmd = none ∧
      (leNat d = 0 → t.pst.smiResp = (0, leBytes 8 (s.rg R.RES_RACE_US))) ∧ (leNat d = 1 → t.pst.smiResp = (0, leBytes 8 (s.rg R.RES_PACE_US))) ∧
      (leNat d = 2 → t.pst.smiResp = (0, leBytes 8 (s.rg R.RES_REST_US))) ∧ (leNat d = 3 → t.pst.smiResp = (0, leBytes 8 (s.rg R.RES_BENCH_US)))) ∧
    (s.pst.smiCmd = some (4, d) → ∃ t, exec .smiEvent s = .next t ∧ t.pst.smiCmd = none ∧
      t.pst.smiResp = (match s.log.recs.find? (fun r => r.num == leNat d) with | some r => (0, r.bytes) | none => (5, []))))

/-- REGISTER_WRITE, REG64_LOW_READ and INT_TEST, R437, R438, R681 to R683, R688: an access that BAR0 does not answer changes nothing; a plain field takes its value, an
out-of-range cap keeps the old one, a W1C bit is cleared by a 1, a locked field and a static field of an active block keep their values, a shadowed one waits;
the low word of a split write is held until the high word; a split read latches the high word; INT_TEST sends its vector under the masking rules. -/
def Obligations.RegistersTakeTheirValues : Prop :=
  (∀ (s : State) (fn : Fin 8) (off : Fin 65536) (v : BitVec 64) (wide m : Bool),
    s.bar0Up fn = false ∨ s.seesOff fn off = false ∨ off.val % (if wide then 8 else 4) ≠ 0 →
    exec (.registerWrite fn off v wide m) s = .next s) ∧
  (∀ (s : State) (fn : Fin 8) (off : Fin 65536) (v : BitVec 64) (m : Bool), fn ≠ 0 → 0x18 ≤ off.val → off.val < 0x400 ∨ 0x418 ≤ off.val →
    off.val < 0x8004 ∨ 0x8100 ≤ off.val → exec (.registerWrite fn off v false m) s = .next s) ∧
  (∀ (s : State) (v : BitVec 64) (m : Bool), Inv s → s.bar0Up 0 = true → s.flag R.RST_STAT_IN_RESET = false →
    let w := v.toNat % 2 ^ 32
    (∃ t, exec (.registerWrite 0 0x1300 v false m) s = .next t ∧ t.rg R.PST_CTL_WAKE_MASK = w % 16 ∧ OnlyRegs s t [R.PST_CTL_WAKE_MASK.key 0 0]) ∧
    (∃ t, exec (.registerWrite 0 0x1004 v false m) s = .next t ∧
      t.rg R.PWR_CAP_CAP = (if 80 ≤ w % 512 ∧ w % 512 ≤ 340 then w % 512 else s.rg R.PWR_CAP_CAP) ∧ OnlyRegs s t [R.PWR_CAP_CAP.key 0 0]) ∧
    (∃ t, exec (.registerWrite 0 0x1304 v false m) s = .next t ∧
      (∀ b, b < 5 → t.rgBit R.PST_STAT_CAUSE b = (s.rgBit R.PST_STAT_CAUSE b && !w.testBit (4 + b))) ∧ OnlyRegs s t [R.PST_STAT_CAUSE.key 0 0]) ∧
    (∃ t, exec (.registerWrite 0 0x1404 v false m) s = .next t ∧
      t.rg R.VRC_LIM_ICC_MAX = (if s.flag R.VRC_CFG_LATCH then s.rg R.VRC_LIM_ICC_MAX else w % 128) ∧ OnlyRegs s t [R.VRC_LIM_ICC_MAX.key 0 0]) ∧
    (∃ t, exec (.registerWrite 0 0x183C v false m) s = .next t ∧ t.lastWritten R.PPS_ADV_ADV 0 0 = w ∧ t.regs = s.regs ∧
      { t with shadow := s.shadow } = s) ∧
    (s.heatList ≠ [] → w.testBit 0 ≠ s.flag R.PACER_CTL_EN → s.rg R.PACER_CTL_EN < 2 → ∃ t, exec (.registerWrite 0 0x1100 v false m) s = .next t ∧
      t.rg R.PACER_CTL_EN = s.rg R.PACER_CTL_EN ∧ t.rg R.PACER_STAT_CFG_REJ = 1) ∧
    exec (.registerWrite 0 0x4008 v false m) s = .next s) ∧
  (∀ (s : State) (v : BitVec 64) (m : Bool), Inv s → s.bar0Up 0 = true → s.flag R.RST_STAT_IN_RESET = false →
    let w := v.toNat % 2 ^ 32
    (∃ t, exec (.registerWrite 0 0x1308 v false m) s = .next t ∧ { t with heldLow := s.heldLow } = s ∧ Store.get (2 ^ 32) t.heldLow 0x1308 = w) ∧
    (∃ t, exec (.registerWrite 0 0x130C v false m) s = .next t ∧
      (∀ low, Store.get (2 ^ 32) s.heldLow 0x1308 = low → low < 2 ^ 32 → t.rg R.WAKE_AT_AT = low + w * 2 ^ 32) ∧
      Store.get (2 ^ 32) t.heldLow 0x1308 = 2 ^ 32 ∧ { t with regs := s.regs, heldLow := s.heldLow } = s ∧ RegsBut s t [R.WAKE_AT_AT.key 0 0]) ∧
    (∃ t, exec (.registerWrite 0 0x1308 v true m) s = .next t ∧ t.rg R.WAKE_AT_AT = v.toNat ∧ OnlyRegs s t [R.WAKE_AT_AT.key 0 0])) ∧
  (∀ (s : State) (fn : Fin 8) (off : Fin 65536), s.bar0Up fn = false ∨ off.val % 4 ≠ 0 →
    exec (.reg64LowRead fn off) s = .next { s with lastRead := 0 }) ∧
  (∀ (s : State), s.bar0Up 0 = true → s.flag R.RST_STAT_IN_RESET = false → s.rg R.RES_RACE_US < 2 ^ 64 →
    (∃ t, exec (.reg64LowRead 0 0x1310) s = .next t ∧ t.lastRead = s.rg R.RES_RACE_US % 2 ^ 32 ∧
      Store.get (2 ^ 32) t.latched 0x1310 = s.rg R.RES_RACE_US / 2 ^ 32 ∧ { t with lastRead := s.lastRead, latched := s.latched } = s) ∧
    (∀ h, Store.get (2 ^ 32) s.latched 0x1310 = h → h ≠ 2 ^ 32 → ∃ t, exec (.reg64LowRead 0 0x1314) s = .next t ∧ t.lastRead = h ∧
      Store.get (2 ^ 32) t.latched 0x1310 = 2 ^ 32 ∧ { t with lastRead := s.lastRead, latched := s.latched } = s)) ∧
  (∀ (s : State) (v : Fin 128), s.bar0Up 0 = true → s.flag R.RST_STAT_IN_RESET = false →
    let p := vget s.host.fns 0
    (v.val ≤ 1 ∨ (66 ≤ v.val ∧ v.val ≤ 71) → p.msixEn = true → p.fnMask = false → p.mask.testBit v = false → s.host.linkUp = true → p.bme = true →
      ∃ t, exec (.intTest 0 v true) s = .next t ∧ t.out = s.out ++ [.msix 0 v] ∧
        t.rg R.INT_CNT_SENT = (s.rg R.INT_CNT_SENT + 1) % 2 ^ R.INT_CNT_SENT.width ∧ { t with regs := s.regs, pm := s.pm, out := s.out } = s) ∧
    (v.val ≤ 1 ∨ (66 ≤ v.val ∧ v.val ≤ 71) → p.msixEn = true → (p.fnMask = true ∨ p.mask.testBit v = true) →
      ∃ t, exec (.intTest 0 v true) s = .next t ∧ (vget t.host.fns 0).pba.testBit v = true ∧ t.out = s.out ∧ { t with host := s.host } = s) ∧
    (72 ≤ v.val → exec (.intTest 0 v true) s = .next s) ∧
    (p.msixEn = false → exec (.intTest 0 v true) s = .next s) ∧
    exec (.intTest 0 v false) s = .next s)

/-- R443, R445, R450, R452, R453 and R455, for every command row: a command that is in flight, not started and next in order starts, and one that is not (no
such command, another OPCODE, started already, behind an earlier one, or in a fatal stop or warm restart) is left alone. A completion is written to the
next slot of its ring, with RESULT, time stamp, CID, STATUS, PHASE, SQ_ID and SQ_HEAD, and the command leaves flight; where the ring is full, it is held. -/
def Obligations.CompletionsReachTheirRing : Prop :=
  (∀ (s : State) (ring : Fin 64) (cid : Fin 65536) (d : HostData) (txf ok : Bool), ∀ p ∈ commandRows ring cid d txf ok,
    (s.cmd? ring cid = none ∨ s.boot.stop ≠ none ∨ s.warm = true ∨
      (∃ c, s.cmd? ring cid = some c ∧ (c.opcode ≠ p.1 ∨ c.started = true ∨ s.mayStart c = false))) → exec p.2 s = .next s) ∧
  (∀ (w : State) (c : Cmd) (status result : Nat), TheCmd w c.ring c.cid c → c.ring < 64 → (w.ring c.ring).st = .active → (w.ring c.ring).full = false →
    (w.ring c.ring).waiting = [] → w.host.linkUp = true → (vget w.host.fns (w.ring c.ring).owner).bme = true →
    ∃ rest, (rest = [] ∨ rest = [.msix (w.ring c.ring).owner (ringVector c.ring)]) ∧
      (w.fin c status result).out = w.out ++ .hostWrite (w.ring c.ring).owner ((w.ring c.ring).cqBase + 16 * (w.ring c.ring).cqTail)
        (leBytes 12 (entryBody result w.tk.ns c.cid status) ++
          leBytes 4 ((if (w.ring c.ring).phase then 1 else 0) + c.ring * 8 + c.sqHead * 512)) :: rest ∧
      ((w.fin c status result).ring c.ring).cqTail = (if (w.ring c.ring).cqTail + 1 = (w.ring c.ring).cqSize then 0 else (w.ring c.ring).cqTail + 1) ∧
      (w.fin c status result).host.cmds = w.host.cmds.filter (fun d => !(d == c)) ∧
      (w.fin c status result).mem = w.mem ∧ (w.fin c status result).heats = w.heats) ∧
  (∀ (w : State) (c : Cmd) (status result : Nat), TheCmd w c.ring c.cid c → c.ring < 64 → (w.ring c.ring).st ≠ .absent →
    ((w.ring c.ring).full = true ∨ (w.ring c.ring).waiting ≠ []) →
    { (w.fin c status result) with host := w.host } = w ∧ (w.fin c status result).cmd? c.ring c.cid = none ∧
      ((w.fin c status result).ring c.ring).waiting = (w.ring c.ring).waiting ++ [⟨entryBody result w.tk.ns c.cid status, 0, c.ring, c.sqHead⟩] ∧
      (w.fin c status result).host.cmds.length = w.host.cmds.length)

/-- IDENTIFY, PATCH_STATUS, FEATURE_GET, FEATURE_SET, RING_CREATE and RING_DELETE, R470, R473 to R477 and R494: the records written where ADDR says and their
lengths as RESULT; the features read and set, by ring 0 only; a ring created, updated or refused, and drained before it is ABSENT. -/
def Obligations.AdminCommands : Prop :=
  (∀ (s : State) (u : Nat), (s.identify u).length = 256 ∧ rec64 (s.identify u) 0 = 0x384B422D525052 ∧
    rec8 (s.identify u) 9 = s.rg R.ID_REV_STEPPING % 256 ∧ rec16 (s.identify u) 10 = s.rg R.ID_REV_ROM_EDITION % 65536 ∧
    rec16 (s.identify u) 14 = s.dev % 65536) ∧
  (∀ (s : State) (ring : Fin 64) (cid : Fin 65536) (c : Cmd), Ready s ring cid 0x01 c →
    (c.only [(8, 0, 64), (16, 0, 1)] = true → c.arg 16 0 1 = 1 → exec (.identify ring cid) s =
      .next (((started s c).post c.user (.hostWrite c.user (c.arg 8 0 64) (s.identify c.user))).fin c Sc.ok 256)) ∧
    (c.only [(8, 0, 64), (16, 0, 1)] = true → c.arg 16 0 1 = 0 → c.arg 8 0 64 < 2 ^ 46 → s.canReach c.user (c.arg 8 0 64) 256 true = true →
      exec (.identify ring cid) s = .next (((started s c).deliver c.user (c.arg 8 0 64) (s.identify c.user)).fin c Sc.ok 256)) ∧
    (c.only [(8, 0, 64), (16, 0, 1)] = false → exec (.identify ring cid) s = .next ((started s c).fin c Sc.badField))) ∧
  (∀ (s : State) (ring : Fin 64) (cid : Fin 65536) (c : Cmd), Ready s ring cid 0x14 c → c.only [(8, 0, 64), (16, 0, 1)] = true → c.arg 16 0 1 = 1 →
    ∃ b : List Byte, exec (.patchStatus ring cid) s =
      .next (((started s c).post c.user (.hostWrite c.user (c.arg 8 0 64) b)).fin c Sc.ok s.patchesActive) ∧ b.length = 528 ∧ rec8 b 0 = 64 ∧
      rec8 b 1 = s.patchesActive % 256 ∧ rec8 b 4 = s.patchSlot % 256) ∧
  (∀ (s : State) (ring : Fin 64) (cid : Fin 65536) (c : Cmd), Ready s ring cid 0x02 c → c.only [(8, 0, 16), (12, 0, 32)] = true →
    (c.arg 8 0 16 = 1 → exec (.featureGet ring cid) s = .next ((started s c).fin c Sc.ok (if s.coding.lendEn then 1 else 0))) ∧
    (c.arg 8 0 16 = 2 → exec (.featureGet ring cid) s = .next ((started s c).fin c Sc.ok (s.rg R.DBG_CTL_BAR4_EN))) ∧
    (c.arg 8 0 16 = 3 → exec (.featureGet ring cid) s = .next ((started s c).fin c Sc.ok (s.rg R.LANE_CTL_MASK))) ∧
    (c.arg 8 0 16 = 4 → exec (.featureGet ring cid) s = .next ((started s c).fin c Sc.ok (s.rg R.LANE_CTL_IDLE_GATE))) ∧
    ((c.arg 8 0 16 = 0 ∨ 4 < c.arg 8 0 16) → exec (.featureGet ring cid) s = .next ((started s c).fin c Sc.badField))) ∧
  (∀ (s : State) (cid : Fin 65536) (c : Cmd), Ready s 0 cid 0x03 c → c.only [(8, 0, 16), (12, 0, 32)] = true →
    (c.arg 8 0 16 = 1 → c.arg 12 0 32 < 2 → ∃ w : State, exec (.featureSet 0 cid) s = .next (w.fin c Sc.ok) ∧
      w.coding.lendEn = (c.arg 12 0 32 == 1) ∧ { w with coding := { w.coding with lendEn := s.coding.lendEn } } = started s c) ∧
    (c.arg 8 0 16 = 2 → c.arg 12 0 32 < 2 →
      exec (.featureSet 0 cid) s = .next (((started s c).setRg R.DBG_CTL_BAR4_EN (c.arg 12 0 32)).fin c Sc.ok)) ∧
    (c.arg 8 0 16 = 3 → c.arg 12 0 32 < 256 →
      exec (.featureSet 0 cid) s = .next (((started s c).setRg R.LANE_CTL_MASK (c.arg 12 0 32)).fin c Sc.ok)) ∧
    (c.arg 8 0 16 = 4 → c.arg 12 0 32 < 2 →
      exec (.featureSet 0 cid) s = .next (((started s c).setRg R.LANE_CTL_IDLE_GATE (c.arg 12 0 32)).fin c Sc.ok)) ∧
    ((c.arg 8 0 16 = 0 ∨ 4 < c.arg 8 0 16 ∨ (c.arg 8 0 16 ≠ 3 ∧ 2 ≤ c.arg 12 0 32) ∨ 256 ≤ c.arg 12 0 32) →
      exec (.featureSet 0 cid) s = .next ((started s c).fin c Sc.badField))) ∧
  (∀ (s : State) (ring : Fin 64) (cid : Fin 65536) (c : Cmd), ring ≠ 0 → Ready s ring cid 0x03 c → c.only [(8, 0, 16), (12, 0, 32)] = true →
    1 ≤ c.arg 8 0 16 → c.arg 8 0 16 ≤ 4 → c.arg 12 0 32 < 2 → exec (.featureSet ring cid) s = .next ((started s c).fin c 0x0100)) ∧
  (∀ (s : State) (cid : Fin 65536) (c : Cmd) (n : Fin 64), Ready s 0 cid 0x04 c → c.arg 8 0 6 = n → n ≠ 0 →
    c.only [(8, 0, 6), (9, 0, 4), (10, 0, 8), (12, 0, 16), (14, 0, 16), (16, 0, 64), (24, 0, 64), (32, 0, 16), (34, 0, 16)] = true →
    (n = 1 → c.arg 9 0 3 = 0) → 1 ≤ c.arg 10 0 8 → c.arg 12 0 16 ≤ 1000 → c.arg 24 0 64 % 4096 = 0 → 2 ≤ c.arg 34 0 16 → c.arg 34 0 16 ≤ 1024 →
    ((c.arg 16 0 64 = 0 ∧ c.arg 32 0 16 = 0 ∧ c.arg 14 0 16 = 0) ∨ (c.arg 16 0 64 ≠ 0 ∧ c.arg 16 0 64 % 4096 = 0 ∧ 2 ≤ c.arg 32 0 16 ∧
      c.arg 32 0 16 ≤ 1024 ∧ 1 ≤ c.arg 14 0 16 ∧ c.arg 14 0 16 < c.arg 32 0 16)) →
    ((s.ring n).st = .absent → ∃ w : State, exec (.ringCreate 0 cid) s = .next (w.fin c Sc.ok) ∧ (w.ring n).st = .active ∧ (w.ring n).owner = c.arg 9 0 3 ∧
      (w.ring n).sqBase = c.arg 16 0 64 ∧ (w.ring n).sqSize = c.arg 32 0 16 ∧ (w.ring n).cqBase = c.arg 24 0 64 ∧ (w.ring n).cqSize = c.arg 34 0 16 ∧
      (w.ring n).maxInflight = c.arg 14 0 16 ∧ (w.ring n).irqEn = c.arg 9 3 1 ∧ (w.ring n).coalN = c.arg 10 0 8 ∧ (w.ring n).coalUs = c.arg 12 0 16 ∧
      (w.ring n).sqHead = 0 ∧ (w.ring n).sqTail = 0 ∧ (w.ring n).cqHead = 0 ∧ (w.ring n).cqTail = 0 ∧ (w.ring n).phase = true ∧
      (∀ m : Fin 64, m ≠ n → w.ring m = s.ring m) ∧
      { w with host := { w.host with rings := s.host.rings } } = started s c) ∧
    ((s.ring n).st ≠ .absent → (s.ring n).owner = c.arg 9 0 3 → (s.ring n).sqBase = c.arg 16 0 64 → (s.ring n).sqSize = c.arg 32 0 16 →
      (s.ring n).cqBase = c.arg 24 0 64 → (s.ring n).cqSize = c.arg 34 0 16 → (s.ring n).maxInflight = c.arg 14 0 16 →
      ∃ w : State, exec (.ringCreate 0 cid) s = .next (w.fin c Sc.ok 1) ∧
        w.ring n = { s.ring n with irqEn := c.arg 9 3 1, coalN := c.arg 10 0 8, coalUs := c.arg 12 0 16 } ∧
        (∀ m : Fin 64, m ≠ n → w.ring m = s.ring m) ∧ { w with host := { w.host with rings := s.host.rings } } = started s c) ∧
    ((s.ring n).st ≠ .absent → (s.ring n).owner ≠ c.arg 9 0 3 → exec (.ringCreate 0 cid) s = .next ((started s c).fin c Sc.cfgBusy))) ∧
  (∀ (s : State) (cid : Fin 65536) (c : Cmd) (n : Fin 64), Ready s 0 cid 0x05 c → c.only [(8, 0, 6)] = true → c.arg 8 0 6 = n → n ≠ 0 →
    ((s.ring n).st = .absent → exec (.ringDelete 0 cid) s = .next ((started s c).fin c Sc.ok 1)) ∧
    ((s.ring n).st ≠ .absent → s.ringNamed n = true → exec (.ringDelete 0 cid) s = .next ((started s c).fin c Sc.cfgBusy)) ∧
    ((s.ring n).st = .active → s.ringNamed n = false → s.host.cmds.any (fun d => d.ring == n.val) = true → ∃ t : State, exec (.ringDelete 0 cid) s = .next t ∧
      t.ring n = { s.ring n with st := .draining, deleters := (s.ring n).deleters ++ [(0, cid.val)] } ∧
      (∀ m : Fin 64, m ≠ n → t.ring m = s.ring m) ∧ { t with host := { t.host with rings := s.host.rings } } = started s c) ∧
    ((s.ring n).st = .active → s.ringNamed n = false → (s.ring n).waiting = [] → (s.ring n).deleters = [] →
      s.host.cmds.any (fun d => d.ring == n.val) = false → ∃ t : State, exec (.ringDelete 0 cid) s = .next t ∧ (t.ring n).st = .absent ∧
        t.cmd? 0 cid = none)) ∧
  (∀ (s : State) (ring : Fin 64) (cid : Fin 65536) (c : Cmd), ring ≠ 0 →
    (Ready s ring cid 0x04 c → ∃ st : Nat, st ∈ [Sc.badField, Sc.cfgBusy, 0x0100] ∧ exec (.ringCreate ring cid) s = .next ((started s c).fin c st)) ∧
    (Ready s ring cid 0x05 c → ∃ st : Nat, st ∈ [Sc.badField, Sc.cfgBusy, 0x0100] ∧ exec (.ringDelete ring cid) s = .next ((started s c).fin c st)))

/-- MEM_MAP, MEM_UNMAP, POOL_CLASS_SET, POOL_QUOTA_SET and POOL_OP, R478 to R483 and R485: a mapping added to its user's windows, found there
already, or refused, and removed unless it is in use; a class configured with its buffers FREE and its quotas 0, its low water and quotas set;
and each operation of Table POL-6 as its requester, with the RESULT of Table CMA-7. -/
def Obligations.WindowAndPoolCommands : Prop :=
  (∀ (s : State) (ring : Fin 64) (cid : Fin 65536) (c : Cmd) (m : Mapping), Ready s ring cid 0x06 c → c.user < 8 →
    c.only [(8, 0, 64), (16, 0, 33), (24, 0, 32), (28, 0, 2)] = true →
    m = ⟨c.arg 16 0 33, c.arg 24 0 32 * 4096, c.arg 8 0 64, c.arg 28 0 1 == 1, c.arg 28 1 1 == 1⟩ →
    m.bus % 4096 = 0 → m.off % 4096 = 0 → 1 ≤ c.arg 24 0 32 → c.arg 24 0 32 ≤ 262144 → m.off + m.len ≤ 2 ^ 33 → (m.rd = true ∨ m.wr = true) →
    (m ∈ vget s.host.maps c.user → (∀ x ∈ vget s.host.maps c.user, x = m ∨ x.off + x.len ≤ m.off ∨ m.off + m.len ≤ x.off) →
      exec (.memMap ring cid) s = .next ((started s c).fin c Sc.ok 1)) ∧
    ((∀ x ∈ vget s.host.maps c.user, x.off + x.len ≤ m.off ∨ m.off + m.len ≤ x.off) → m ∉ vget s.host.maps c.user →
      512 ≤ (vget s.host.maps c.user).length → exec (.memMap ring cid) s = .next ((started s c).fin c 0x0101)) ∧
    ((∀ x ∈ vget s.host.maps c.user, x.off + x.len ≤ m.off ∨ m.off + m.len ≤ x.off) → m ∉ vget s.host.maps c.user →
      (vget s.host.maps c.user).length < 512 → ∃ w : State, exec (.memMap ring cid) s = .next (w.fin c Sc.ok) ∧
        vget w.host.maps c.user = vget s.host.maps c.user ++ [m] ∧ (∀ u : Fin 8, u.val ≠ c.user → vget w.host.maps u = vget s.host.maps u) ∧
        { w with host := { w.host with maps := s.host.maps } } = started s c) ∧
    ((∃ x ∈ vget s.host.maps c.user, x ≠ m ∧ m.off < x.off + x.len ∧ x.off < m.off + m.len) →
      exec (.memMap ring cid) s = .next ((started s c).fin c Sc.badField))) ∧
  (∀ (s : State) (ring : Fin 64) (cid : Fin 65536) (c : Cmd), Ready s ring cid 0x07 c → c.user < 8 → c.only [(16, 0, 33)] = true →
    ((∀ x ∈ vget s.host.maps c.user, x.off ≠ c.arg 16 0 33) → exec (.memUnmap ring cid) s = .next ((started s c).fin c Sc.ok 1)) ∧
    (∀ m ∈ vget s.host.maps c.user, m.off = c.arg 16 0 33 → s.xfers = [] → s.heatList = [] →
      ∃ w : State, exec (.memUnmap ring cid) s = .next (w.fin c Sc.ok) ∧
        (∀ x, x ∈ vget w.host.maps c.user ↔ x ∈ vget s.host.maps c.user ∧ x.off ≠ c.arg 16 0 33) ∧
        (∀ u : Fin 8, u.val ≠ c.user → vget w.host.maps u = vget s.host.maps u) ∧
        { w with host := { w.host with maps := s.host.maps } } = started s c)) ∧
  (∀ (s : State) (ring : Fin 64) (cid : Fin 65536) (c : Cmd) (k : Fin 32), Ready s ring cid 0x08 c →
    c.only [(8, 0, 5), (9, 0, 8), (10, 0, 2), (12, 0, 18), (16, 0, 19), (20, 0, 32), (24, 0, 46)] = true → c.arg 8 0 5 = k →
    ((s.pclass k).conf = false → ∀ x : PoolClass, x.conf = true → x.size = c.arg 9 0 8 → x.refcount = (c.arg 10 0 1 == 1) →
      x.firstCome = (c.arg 10 1 1 == 1) → x.first = c.arg 12 0 18 → x.count = c.arg 16 0 19 → x.base = c.arg 24 0 46 → x.lowWater = c.arg 20 0 32 →
      x.user = c.user → x.quota = List.replicate 16 0 → x.armed = true → x.free = (List.range x.count).map (fun i => x.first + i) → s.classOk k c.user x = true →
      ∃ w : State, exec (.poolClassSet ring cid) s = .next (w.fin c Sc.ok) ∧ w.pclass k = x ∧
        (∀ j : Fin 32, j ≠ k → w.pclass j = s.pclass j) ∧ { w with pool := s.pool } = started s c) ∧
    ((s.pclass k).conf = true → (s.pclass k).size = c.arg 9 0 8 → (s.pclass k).refcount = (c.arg 10 0 1 == 1) →
      (s.pclass k).firstCome = (c.arg 10 1 1 == 1) → (s.pclass k).first = c.arg 12 0 18 → (s.pclass k).count = c.arg 16 0 19 →
      (s.pclass k).base = c.arg 24 0 46 → c.arg 20 0 32 ≤ c.arg 16 0 19 →
      ((c.user = 0 ∨ c.user = (s.pclass k).user) → ∃ w : State, exec (.poolClassSet ring cid) s = .next (w.fin c Sc.ok 1) ∧
        w.pclass k = { s.pclass k with lowWater := c.arg 20 0 32 } ∧ (∀ j : Fin 32, j ≠ k → w.pclass j = s.pclass j) ∧
        { w with pool := s.pool } = started s c) ∧
      (c.user ≠ 0 → c.user ≠ (s.pclass k).user → exec (.poolClassSet ring cid) s = .next ((started s c).fin c 0x0100)))) ∧
  (∀ (s : State) (ring : Fin 64) (cid : Fin 65536) (c : Cmd) (k : Fin 32) (q : List Nat), Ready s ring cid 0x09 c → c.arg 8 0 8 = k →
    c.only ([(8, 0, 8), (9, 0, 8), (10, 0, 8)] ++ (List.range (min (c.arg 10 0 8) 12)).map (fun i => (16 + 4 * i, 0, 32))) = true →
    (s.pclass k).conf = true → 1 ≤ c.arg 10 0 8 → c.arg 10 0 8 ≤ 12 → c.arg 9 0 8 + c.arg 10 0 8 ≤ 16 → (s.pclass k).firstCome = false →
    (s.pclass k).quota.length = 16 → q.length = 16 →
    (∀ g, g < 16 → q.getD g 0 = if c.arg 9 0 8 ≤ g ∧ g < c.arg 9 0 8 + c.arg 10 0 8 then c.arg (16 + 4 * (g - c.arg 9 0 8)) 0 32
      else (s.pclass k).quota.getD g 0) →
    (q.sum ≤ (s.pclass k).count → (c.user = 0 ∨ c.user = (s.pclass k).user) → ∃ w : State, exec (.poolQuotaSet ring cid) s = .next (w.fin c Sc.ok) ∧
      w.pclass k = { s.pclass k with quota := q } ∧ (∀ j : Fin 32, j ≠ k → w.pclass j = s.pclass j) ∧ { w with pool := s.pool } = started s c) ∧
    (q.sum ≤ (s.pclass k).count → c.user ≠ 0 → c.user ≠ (s.pclass k).user → exec (.poolQuotaSet ring cid) s = .next ((started s c).fin c 0x0100)) ∧
    ((s.pclass k).count < q.sum → exec (.poolQuotaSet ring cid) s = .next ((started s c).fin c Sc.badField))) ∧
  (∀ (s : State) (ring : Fin 64) (cid : Fin 65536) (c : Cmd), Ready s ring cid 0x0B c →
    c.only [(8, 0, 8), (9, 0, 5), (10, 0, 6), (11, 0, 1), (12, 0, 32), (16, 0, 64)] = true →
    (c.arg 8 0 8 = 0 → c.arg 10 0 6 = 0 → c.arg 11 0 1 = 0 → c.arg 12 0 32 = 0 → c.arg 16 0 64 = 0 →
      ∀ a : Ans, a = (started s c).alloc (32 + c.user) (c.arg 9 0 5) →
      exec (.poolOp ring cid) s = .next (a.st.fin c a.status (if a.status = Sc.ok then a.val else 0))) ∧
    (c.arg 8 0 8 = 1 → c.arg 9 0 5 = 0 → c.arg 10 0 6 = 0 → c.arg 11 0 1 = 0 → c.arg 16 0 64 = 0 →
      ∀ a : Ans, a = (started s c).pfree (32 + c.user) (c.arg 12 0 32) → exec (.poolOp ring cid) s = .next (a.st.fin c a.status)) ∧
    (c.arg 8 0 8 = 2 → c.arg 9 0 5 = 0 → c.arg 11 0 1 = 0 → c.arg 16 0 64 = 0 →
      ∀ a : Ans, a = (started s c).pgive (32 + c.user) (c.arg 12 0 32) (c.arg 10 0 6) →
      exec (.poolOp ring cid) s = .next (a.st.fin c a.status (if a.status = Sc.ok then a.val else 0))) ∧
    (c.arg 8 0 8 = 3 → c.arg 9 0 5 = 0 → c.arg 10 0 6 = 0 → c.arg 11 0 1 = 0 → c.arg 16 0 64 = 0 →
      ∀ a : Ans, a = (started s c).pref (c.arg 12 0 32) →
      exec (.poolOp ring cid) s = .next (a.st.fin c a.status (if a.status = Sc.ok then (a.st.buf (hIndex (c.arg 12 0 32))).count else 0))) ∧
    (c.arg 8 0 8 = 4 → c.arg 9 0 5 = 0 → c.arg 10 0 6 = 0 → c.arg 11 0 1 = 0 → c.arg 16 0 64 = 0 →
      ∀ a : Ans, a = (started s c).punref (32 + c.user) (c.arg 12 0 32) →
      exec (.poolOp ring cid) s = .next (a.st.fin c a.status (if a.status = Sc.ok then (a.st.buf (hIndex (c.arg 12 0 32))).count else 0))) ∧
    (c.arg 8 0 8 = 5 → c.arg 9 0 5 = 0 → c.arg 10 0 6 = 0 → c.arg 11 0 1 = 1 → ((started s c).pquery (c.arg 12 0 32)).1 = Sc.ok →
      ∃ (w : State) (b : List Byte), exec (.poolOp ring cid) s = .next (w.fin c Sc.ok 16) ∧ b.length = 16 ∧
        w = ((started s c).pquery (c.arg 12 0 32)).2.2.post c.user (.hostWrite c.user (c.arg 16 0 64) b) ∧
        b = queryRecord (c.arg 12 0 32) ((started s c).pquery (c.arg 12 0 32)).2.1) ∧
    (5 < c.arg 8 0 8 → exec (.poolOp ring cid) s = .next ((started s c).fin c Sc.badField)))

/-- PROG_LOAD, PROG_VERIFY, PROG_UNLOAD, HEAT_SUBMIT, CANCEL, STREAM_COPY, STREAM_FILL and STREAM_RELEASE, R177, R186 to R194 and R486 to R493: a container that
passes its checks becomes a program LOADED under a fresh handle; a verified one is READY; an unloaded one is gone. A submission that passes its
checks puts its Heat into the lowest free slot and stays in flight; a stream copy becomes a transfer of engine 8; a fill repeats its pattern; a
CANCEL answers what became of its target. -/
def Obligations.ProgramHeatAndStreamCommands : Prop :=
  (∀ (s : State) (ring : Fin 64) (cid : Fin 65536) (c : Cmd) (img : List Byte), Ready s ring cid 0x0C c →
    c.only [(8, 0, 64), (16, 0, 32), (20, 0, 8), (21, 0, 1), (24, 0, 24), (32, 0, 64)] = true → c.arg 24 0 24 % 64 = 0 → c.arg 32 0 64 % 64 = 0 →
    c.arg 21 0 1 = 1 → img.length = c.arg 16 0 32 → s.host.linkUp = true → (vget s.host.fns c.user).bme = true →
    ∀ lanes : List Nat, lanes = (s.lanesFor (c.arg 20 0 8)).take (progLanes img) →
    (imageOk img img.length = true → s.residentsOk img (lanes.map (fun n => n * 0x0100_0000 + c.arg 24 0 24)) (c.arg 24 0 24) (c.arg 32 0 64) = true →
      (s.lanesFor (c.arg 20 0 8)).length < progLanes img → exec (.progLoad ring cid (.got img)) s = .next ((started s c).fin c Sc.notReady)) ∧
    (imageOk img img.length = true → s.residentsOk img (lanes.map (fun n => n * 0x0100_0000 + c.arg 24 0 24)) (c.arg 24 0 24) (c.arg 32 0 64) = true →
      progLanes img ≤ (s.lanesFor (c.arg 20 0 8)).length → s.tablesBound img lanes = false → s.progs.length < 64 →
      (s.progs.map (fun p => tableBytes p.image)).sum + tableBytes img ≤ 2 ^ 23 →
      ∃ (w : State) (h : Nat), exec (.progLoad ring cid (.got img)) s = .next (w.fin c Sc.ok h) ∧ h % 65536 < 64 ∧ 1 ≤ h / 65536 ∧
        (∀ p ∈ s.progs, p.handle % 64 ≠ h % 64) ∧
        w.progs = s.progs ++ [⟨h, c.user, false, img, lanes, lanes.map (fun n => n * 0x0100_0000 + c.arg 24 0 24), c.arg 32 0 64⟩] ∧
        w.heats = s.heats ∧ w.host = (started s c).host ∧ (sectionOf img 3 = [] → w.mem = s.mem ∧ w.regs = s.regs)) ∧
    (imageOk img img.length = false → exec (.progLoad ring cid (.got img)) s = .next ((started s c).fin c Sc.badField))) ∧
  (∀ (s : State) (ring : Fin 64) (cid : Fin 65536) (c : Cmd) (p : Prog), Ready s ring cid 0x0D c → c.only [(8, 0, 32)] = true →
    s.prog? (c.arg 8 0 32) = some p →
    (s.tagOk p = false → exec (.progVerify ring cid) s = .next ((started s c).fin c Sc.sigInvalid)) ∧
    (s.tagOk p = true → c.user ≠ p.user → exec (.progVerify ring cid) s = .next ((started s c).fin c 0x0100)) ∧
    (s.tagOk p = true → c.user = p.user → ∃ w : State, exec (.progVerify ring cid) s = .next (w.fin c Sc.ok) ∧
      w.progs = s.progs.map (fun q => if q.handle = p.handle then { q with ready := true } else q) ∧ { w with progs := s.progs } = started s c)) ∧
  (∀ (s : State) (ring : Fin 64) (cid : Fin 65536) (c : Cmd) (p : Prog), Ready s ring cid 0x0E c → c.only [(8, 0, 32)] = true →
    s.prog? (c.arg 8 0 32) = some p →
    (s.progBusy p.handle = true → exec (.progUnload ring cid) s = .next ((started s c).fin c Sc.cfgBusy)) ∧
    (s.progBusy p.handle = false → c.user ≠ p.user → c.user ≠ 0 → exec (.progUnload ring cid) s = .next ((started s c).fin c 0x0100)) ∧
    (s.progBusy p.handle = false → (c.user = p.user ∨ c.user = 0) → ∃ w : State, exec (.progUnload ring cid) s = .next (w.fin c Sc.ok) ∧
      (∀ q, q ∈ w.progs ↔ q ∈ s.progs ∧ q.handle ≠ p.handle) ∧ { w with progs := s.progs } = started s c)) ∧
  (∀ (s : State) (ring : Fin 64) (cid : Fin 65536) (c : Cmd), s.prog? (c.arg 8 0 32) = none →
    (Ready s ring cid 0x0D c → exec (.progVerify ring cid) s = .next ((started s c).fin c Sc.badField)) ∧
    (Ready s ring cid 0x0E c → exec (.progUnload ring cid) s = .next ((started s c).fin c Sc.badField))) ∧
  (∀ (s : State) (ring : Fin 64) (cid : Fin 65536) (c : Cmd) (b : List Byte) (p : Prog) (h : Heat), Ready s ring cid 0x0F c →
    s.rg R.PST_STAT_STATE ≠ 2 → s.noHeats = false → c.only [(8, 0, 64), (16, 0, 1)] = true → c.arg 16 0 1 = 1 → c.rdata = none →
    s.host.linkUp = true → (vget s.host.fns c.user).bme = true → b.length = 64 + 16 * rec16 b 6 → rec16 b 6 ≤ 64 → s.prog? (rec32 b 0) = some p →
    h = (started s c).heatOf c p (b.take 64) (recordsOf 16 (b.drop 64)) → h.radio = false →
    (s.submitOk c p h (some []) = false → exec (.heatSubmit ring cid (.got b)) s = .next ((started s c).fin c Sc.badField)) ∧
    (s.submitOk c p h (some []) = true → p.ready = false → exec (.heatSubmit ring cid (.got b)) s = .next ((started s c).fin c Sc.notReady)) ∧
    (s.submitOk c p h (some []) = true → p.ready = true → ∀ slot : Fin 32, s.freeSlot false = some slot.val →
      (p.user ≠ c.user → exec (.heatSubmit ring cid (.got b)) s = .next ((started s c).fin c 0x0100)) ∧
      (p.user = c.user → (∀ v, v < progLanes p.image → fenceBreak h p.image s.dev v = none) → s.barred p = [] →
        ((started s c).takeActs slot h.desc (activations p.image) []).1 = Sc.ok →
        ∃ (t : State) (g : Heat), exec (.heatSubmit ring cid (.got b)) s = .next t ∧ t.heat slot = some g ∧ g.prog = p.handle ∧ g.user = c.user ∧
          g.ring = c.ring ∧ g.cid = c.cid ∧ g.desc = b.take 64 ∧ g.binds = recordsOf 16 (b.drop 64) ∧ g.admitNs = s.tk.ns ∧ g.st = .admitted ∧
          (∀ k : Fin 32, k ≠ slot → t.heat k = s.heat k) ∧ t.cmd? ring cid = some { c with started := true } ∧ t.mem = s.mem))) ∧
  (∀ (s : State) (ring : Fin 64) (cid : Fin 65536) (c : Cmd), Ready s ring cid 0x10 c → c.only [(8, 0, 6), (10, 0, 16)] = true →
    ((s.ring (c.arg 8 0 6)).st ≠ .absent → (s.ring (c.arg 8 0 6)).owner ≠ c.user → exec (.cancel ring cid) s = .next ((started s c).fin c 0x0100)) ∧
    (((s.ring (c.arg 8 0 6)).st = .absent ∨ (s.ring (c.arg 8 0 6)).owner = c.user) →
      ((started s c).cmd? (c.arg 8 0 6) (c.arg 10 0 16) = none → exec (.cancel ring cid) s = .next ((started s c).fin c Sc.ok 1)) ∧
      (∀ d : Cmd, (started s c).cmd? (c.arg 8 0 6) (c.arg 10 0 16) = some d →
        (d.opcode ≠ 0x0F → d.opcode ≠ 0x11 → d.opcode ≠ 0x12 → exec (.cancel ring cid) s = .next ((started s c).fin c Sc.ok 3)) ∧
        (d.opcode = 0x0F → s.heatList = [] → exec (.cancel ring cid) s = .next (((started s c).fin d Sc.aborted).fin c Sc.ok)) ∧
        (∀ (slot : Fin 32) (h : Heat), d.opcode = 0x0F → s.heatList = [(slot.val, h)] → h.ring = d.ring → h.cid = d.cid → h.silent = false →
          h.live = true → h.radio = true → h.firstSample = true → ∃ w : State, exec (.cancel ring cid) s = .next (w.fin c Sc.ok 2) ∧
            (w.heat slot).isSome = true) ∧
        ((d.opcode = 0x11 ∨ d.opcode = 0x12) → s.xfers = [] →
          exec (.cancel ring cid) s = .next (((started s c).fin d Sc.aborted).fin c Sc.ok))))) ∧
  (∀ (s : State) (ring : Fin 64) (cid : Fin 65536) (c : Cmd) (b : List Byte) (tok : Option (Bool × Nat)), Ready s ring cid 0x11 c →
    s.rg R.PST_STAT_STATE ≠ 2 → c.only [(8, 0, 64), (16, 0, 64), (24, 0, 2)] = true → c.arg 24 0 1 = 1 → b.length = 64 → s.host.linkUp = true →
    (vget s.host.fns c.user).bme = true → dKind b = 0 → (dPair b = true → c.arg 16 0 64 ≠ 0) → c.arg 24 1 1 = 1 →
    tok = (if c.arg 16 0 64 = 0 then none else some (true, c.arg 16 0 64)) →
    ((dSrcGlobal b = true ∨ dDstGlobal b = true) → c.user ≠ 0 → exec (.streamCopy ring cid (.got b)) s = .next ((started s c).fin c 0x0100)) ∧
    (((dSrcGlobal b = false ∧ dDstGlobal b = false) ∨ c.user = 0) →
      (s.xfers.any (fun y => y.st = .queued && y.id != s.xferNext) = true → ∃ (t : State) (x : Xfer), exec (.streamCopy ring cid (.got b)) s = .next t ∧
        t.xfers = s.xfers ++ [x] ∧ x.id = s.xferNext ∧ x.engine = 8 ∧ x.issuer = .cmd c.ring c.cid ∧ x.user = c.user ∧ x.desc = b ∧ x.st = .queued ∧
        x.tokenAddr = tok ∧ t.xferNext = s.xferNext + 1 ∧ { t with xfers := s.xfers, xferNext := s.xferNext } = started s c) ∧
      (∀ x : Xfer, s.xfers = [] → x = { id := s.xferNext, engine := 8, issuer := .cmd c.ring c.cid, user := c.user, desc := b, st := .queued, reserved := false, tokenAddr := tok } →
        s.entryFree false = true → ({ started s c with xfers := [x], xferNext := s.xferNext + 1 } : State).xferOk { x with st := .admitted } = true →
        ∃ t : State, exec (.streamCopy ring cid (.got b)) s = .next t ∧ t.xfers = [{ x with st := .admitted }] ∧ t.xferNext = s.xferNext + 1 ∧
          t.mem = s.mem ∧ t.host = (started s c).host))) ∧
  (∀ (s : State) (ring : Fin 64) (cid : Fin 65536) (c : Cmd), Ready s ring cid 0x12 c → s.rg R.PST_STAT_STATE ≠ 2 →
    c.only [(8, 0, 64), (16, 0, 32), (20, 0, 8), (24, 0, 64)] = true →
    (c.arg 20 0 8 ∈ [1, 2, 4, 8] → c.arg 16 0 32 ≠ 0 → c.arg 16 0 32 % c.arg 20 0 8 = 0 → c.arg 8 0 64 % c.arg 20 0 8 = 0 → c.arg 8 0 64 < 2 ^ 46 →
      s.canReach c.user (c.arg 8 0 64) (c.arg 16 0 32) true = true → s.inMem (c.arg 8 0 64) (c.arg 16 0 32) = true →
      ∃ w : State, exec (.streamFill ring cid) s = .next (w.fin c Sc.ok) ∧
        (∀ k, k < c.arg 16 0 32 → w.byte (c.arg 8 0 64 + k) = BitVec.ofNat 8 (c.arg 24 0 64 / 256 ^ (k % c.arg 20 0 8))) ∧
        BytesBut s w (c.arg 8 0 64) (c.arg 16 0 32) ∧ w.heats = s.heats ∧ w.xfers = s.xfers) ∧
    ((c.arg 20 0 8 ∉ [1, 2, 4, 8] ∨ c.arg 16 0 32 = 0 ∨ c.arg 16 0 32 % c.arg 20 0 8 ≠ 0 ∨ c.arg 8 0 64 % c.arg 20 0 8 ≠ 0) →
      exec (.streamFill ring cid) s = .next ((started s c).fin c Sc.badField))) ∧
  (∀ (s : State) (ring : Fin 64) (cid : Fin 65536) (c : Cmd), Ready s ring cid 0x13 c → c.only [(8, 0, 6), (10, 0, 16), (12, 0, 1)] = true →
    ((s.ring (c.arg 8 0 6)).st = .absent ∨ (s.ring (c.arg 8 0 6)).owner = c.user) →
    ((started s c).cmd? (c.arg 8 0 6) (c.arg 10 0 16) = none → exec (.streamRelease ring cid) s = .next ((started s c).fin c Sc.ok 1)) ∧
    (∀ (d : Cmd) (x : Xfer), (started s c).cmd? (c.arg 8 0 6) (c.arg 10 0 16) = some d → s.xfers = [x] → x.issuer = .cmd d.ring d.cid →
      dPair x.desc = true → x.free.length = 2 → x.free.getD (c.arg 12 0 1) true = false → ∃ (w : State) (y : Xfer),
        exec (.streamRelease ring cid) s = .next (w.fin c Sc.ok) ∧ w.xfers = [y] ∧ y.free.getD (c.arg 12 0 1) false = true ∧
        (x.st = .pairWait → x.chunk % 2 = c.arg 12 0 1 → y.st = .moving) ∧ { w with xfers := s.xfers } = started s c))

/-- CARRIER_SET, CARRIER_ACTIVATE, SLOT_TABLE_SET, AGC_SET, LINK_RESET and POLAR, R240, R242, R502 to R510: a carrier record that passes its checks is kept, unless
it would change an active carrier's static fields; an activation waits for its boundary; a slot table changes at once where the carrier is inactive and
waits where it is active; a pair takes its gain fields; named links search again; a request for the polar engine is queued. -/
def Obligations.RadioCommands : Prop :=
  (∀ (s : State) (ring : Fin 64) (cid : Fin 65536) (c : Cmd) (n : Fin 4) (b : List Byte), Ready s ring cid 0x40 c → c.arg 8 0 2 = n →
    c.only [(8, 0, 2), (9, 0, 2), (16, 0, 64)] = true →
    (c.arg 9 1 1 = 1 → ((s.carrier n).active = true ∨ (s.carrier n).pend ≠ none) →
      exec (.carrierSet ring cid (.got b)) s = .next ((started s c).fin c Sc.cfgBusy)) ∧
    (c.arg 9 1 1 = 1 → (s.carrier n).active = false → (s.carrier n).pend = none →
      (c.user ≠ 0 → exec (.carrierSet ring cid (.got b)) s = .next ((started s c).fin c 0x0100)) ∧
      (c.user = 0 → ∃ w : State, exec (.carrierSet ring cid (.got b)) s = .next (w.fin c Sc.ok (if (s.carrier n).conf then 0 else 1)) ∧
        w.carrier n = {} ∧ (∀ m : Fin 4, m ≠ n → w.carrier m = s.carrier m) ∧ w.radio.links = s.radio.links ∧ w.radio.agc = s.radio.agc ∧
        { w with radio := s.radio } = started s c)) ∧
    (c.arg 9 1 1 = 0 → c.arg 9 0 1 = 1 → s.host.linkUp = true → (vget s.host.fns c.user).bme = true → b.length = 64 →
      (s.carrierOk n b = false → exec (.carrierSet ring cid (.got b)) s = .next ((started s c).fin c Sc.badField)) ∧
      (s.carrierOk n b = true → ∀ same : Bool, same = ((s.carrier n).conf && carrierStatic (s.carrier n).rec_ == carrierStatic b) →
        (((s.carrier n).active = true ∨ (∃ r k, (s.carrier n).pend = some (r, k, true))) → same = false →
          exec (.carrierSet ring cid (.got b)) s = .next ((started s c).fin c Sc.cfgBusy)) ∧
        ((same = true ∨ ((s.carrier n).active = false ∧ (s.carrier n).pend = none)) → c.user ≠ 0 →
          exec (.carrierSet ring cid (.got b)) s = .next ((started s c).fin c 0x0100)) ∧
        ((same = true ∨ ((s.carrier n).active = false ∧ (s.carrier n).pend = none)) → c.user = 0 →
          ∃ w : State, exec (.carrierSet ring cid (.got b)) s = .next (w.fin c Sc.ok (if same then 1 else 0)) ∧
            (w.carrier n).conf = true ∧ (w.carrier n).rec_ = b ∧ (w.carrier n).active = (s.carrier n).active ∧
            (w.carrier n).tab = (if (s.carrier n).conf then (s.carrier n).tab else List.replicate 160 0) ∧
            (w.carrier n).blank = (if (s.carrier n).active then (s.carrier n).blank else cBlank b) ∧
            (∀ m : Fin 4, m ≠ n → w.carrier m = s.carrier m) ∧ w.radio.links = s.radio.links ∧ w.radio.agc = s.radio.agc ∧
            { w with radio := s.radio } = started s c)))) ∧
  (∀ (s : State) (ring : Fin 64) (cid : Fin 65536) (c : Cmd) (n : Fin 4) (on : Bool), Ready s ring cid 0x41 c → c.arg 8 0 2 = n →
    c.only [(8, 0, 2), (9, 0, 1)] = true → on = (c.arg 9 0 1 == 1) → s.rg R.PST_STAT_STATE ≠ 2 →
    ((s.carrier n).conf = false → exec (.carrierActivate ring cid) s = .next ((started s c).fin c Sc.badField)) ∧
    ((s.carrier n).conf = true → (on = true → s.sysrefFits (s.carrier n).rec_ = true) →
      ((s.carrier n).pend ≠ none → exec (.carrierActivate ring cid) s = .next ((started s c).fin c Sc.cfgBusy)) ∧
      ((s.carrier n).pend = none → c.user ≠ 0 → exec (.carrierActivate ring cid) s = .next ((started s c).fin c 0x0100)) ∧
      ((s.carrier n).pend = none → c.user = 0 → (s.carrier n).active = on →
        exec (.carrierActivate ring cid) s = .next ((started s c).fin c Sc.ok (2 ^ 31))) ∧
      ((s.carrier n).pend = none → c.user = 0 → (s.carrier n).active ≠ on → ∃ t : State, exec (.carrierActivate ring cid) s = .next t ∧
        t.carrier n = { s.carrier n with pend := some (c.ring, c.cid, on) } ∧ (∀ m : Fin 4, m ≠ n → t.carrier m = s.carrier m) ∧ t.mem = s.mem ∧
        (on = false → { t with radio := s.radio } = started s c)))) ∧
  (∀ (s : State) (ring : Fin 64) (cid : Fin 65536) (c : Cmd) (k : Fin 4) (b : List Byte), Ready s ring cid 0x42 c → c.arg 8 0 8 = k →
    c.only [(8, 0, 8), (9, 0, 1), (10, 0, 8), (11, 0, 8), (16, 0, 64)] = true → c.arg 10 0 8 ≤ 159 → 1 ≤ c.arg 11 0 8 → c.arg 11 0 8 ≤ 160 →
    c.arg 9 0 1 = 1 → s.host.linkUp = true → (vget s.host.fns c.user).bme = true → b.length = 4 * c.arg 11 0 8 →
    (((s.carrier k).conf = false ∨ cPeriod (s.carrier k).rec_ < c.arg 10 0 8 + c.arg 11 0 8) →
      exec (.slotTableSet ring cid (.got b)) s = .next ((started s c).fin c Sc.badField)) ∧
    ((s.carrier k).conf = true → c.arg 10 0 8 + c.arg 11 0 8 ≤ cPeriod (s.carrier k).rec_ →
      ((∃ i, i < c.arg 11 0 8 ∧ 2 ^ 28 ≤ rec32 b (4 * i)) → exec (.slotTableSet ring cid (.got b)) s = .next ((started s c).fin c Sc.badField)) ∧
      ((∀ i, i < c.arg 11 0 8 → rec32 b (4 * i) < 2 ^ 28) → c.user = 0 →
        ((s.carrier k).active = false → (s.carrier k).tab.length = 160 → c.arg 10 0 8 + c.arg 11 0 8 ≤ 160 →
          ∃ w : State, exec (.slotTableSet ring cid (.got b)) s = .next (w.fin c Sc.ok (2 ^ 31)) ∧
            (∀ j, j < 160 → (w.carrier k).tab.getD j 0 = if c.arg 10 0 8 ≤ j ∧ j < c.arg 10 0 8 + c.arg 11 0 8 then rec32 b (4 * (j - c.arg 10 0 8))
              else (s.carrier k).tab.getD j 0) ∧
            { w.carrier k with tab := (s.carrier k).tab } = s.carrier k ∧ (∀ m : Fin 4, m ≠ k → w.carrier m = s.carrier m) ∧
            { w with radio := s.radio } = started s c) ∧
        ((s.carrier k).active = true → ∃ (t : State) (u : SlotUpd), exec (.slotTableSet ring cid (.got b)) s = .next t ∧
          t.carrier k = { s.carrier k with upds := (s.carrier k).upds ++ [u] } ∧ u.ring = c.ring ∧ u.cid = c.cid ∧ u.first = c.arg 10 0 8 ∧
          u.entries.length = c.arg 11 0 8 ∧ (∀ i, i < c.arg 11 0 8 → u.entries.getD i 0 = rec32 b (4 * i)) ∧ u.readAt = s.tk.ns ∧
          (∀ m : Fin 4, m ≠ k → t.carrier m = s.carrier m) ∧ { t with radio := s.radio } = started s c)))) ∧
  (∀ (s : State) (ring : Fin 64) (cid : Fin 65536) (c : Cmd) (p : Fin 8) (a : AgcCfg), Ready s ring cid 0x43 c → c.arg 8 0 3 = p →
    c.only [(8, 0, 6), (9, 0, 8), (10, 0, 8), (11, 0, 8), (12, 0, 8), (13, 0, 8), (14, 0, 8), (15, 0, 2), (16, 0, 16)] = true →
    a.en = (c.arg 8 3 1 == 1) → a.step = [1, 2, 4, 6].getD (c.arg 8 4 2) 0 → a.hi = sext (c.arg 9 0 8) 8 → a.lo = sext (c.arg 10 0 8) 8 →
    a.relN = c.arg 11 0 8 → a.atkMax = c.arg 12 0 8 → a.manual = c.arg 13 0 4 → a.ini = c.arg 13 4 4 → a.ed = sext (c.arg 14 0 8) 8 →
    a.edWin = c.arg 15 0 2 → a.lat = c.arg 16 0 16 →
    ((a.hi ≤ a.lo ∨ a.hi < -12 ∨ 0 < a.hi ∨ a.relN = 0 ∨ 64 < a.relN ∨ a.atkMax = 0 ∨ 15 < a.atkMax ∨ 1000 < a.lat) →
      exec (.agcSet ring cid) s = .next ((started s c).fin c Sc.badField)) ∧
    (-12 ≤ a.hi → a.hi ≤ 0 → -40 ≤ a.lo → a.lo ≤ -6 → a.lo < a.hi → 1 ≤ a.relN → a.relN ≤ 64 → 1 ≤ a.atkMax → a.atkMax ≤ 15 → -60 ≤ a.ed → a.ed ≤ 0 →
      a.lat ≤ 1000 →
      (∀ k, s.pairOwner p = some k → (s.carrier k).active = true →
        ((a.lat ≠ (s.agcOf p).cfg.lat ∨ a.ini ≠ (s.agcOf p).cfg.ini) → exec (.agcSet ring cid) s = .next ((started s c).fin c Sc.cfgBusy)) ∧
        (a.lat = (s.agcOf p).cfg.lat → a.ini = (s.agcOf p).cfg.ini → c.user = 0 → ∃ w : State, exec (.agcSet ring cid) s = .next (w.fin c Sc.ok 1) ∧
          (w.agcOf p).pend = some a ∧ (w.agcOf p).manualPend = some a.manual ∧
          (w.agcOf p).cfg = { (s.agcOf p).cfg with ed := a.ed, edWin := a.edWin } ∧ (∀ m : Fin 8, m ≠ p → w.agcOf m = s.agcOf m) ∧
          w.radio.carriers = s.radio.carriers ∧ { w with radio := s.radio } = started s c)) ∧
      (s.pairOwner p = none → c.user = 0 → ∃ w : State,
        exec (.agcSet ring cid) s = .next (w.fin c Sc.ok (if a.lat ≠ (s.agcOf p).cfg.lat ∨ a.ini ≠ (s.agcOf p).cfg.ini then 0 else 1)) ∧
        (w.agcOf p).cfg = a ∧ (w.agcOf p).pend = none ∧ (w.agcOf p).manualPend = none ∧ (∀ m : Fin 8, m ≠ p → w.agcOf m = s.agcOf m) ∧
        w.radio.carriers = s.radio.carriers ∧ { w with radio := s.radio } = started s c))) ∧
  (∀ (s : State) (ring : Fin 64) (cid : Fin 65536) (c : Cmd), Ready s ring cid 0x44 c → c.only [(8, 0, 8), (9, 0, 2)] = true →
    (4 ≤ c.arg 8 0 8 → exec (.linkReset ring cid) s = .next ((started s c).fin c Sc.badField)) ∧
    (∀ k : Fin 4, c.arg 8 0 8 = k → (s.carrier k).active = false → exec (.linkReset ring cid) s = .next ((started s c).fin c Sc.badField)) ∧
    (∀ k : Fin 4, c.arg 8 0 8 = k → (s.carrier k).active = true →
      (c.user ≠ 0 → exec (.linkReset ring cid) s = .next ((started s c).fin c 0x0100)) ∧
      (c.user = 0 → ∃ w : State, exec (.linkReset ring cid) s = .next (w.fin c Sc.ok) ∧ w.mem = s.mem ∧ w.radio.carriers = s.radio.carriers ∧
        (c.arg 9 0 1 = 1 → s.rg R.RADIO_LINK_STAT_STATE (2 * k) ≠ 0 →
          w.rg R.RADIO_LINK_STAT_STATE (2 * k) = 1 ∧ (vget w.radio.links (2 * k)).fails = 0) ∧
        (c.arg 9 0 1 = 0 → w.rg R.RADIO_LINK_STAT_STATE (2 * k) = s.rg R.RADIO_LINK_STAT_STATE (2 * k)) ∧
        (c.arg 9 1 1 = 1 → s.rg R.RADIO_LINK_STAT_STATE (2 * k + 1) ≠ 0 →
          w.rg R.RADIO_LINK_STAT_STATE (2 * k + 1) = 1 ∧ (vget w.radio.links (2 * k + 1)).fails = 0) ∧
        (c.arg 9 1 1 = 0 → w.rg R.RADIO_LINK_STAT_STATE (2 * k + 1) = s.rg R.RADIO_LINK_STAT_STATE (2 * k + 1))))) ∧
  (∀ (s : State) (ring : Fin 64) (cid : Fin 65536) (c : Cmd) (r : List Byte), Ready s ring cid 0x45 c → s.rg R.PST_STAT_STATE ≠ 2 →
    c.only [(8, 0, 256)] = true → r = slice c.args 0 32 →
    (polarOk r = true → s.bufFits c.user (pIn r) (pInBytes r) false = true → s.bufFits c.user (pOut r) (pOutBytes r) true = true →
      ∃ t : State, exec (.polar ring cid) s = .next t ∧ t.coding.polar = s.coding.polar ++ [⟨c.ring, c.cid, r⟩] ∧
        { t with coding := { t.coding with polar := s.coding.polar } } = started s c) ∧
    ((polarOk r = false ∨ s.bufFits c.user (pIn r) (pInBytes r) false = false ∨ s.bufFits c.user (pOut r) (pOutBytes r) true = false) →
      exec (.polar ring cid) s = .next ((started s c).fin c Sc.badField)))

/-- PON_CONFIG, PON_XGEM_SET, PON_SEND, PM_READ, PM_THRESH_SET, BOND_SET and FRT_SET, R322, R335, R336, R366, R511 to R518: a record that breaks its
table is refused, a change of static fields while the port, the group or the tributary is active is CFG_BUSY, only user 0 may issue them, and an accepted
one puts its fields in force, starts or ends activation, queues data or writes the bytes asked for. -/
def Obligations.PonCommands : Prop :=
  (∀ (s : State) (ring : Fin 64) (cid : Fin 65536) (c : Cmd) (p : Fin 2) (b : List Byte) (same : Bool), Ready s ring cid 0x50 c → c.arg 8 0 1 = p →
    c.only [(8, 0, 1), (9, 0, 1), (16, 0, 64)] = true → c.arg 9 0 1 = 1 → s.host.linkUp = true → (vget s.host.fns c.user).bme = true → b.length = 128 →
    same = (ponStatic b == ponStatic (fitBytes 128 (s.port p).rec_)) →
    (ponRecOk b = false → exec (.ponConfig ring cid (.got b)) s = .next ((started s c).fin c Sc.badField)) ∧
    (ponRecOk b = true → (s.port p).enabled = true → same = false → exec (.ponConfig ring cid (.got b)) s = .next ((started s c).fin c Sc.cfgBusy)) ∧
    (ponRecOk b = true → ((s.port p).enabled = false ∨ same = true) → c.user ≠ 0 →
      exec (.ponConfig ring cid (.got b)) s = .next ((started s c).fin c 0x0100)) ∧
    (ponRecOk b = true → (s.port p).enabled = true → same = true → c.user = 0 → recF b 0 2 1 = 1 → ∃ w : State,
      exec (.ponConfig ring cid (.got b)) s = .next (w.fin c Sc.ok 1) ∧ w.port p = { s.port p with rec_ := b } ∧
      (∀ q : Fin 2, q ≠ p → w.port q = s.port q) ∧ { w with ports := s.ports } = started s c) ∧
    (ponRecOk b = true → (s.port p).enabled = true → same = true → c.user = 0 → recF b 0 2 1 = 0 → ∃ w : State,
      exec (.ponConfig ring cid (.got b)) s = .next (w.fin c Sc.ok 1) ∧ (w.port p).rec_ = b ∧ w.rg R.PON_STAT_OSTATE p = 1 ∧ w.rg R.PON_STAT_ONU_ID p = 0 ∧
      w.rg R.PON_EQD_EQD p = 0 ∧ w.rg R.PON_STAT_SYNC p = 0 ∧ w.rg R.PON_STAT_LASER p = 0 ∧ (w.port p).allocs = [] ∧ (w.port p).uni = [] ∧
      (w.port p).ploamQ = [] ∧ (w.port p).profiles = [] ∧ (w.port p).to1 = 0 ∧ (w.port p).to2 = 0) ∧
    (ponRecOk b = true → (s.port p).enabled = false → c.user = 0 → recF b 0 2 1 = 0 → recF b 0 0 2 = (s.port p).mode → ∃ w : State,
      exec (.ponConfig ring cid (.got b)) s = .next (w.fin c Sc.ok (if same then 1 else 0)) ∧ w.port p = { s.port p with rec_ := b, pmRec := b } ∧
      (∀ q : Fin 2, q ≠ p → w.port q = s.port q) ∧ { w with ports := s.ports } = started s c) ∧
    (ponRecOk b = true → (s.port p).enabled = false → c.user = 0 → recF b 0 2 1 = 1 → ∃ w : State,
      exec (.ponConfig ring cid (.got b)) s = .next (w.fin c Sc.ok (if same then 1 else 0)) ∧ (w.port p).rec_ = b ∧ (w.port p).pmRec = b ∧
      w.rg R.PON_STAT_OSTATE p = (if (s.port p).disabled then 7 else 1) ∧ ((s.port p).disabled = false → w.rg R.PON_STAT_LASER p = 0) ∧
      (recF b 0 0 2 = (s.port p).mode → w.mem = s.mem))) ∧
  (∀ (s : State) (ring : Fin 64) (cid : Fin 65536) (c : Cmd) (p : Fin 2) (e : Nat) (x : XgemEntry), Ready s ring cid 0x51 c → c.arg 8 0 1 = p → c.arg 9 0 8 = e →
    c.only [(8, 0, 1), (9, 0, 8), (10, 0, 7), (11, 0, 5), (12, 0, 16), (14, 0, 6), (15, 0, 5), (16, 0, 4)] = true →
    x = ⟨c.arg 10 0 1 == 1, c.arg 10 1 1 == 1, c.arg 10 2 3, c.arg 10 5 1 == 1, c.arg 10 6 1 == 1, c.arg 11 0 5, c.arg 12 0 16, c.arg 14 0 6,
      c.arg 15 0 5, c.arg 16 0 4⟩ →
    ((s.xgemOk p e x = false ∨ 4 < x.kind) → exec (.ponXgemSet ring cid) s = .next ((started s c).fin c Sc.badField)) ∧
    (s.xgemOk p e x = true → ((s.port p).entry e).up = true → (s.port p).items.any (fun i => i.entry == e) = true →
      exec (.ponXgemSet ring cid) s = .next ((started s c).fin c Sc.cfgBusy)) ∧
    (s.xgemOk p e x = true → (((s.port p).entry e).up = false ∨ (s.port p).items.any (fun i => i.entry == e) = false) →
      (c.user ≠ 0 → exec (.ponXgemSet ring cid) s = .next ((started s c).fin c 0x0100)) ∧
      (c.user = 0 → (s.port p).enabled = true → s.flag R.PON_STAT_SYNC p = true → ∃ t : State, exec (.ponXgemSet ring cid) s = .next t ∧
        t.port p = { s.port p with xgemPend := (s.port p).xgemPend ++ [(e, x, c.ring, c.cid)] } ∧ (∀ q : Fin 2, q ≠ p → t.port q = s.port q) ∧
        { t with ports := s.ports } = started s c) ∧
      (c.user = 0 → ((s.port p).enabled = false ∨ s.flag R.PON_STAT_SYNC p = false) → ∃ w : State,
        exec (.ponXgemSet ring cid) s = .next (w.fin c Sc.ok) ∧ (w.port p).entry e = x ∧ (∀ e', e' ≠ e → (w.port p).entry e' = (s.port p).entry e')))) ∧
  (∀ (s : State) (ring : Fin 64) (cid : Fin 65536) (c : Cmd) (p : Fin 2) (e h n size : Nat), Ready s ring cid 0x52 c → c.arg 8 0 1 = p → c.arg 9 0 8 = e →
    c.arg 12 0 32 = h → c.arg 16 0 17 = n → c.only [(8, 0, 1), (9, 0, 8), (12, 0, 32), (16, 0, 17)] = true →
    (∀ k, s.classOf (hIndex h) = some k → size = 2 ^ (s.pclass k).size) → (s.classOf (hIndex h) = none → size = 0) →
    ((((s.port p).entry e).valid = false ∨ ((s.port p).entry e).up = false ∨ 1 < ((s.port p).entry e).kind ∨ n = 0 ∨ size < n) →
      exec (.ponSend ring cid) s = .next ((started s c).fin c Sc.badField)) ∧
    (((s.port p).entry e).valid = true → ((s.port p).entry e).up = true → ((s.port p).entry e).kind ≤ 1 → 1 ≤ n → n ≤ size →
      (c.user ≠ 0 → exec (.ponSend ring cid) s = .next ((started s c).fin c 0x0100)) ∧
      (c.user = 0 → s.rg R.PON_STAT_OSTATE p ≠ 5 → exec (.ponSend ring cid) s = .next ((started s c).fin c Sc.ponNotOperating)) ∧
      (c.user = 0 → s.rg R.PON_STAT_OSTATE p = 5 →
        (((started s c).pgive 32 h (43 + p)).status ≠ Sc.ok →
          exec (.ponSend ring cid) s = .next (((started s c).pgive 32 h (43 + p)).st.fin c ((started s c).pgive 32 h (43 + p)).status)) ∧
        (((started s c).pgive 32 h (43 + p)).status = Sc.ok → ∃ (t : State) (i : UpItem), exec (.ponSend ring cid) s = .next t ∧
          (t.port p).items = (s.port p).items ++ [i] ∧ i.entry = e ∧ i.bufs = [((started s c).pgive 32 h (43 + p)).val] ∧ i.len = n ∧ i.ring = c.ring ∧
          i.cid = c.cid ∧ i.kind = ((s.port p).entry e).kind ∧ t.rg R.PON_STAT_PM p = 0 ∧ t.mem = s.mem ∧
          (s.rg R.PON_STAT_PM p = 0 → { t with ports := s.ports } = ((started s c).pgive 32 h (43 + p)).st))))) ∧
  (∀ (s : State) (ring : Fin 64) (cid : Fin 65536) (c : Cmd) (kind i : Nat), Ready s ring cid 0x55 c → c.arg 8 0 3 = kind → c.arg 9 0 8 = i →
    c.arg 10 0 1 = 1 → c.only [(8, 0, 3), (9, 0, 8), (10, 0, 1), (16, 0, 64)] = true →
    ((4 < kind ∨ (kind = 3 ∧ 95 < i)) → exec (.pmRead ring cid) s = .next ((started s c).fin c Sc.badField)) ∧
    (kind ≤ 4 → (kind = 3 → i ≤ 95) → c.user ≠ 0 → exec (.pmRead ring cid) s = .next ((started s c).fin c 0x0100)) ∧
    (c.user = 0 → ((kind = 0 ∧ s.pm.image = none) ∨ (kind = 3 ∧ i ≤ 95 ∧ s.pm.hist.length ≤ i) ∨ (kind = 4 ∧ s.pm.prevDay = none)) →
      exec (.pmRead ring cid) s = .next ((started s c).fin c 0x0144)) ∧
    (∀ x : ClosedBin, c.user = 0 → ((kind = 0 ∧ s.pm.image = some x) ∨ (kind = 3 ∧ i ≤ 95 ∧ s.pm.hist[i]? = some x) ∨ (kind = 4 ∧ s.pm.prevDay = some x)) →
      exec (.pmRead ring cid) s = .next (((started s c).post 0 (.hostWrite 0 (c.arg 16 0 64) x.bytes)).fin c Sc.ok 2080)) ∧
    (c.user = 0 → (kind = 1 ∨ kind = 2) → ∃ x : ClosedBin,
      exec (.pmRead ring cid) s = .next (((started s c).post 0 (.hostWrite 0 (c.arg 16 0 64) x.bytes)).fin c Sc.ok 2080) ∧ x.stop = s.pm.mark ∧
      x.start = (if kind = 1 then s.pm.quarter.start else s.pm.day.start) ∧ x.vals = (if kind = 1 then s.pm.quarter.vals else s.pm.day.vals))) ∧
  (∀ x : ClosedBin, x.bytes.length = 2080 ∧ ∀ pt, pt < 256 → rec64 x.bytes (32 + 8 * pt) = Store.get 0 x.vals pt % 2 ^ 64) ∧
  (∀ (s : State) (ring : Fin 64) (cid : Fin 65536) (c : Cmd) (pt : Nat), Ready s ring cid 0x56 c → c.arg 8 0 8 = pt →
    c.only [(8, 0, 8), (16, 0, 64), (24, 0, 64)] = true →
    (((89 ≤ pt ∧ pt ≤ 95) ∨ 196 ≤ pt) → exec (.pmThreshSet ring cid) s = .next ((started s c).fin c Sc.badField)) ∧
    ((pt < 89 ∨ (95 < pt ∧ pt < 196)) → c.user ≠ 0 → exec (.pmThreshSet ring cid) s = .next ((started s c).fin c 0x0100)) ∧
    ((pt < 89 ∨ (95 < pt ∧ pt < 196)) → c.user = 0 → ∃ w : State, exec (.pmThreshSet ring cid) s = .next (w.fin c Sc.ok) ∧
      Store.get 0 w.pm.thrQ pt = c.arg 16 0 64 ∧ Store.get 0 w.pm.thrD pt = c.arg 24 0 64 ∧
      (∀ q, q ≠ pt → Store.get 0 w.pm.thrQ q = Store.get 0 s.pm.thrQ q ∧ Store.get 0 w.pm.thrD q = Store.get 0 s.pm.thrD q) ∧
      { w with pm := s.pm } = started s c)) ∧
  (∀ (s : State) (ring : Fin 64) (cid : Fin 65536) (c : Cmd) (b : List Byte) (m : List Nat) (en static : Bool), Ready s ring cid 0x57 c →
    c.only [(8, 0, 1), (9, 0, 8), (10, 0, 8), (11, 0, 8), (12, 0, 1), (16, 0, 64)] = true →
    c.arg 12 0 1 = 1 → s.host.linkUp = true → (vget s.host.fns c.user).bme = true → b.length = 2 * c.arg 11 0 8 →
    m = (List.range (c.arg 11 0 8)).map (fun i => rec16 b (2 * i)) → en = (c.arg 8 0 1 == 1) → static = decide (m ≠ s.bond.map ∨ c.arg 10 0 8 ≠ s.bond.gapWait) →
    ((c.arg 9 0 8 = 0 ∨ 15 < c.arg 9 0 8 ∨ c.arg 10 0 8 = 0 ∨ 20 < c.arg 10 0 8 ∨ 64 < c.arg 11 0 8) →
      exec (.bondSet ring cid (.got b)) s = .next ((started s c).fin c Sc.badField)) ∧
    (1 ≤ c.arg 9 0 8 → c.arg 9 0 8 ≤ 15 → 1 ≤ c.arg 10 0 8 → c.arg 10 0 8 ≤ 20 → c.arg 11 0 8 ≤ 64 →
      (en = true → ((s.port 0).enabled = false ∨ (s.port 1).enabled = false ∨ (s.port 0).mode ≠ (s.port 1).mode) →
        exec (.bondSet ring cid (.got b)) s = .next ((started s c).fin c Sc.badField)) ∧
      ((en = true → (s.port 0).enabled = true ∧ (s.port 1).enabled = true ∧ (s.port 0).mode = (s.port 1).mode) →
        (s.rg R.BND_STAT_STATE ≠ 0 → static = true → exec (.bondSet ring cid (.got b)) s = .next ((started s c).fin c Sc.cfgBusy)) ∧
        ((s.rg R.BND_STAT_STATE = 0 ∨ static = false) → c.user ≠ 0 → exec (.bondSet ring cid (.got b)) s = .next ((started s c).fin c 0x0100)) ∧
        ((s.rg R.BND_STAT_STATE = 0 ∨ static = false) → c.user = 0 → ∃ w : State,
          exec (.bondSet ring cid (.got b)) s = .next (w.fin c Sc.ok (if static then 0 else 1)) ∧ w.bond.weightA = c.arg 9 0 8 ∧ w.bond.gapWait = c.arg 10 0 8 ∧
          w.bond.map = m ∧ w.bond.pendEn = (if en = (s.rg R.BND_STAT_STATE != 0) then none else some en) ∧ { w with bond := s.bond } = started s c)))) ∧
  (∀ (s : State) (ring : Fin 64) (cid : Fin 65536) (c : Cmd) (k : Fin 16) (x : Frt), Ready s ring cid 0x58 c → c.arg 8 0 4 = k →
    c.only [(8, 0, 7), (9, 0, 2), (10, 0, 8), (11, 0, 8), (12, 0, 16), (16, 0, 32), (20, 0, 32), (24, 0, 46), (32, 0, 46)] = true →
    { x with up := false, slip := false, port := 0, entry := 0, thresh := 0, n := 0, cap := 0, centre := 0, buf := 0, ctrl := 0 } =
      { s.frt k with up := false, slip := false, port := 0, entry := 0, thresh := 0, n := 0, cap := 0, centre := 0, buf := 0, ctrl := 0 } →
    x.up = (c.arg 8 5 1 == 1) → x.slip = (c.arg 8 6 1 == 1) → x.port = c.arg 9 0 2 → x.entry = c.arg 10 0 8 → x.thresh = c.arg 11 0 8 →
    x.n = c.arg 12 0 16 → x.cap = c.arg 16 0 32 → x.centre = c.arg 20 0 32 → x.buf = c.arg 24 0 46 → x.ctrl = c.arg 32 0 46 →
    ((2 < x.port ∨ x.thresh = 0 ∨ x.n < 8 ∨ 8000 < x.n ∨ x.cap % x.n ≠ 0 ∨ x.cap < 4 * x.n ∨ x.cap < x.centre + 3 * x.n ∨ x.ctrl % 64 ≠ 0) →
      exec (.frtSet ring cid) s = .next ((started s c).fin c Sc.badField)) ∧
    (x.port ≤ 2 → 1 ≤ x.thresh → 8 ≤ x.n → x.n ≤ 8000 → x.cap % x.n = 0 → 4 * x.n ≤ x.cap → x.centre + 3 * x.n ≤ x.cap → x.ctrl % 64 = 0 →
      0x0800_0000 ≤ x.buf → s.inMem x.buf x.cap = true → 0x0800_0000 ≤ x.ctrl → s.inMem x.ctrl 64 = true →
      (∀ p, (x.port = p ∨ x.port = 2) → p ≤ 1 →
        ((s.port p).entry x.entry).valid = true ∧ ((s.port p).entry x.entry).kind = 4 ∧ ((s.port p).entry x.entry).up = x.up) →
      (x.port = 2 → s.rg R.BND_STAT_STATE ≠ 0) →
      (s.flag R.FRT_STAT_EN k = true → { x with thresh := (s.frt k).thresh } ≠ s.frt k →
        exec (.frtSet ring cid) s = .next ((started s c).fin c Sc.cfgBusy)) ∧
      ((s.flag R.FRT_STAT_EN k = false ∨ { x with thresh := (s.frt k).thresh } = s.frt k) → c.user ≠ 0 →
        exec (.frtSet ring cid) s = .next ((started s c).fin c 0x0100)) ∧
      ((s.flag R.FRT_STAT_EN k = false ∨ { x with thresh := (s.frt k).thresh } = s.frt k) → c.user = 0 → ∃ w : State,
        exec (.frtSet ring cid) s = .next (w.fin c Sc.ok (if { x with thresh := (s.frt k).thresh } = s.frt k then 1 else 0)) ∧
        w.frt k = { x with pendEn := if (c.arg 8 4 1 == 1) = s.flag R.FRT_STAT_EN k then none else some (c.arg 8 4 1 == 1) } ∧
        (∀ q : Fin 16, q ≠ k → w.frt q = s.frt q) ∧ { w with frts := s.frts } = started s c)))

/-- OPTIC_CONFIG, OPTIC_CTRL and OPTIC_QUERY, TIME_SET, TIME_TOD and TIME_STATUS, POWER_CAP and POWER_STATUS, LOG_READ, DUMP_CTL and SELF_TEST with its end, R341, R402, R403, R502, R519 to
R521, R526 to R528, R530 to R534: what each refuses, and what an accepted one keeps, starts or writes for the host. -/
def Obligations.OpticTimePowerAndDiagnosticCommands : Prop :=
  (∀ (s : State) (ring : Fin 64) (cid : Fin 65536) (c : Cmd) (p : Fin 2) (b : List Byte) (es : List (List Byte)) (static : Bool), Ready s ring cid 0x60 c →
    c.arg 8 0 1 = p → c.only [(8, 0, 1), (9, 0, 1), (16, 0, 64)] = true → c.arg 9 0 1 = 1 → c.rdata = none → s.host.linkUp = true →
    (vget s.host.fns c.user).bme = true → b.length = 48 + 20 * rec8 b 18 → es = (List.range (rec8 b 18)).map (fun i => slice b (48 + 20 * i) 20) →
    static = decide (rec16 b 4 ≠ rec16 (s.optic p).rec_ 4 ∨ rec16 b 6 ≠ rec16 (s.optic p).rec_ 6) →
    ((opticRecOk (b.take 48) = false ∨ ∃ e ∈ es, rec8 e 3 = 0 ∨ 16 < rec8 e 3) →
      exec (.opticConfig ring cid (.got b)) s = .next ((started s c).fin c Sc.badField)) ∧
    (opticRecOk (b.take 48) = true → (∀ e ∈ es, 1 ≤ rec8 e 3 ∧ rec8 e 3 ≤ 16) →
      ((s.port p).enabled = true → static = true → exec (.opticConfig ring cid (.got b)) s = .next ((started s c).fin c Sc.cfgBusy)) ∧
      (((s.port p).enabled = false ∨ static = false) → c.user ≠ 0 → exec (.opticConfig ring cid (.got b)) s = .next ((started s c).fin c 0x0100)) ∧
      (((s.port p).enabled = false ∨ static = false) → c.user = 0 → ∃ w : State,
        exec (.opticConfig ring cid (.got b)) s = .next (w.fin c Sc.ok (if static then 0 else 1)) ∧ w.optic p = { s.optic p with rec_ := opticOwn b } ∧
        (∀ q : Fin 2, q ≠ p → w.optic q = s.optic q) ∧
        (recF b 0 3 1 = 1 → w.acceptMode = (recF b 0 0 1 == 1) ∧ w.acceptList = es) ∧
        (recF b 0 3 1 = 0 → w.acceptMode = s.acceptMode ∧ w.acceptList = s.acceptList) ∧
        { w with optics := s.optics, acceptMode := s.acceptMode, acceptList := s.acceptList } = started s c))) ∧
  (∀ (s : State) (ring : Fin 64) (cid : Fin 65536) (c : Cmd) (p : Fin 2) (act : Nat) (txf ok : Bool), Ready s ring cid 0x61 c → c.arg 8 0 1 = p →
    c.arg 9 0 8 = act → c.only [(8, 0, 1), (9, 0, 8)] = true →
    (3 < act → exec (.opticCtrl ring cid txf ok) s = .next ((started s c).fin c Sc.badField)) ∧
    (act ≤ 3 → c.user ≠ 0 → exec (.opticCtrl ring cid txf ok) s = .next ((started s c).fin c 0x0100)) ∧
    (act = 0 → c.user = 0 →
      (s.optState p ≠ 4 → exec (.opticCtrl ring cid txf ok) s = .next ((started s c).fin c 0x0141)) ∧
      (s.optState p = 4 → s.rg R.OPT_STAT_REASON p ≠ 6 → exec (.opticCtrl ring cid txf ok) s = .next ((started s c).fin c Sc.opticRejected)) ∧
      (s.optState p = 4 → s.rg R.OPT_STAT_REASON p = 6 → ∃ w : State, exec (.opticCtrl ring cid txf ok) s = .next (w.fin c Sc.ok) ∧ w.optState p = 3 ∧
        w.rg R.OPT_STAT_REASON p = 0 ∧ w.rg R.OPT_STAT_OVERRIDE p = 1 ∧ (s.optic p).ident ∈ w.overrides ∧ w.mem = s.mem)) ∧
    (act = 1 → c.user = 0 →
      ((s.optic p).ident ∉ s.overrides → exec (.opticCtrl ring cid txf ok) s = .next ((started s c).fin c Sc.ok 1)) ∧
      ((s.optic p).ident ∈ s.overrides → ∃ w : State, exec (.opticCtrl ring cid txf ok) s = .next (w.fin c Sc.ok) ∧
        (s.optic p).ident ∉ w.overrides ∧ (∀ o, o ≠ (s.optic p).ident → (o ∈ w.overrides ↔ o ∈ s.overrides)) ∧ { w with overrides := s.overrides } = started s c)) ∧
    (act = 2 → c.user = 0 →
      ((s.optState p ≠ 5 ∨ txf = true) → exec (.opticCtrl ring cid txf ok) s = .next ((started s c).fin c 0x0141)) ∧
      (s.optState p = 5 → txf = false → ∃ w : State, exec (.opticCtrl ring cid txf ok) s = .next (w.fin c Sc.ok) ∧ w.optState p = 3 ∧
        w.rg R.OPT_STAT_LEVEL p = (s.optic p).level ∧ w.mem = s.mem)) ∧
    (act = 3 → c.user = 0 →
      (s.optState p = 0 → exec (.opticCtrl ring cid txf ok) s = .next ((started s c).fin c 0x0141)) ∧
      (s.optState p ≠ 0 → ((s.optic p).ledger = [] ∨ s.flag R.PWR_RAIL_PWR_FAIL = true) →
        exec (.opticCtrl ring cid txf ok) s = .next ((started s c).fin c Sc.ok)) ∧
      (s.optState p ≠ 0 → (s.optic p).ledger.length = 56 → s.flag R.PWR_RAIL_PWR_FAIL = false → ∃ (w : State) (l : List Byte),
        exec (.opticCtrl ring cid txf ok) s = .next (w.fin c Sc.ok) ∧ (w.optic p).ledger = l ∧ l.length = 56 ∧
        rec32 l 4 = (rec32 (s.optic p).ledger 4 + 1) % 2 ^ 32 ∧ slice l 8 16 = slice (s.optic p).ledger 8 16 ∧ rec32 l 52 = crc32 (l.take 52) % 2 ^ 32 ∧
        w.mem = s.mem ∧
        (s.flag R.OPT_STAT_LEDGER_RO p = false → ok = true → (w.optic p).slot0 = l ∨ (w.optic p).slot1 = l) ∧
        (ok = false → w.rg R.OPT_STAT_LEDGER_RO p = if s.flag R.OPT_STAT_LEDGER_RO p then s.rg R.OPT_STAT_LEDGER_RO p else 1)))) ∧
  (∀ (s : State) (ring : Fin 64) (cid : Fin 65536) (c : Cmd) (p : Fin 2), Ready s ring cid 0x62 c → c.arg 8 0 1 = p → c.arg 9 0 1 = 1 →
    c.only [(8, 0, 1), (9, 0, 1), (16, 0, 64)] = true →
    (c.user ≠ 0 → exec (.opticQuery ring cid) s = .next ((started s c).fin c 0x0100)) ∧
    (c.user = 0 → ∃ b : List Byte, exec (.opticQuery ring cid) s = .next (((started s c).post 0 (.hostWrite 0 (c.arg 16 0 64) b)).fin c Sc.ok 128) ∧
      b.length = 128 ∧ (∀ k, k < 4 → rec32 b (4 * k) = s.regWord 0 (0x3980 + 0x20 * p + 4 * k) % 2 ^ 32) ∧
      (s.optState p = 0 → ∀ k, 16 ≤ k → b.getD k 0 = 0) ∧
      (s.optState p ≠ 0 → slice b 20 16 = fitBytes 16 (s.optic p).part ∧ slice b 36 16 = fitBytes 16 (s.optic p).serial ∧
        ((s.optic p).diag.length = 5 → slice b 64 56 = fitBytes 56 (s.optic p).ledger)))) ∧
  (∀ (s : State) (ring : Fin 64) (cid : Fin 65536) (c : Cmd) (m : Nat) (chg : Bool) (w0 w1 w2 w3 w4 : State), Inv s → Ready s ring cid 0x80 c → c.arg 8 0 5 = m →
    c.only [(8, 0, 5), (16, 0, 128), (32, 0, 64)] = true →
    chg = decide ((m.testBit 4 = true ∧ c.arg 32 0 64 ≠ s.rg R.NR_BASE_BASE) ∨ (m.testBit 0 = true ∧ c.arg 18 0 1 ≠ s.rg R.TK_CTL_NR_ALIGN)) →
    w0 = (if m.testBit 0 then (started s c).regWrite 0 0x1830 (c.arg 16 0 32) else started s c) →
    w1 = (if m.testBit 1 then w0.regWrite 0 0x1834 (c.arg 20 0 32) else w0) → w2 = (if m.testBit 2 then w1.regWrite 0 0x1838 (c.arg 24 0 32) else w1) →
    w3 = (if m.testBit 3 then w2.regWrite 0 0x183C (c.arg 28 0 32) else w2) → w4 = (if m.testBit 4 then w3.regWrite 0 0x1820 (c.arg 32 0 64) else w3) →
    (((m.testBit 0 = true ∧ (4 < c.arg 16 0 4 ∨ 4 < c.arg 16 4 4 ∨ 4 < c.arg 17 0 4 ∨ c.arg 18 1 2 = 3 ∨ 2 ^ 19 ≤ c.arg 16 0 32)) ∨
        (m.testBit 2 = true ∧ 2 ^ 26 ≤ c.arg 24 0 32) ∨ (m.testBit 4 = true ∧ 2 ^ 34 ≤ c.arg 32 0 64)) →
      exec (.timeSet ring cid) s = .next ((started s c).fin c Sc.badField)) ∧
    ((m.testBit 0 = true → c.arg 16 0 4 ≤ 4 ∧ c.arg 16 4 4 ≤ 4 ∧ c.arg 17 0 4 ≤ 4 ∧ c.arg 18 1 2 ≠ 3 ∧ c.arg 16 0 32 < 2 ^ 19) →
      (m.testBit 2 = true → c.arg 24 0 32 < 2 ^ 26) → (m.testBit 4 = true → c.arg 32 0 64 < 2 ^ 34) →
      (chg = true → s.anyCarrier = true → exec (.timeSet ring cid) s = .next ((started s c).fin c Sc.cfgBusy)) ∧
      ((chg = false ∨ s.anyCarrier = false) → c.user ≠ 0 → exec (.timeSet ring cid) s = .next ((started s c).fin c 0x0100)) ∧
      ((chg = false ∨ s.anyCarrier = false) → c.user = 0 → exec (.timeSet ring cid) s = .next (w4.fin c Sc.ok (if chg then 0 else 1))))) ∧
  (∀ (s : State) (ring : Fin 64) (cid : Fin 65536) (c : Cmd) (p : Fin 2), Ready s ring cid 0x81 c → c.arg 8 0 1 = p →
    c.only [(8, 0, 1), (16, 0, 64), (24, 0, 48), (32, 0, 32)] = true →
    (1000000000 ≤ c.arg 32 0 32 → exec (.timeTod ring cid) s = .next ((started s c).fin c Sc.badField)) ∧
    (c.arg 32 0 32 < 1000000000 → c.user ≠ 0 → exec (.timeTod ring cid) s = .next ((started s c).fin c 0x0100)) ∧
    (c.arg 32 0 32 < 1000000000 → c.user = 0 →
      ((s.port p).latches.find? (fun l => l.1 == c.arg 16 0 64) = none → exec (.timeTod ring cid) s = .next ((started s c).fin c Sc.ok 1)) ∧
      (∀ l, (s.port p).latches.find? (fun l => l.1 == c.arg 16 0 64) = some l →
        ((s.defect p 4).declared = true → exec (.timeTod ring cid) s = .next ((started s c).fin c Sc.ok 1)) ∧
        ((s.defect p 4).declared = false → s.rg R.TK_STAT_SRC ≠ p + 1 → exec (.timeTod ring cid) s = .next ((started s c).fin c Sc.ok)) ∧
        ((s.defect p 4).declared = false → s.rg R.TK_STAT_SRC = p + 1 → ∀ rtd tai : Int,
          rtd = (rec32 (s.port p).rec_ 12 : Int) - (s.rg R.PON_EQD_EQD p * 1000000 / (s.port p).upKbps : Nat) →
          tai = (c.arg 24 0 48 * 1000000000 + c.arg 32 0 32 : Nat) + rtd * (rec16 (s.port p).rec_ 6 : Int) / 65536 + ((s.tk.ns : Int) - l.2) →
          exec (.timeTod ring cid) s = .next (((started s c).compareTai tai.toNat).fin c Sc.ok))))) ∧
  (∀ (s : State) (ring : Fin 64) (cid : Fin 65536) (c : Cmd), Ready s ring cid 0x82 c → c.arg 8 0 1 = 1 → c.only [(8, 0, 1), (16, 0, 64)] = true →
    ∃ b : List Byte, exec (.timeStatus ring cid) s = .next (((started s c).post c.user (.hostWrite c.user (c.arg 16 0 64) b)).fin c Sc.ok 64) ∧
      b.length = 64 ∧ rec64 b 0 = s.tk.ns % 2 ^ 64 ∧ rec32 b 8 = s.tk.frac % 2 ^ 32 ∧ rec32 b 12 = s.regWord 0 0x1840 % 2 ^ 32 ∧
      rec64 b 16 = s.tk.localNs % 2 ^ 64 ∧ rec64 b 24 = s.rg R.EPOCH_TAI_TAI % 2 ^ 64 ∧ rec64 b 32 = s.rg R.NR_BASE_BASE % 2 ^ 64 ∧
      rec32 b 40 = s.rg R.TK_PHASE_ERR_E % 2 ^ 32) ∧
  (∀ (s : State) (ring : Fin 64) (cid : Fin 65536) (c : Cmd), Ready s ring cid 0x89 c → c.only [(8, 0, 16)] = true →
    ((c.arg 8 0 16 < 80 ∨ 340 < c.arg 8 0 16) → exec (.powerCap ring cid) s = .next ((started s c).fin c Sc.badField)) ∧
    (80 ≤ c.arg 8 0 16 → c.arg 8 0 16 ≤ 340 → c.user ≠ 0 → exec (.powerCap ring cid) s = .next ((started s c).fin c 0x0100)) ∧
    (80 ≤ c.arg 8 0 16 → c.arg 8 0 16 ≤ 340 → c.user = 0 →
      exec (.powerCap ring cid) s = .next (((started s c).setRg R.PWR_CAP_CAP (c.arg 8 0 16)).fin c Sc.ok (c.arg 8 0 16)))) ∧
  (∀ (s : State) (ring : Fin 64) (cid : Fin 65536) (c : Cmd), Ready s ring cid 0x8A c → c.arg 8 0 1 = 1 → c.only [(8, 0, 1), (16, 0, 64)] = true →
    ∃ b : List Byte, exec (.powerStatus ring cid) s = .next (((started s c).post c.user (.hostWrite c.user (c.arg 16 0 64) b)).fin c Sc.ok 64) ∧
      b.length = 64 ∧ rec64 b 0 = s.rg R.RES_RACE_US % 2 ^ 64 ∧ rec64 b 8 = s.rg R.RES_PACE_US % 2 ^ 64 ∧ rec64 b 16 = s.rg R.RES_REST_US % 2 ^ 64 ∧
      rec64 b 24 = s.rg R.RES_BENCH_US % 2 ^ 64 ∧ rec8 b 32 = s.rg R.PST_STAT_STATE % 256 ∧ rec8 b 33 = s.rg R.PACER_STAT_VSET % 256 ∧
      rec16 b 34 = s.rg R.PWR_CAP_CAP % 2 ^ 16 ∧ rec32 b 36 = s.pacer.powerMw % 2 ^ 32) ∧
  (∀ (s : State) (ring : Fin 64) (cid : Fin 65536) (c : Cmd) (n : Nat), Ready s ring cid 0x90 c → c.arg 16 0 1 = 1 → c.arg 24 0 16 = n →
    c.only [(8, 0, 64), (16, 0, 1), (20, 0, 32), (24, 0, 16)] = true →
    ((n = 0 ∨ 1024 < n) → exec (.logRead ring cid) s = .next ((started s c).fin c Sc.badField)) ∧
    (1 ≤ n → n ≤ 1024 → c.user ≠ 0 → exec (.logRead ring cid) s = .next ((started s c).fin c 0x0100)) ∧
    (1 ≤ n → n ≤ 1024 → c.user = 0 → s.log.recs = [] → exec (.logRead ring cid) s = .next ((started s c).fin c 0x0144)) ∧
    (∀ (r : LogRec) (rest : List LogRec) (d : Nat), 1 ≤ n → n ≤ 1024 → c.user = 0 → s.log.recs = r :: rest → s.log.recs.length ≤ 2 ^ 31 →
      d = (c.arg 20 0 32 + 2 ^ 32 - r.num) % 2 ^ 32 →
      (s.log.recs.length ≤ d → d < 2 ^ 31 → exec (.logRead ring cid) s = .next ((started s c).fin c 0x0144)) ∧
      (∀ rs : List LogRec, rs = (s.log.recs.drop (if 2 ^ 31 ≤ d then 0 else d)).take n → (∀ x ∈ rs, x.args.length = 5) →
        (d < s.log.recs.length ∨ 2 ^ 31 ≤ d) → ∃ b : List Byte,
        exec (.logRead ring cid) s = .next (((started s c).post 0 (.hostWrite 0 (c.arg 8 0 64) b)).fin c Sc.ok rs.length) ∧ b.length = 32 + 32 * rs.length ∧
        rec32 b 0 = s.log.next % 2 ^ 32 ∧ rec32 b 4 = r.num % 2 ^ 32 ∧ rec16 b 12 = rs.length % 2 ^ 16 ∧
        (∀ k, k < rs.length → rec64 b (32 + 32 * k) = (rs.getD k r).tk % 2 ^ 64 ∧ rec16 b (32 + 32 * k + 8) = (rs.getD k r).code % 2 ^ 16 ∧
          rec8 b (32 + 32 * k + 10) = (rs.getD k r).source % 256 ∧ rec8 b (32 + 32 * k + 11) = (rs.getD k r).sev % 256)))) ∧
  (∀ (s : State) (ring : Fin 64) (cid : Fin 65536) (c : Cmd) (act n a : Nat), Ready s ring cid 0x91 c → c.arg 8 0 8 = act → c.arg 16 0 64 = a → c.arg 24 0 32 = n →
    c.only [(8, 0, 8), (9, 0, 1), (16, 0, 64), (24, 0, 32)] = true →
    ((3 < act ∨ (act = 0 ∧ (c.arg 9 0 1 = 0 ∨ a % 4096 ≠ 0 ∨ n % 4096 ≠ 0 ∨ n < 2 ^ 20))) →
      exec (.dumpCtl ring cid) s = .next ((started s c).fin c Sc.badField)) ∧
    (act ≤ 3 → (act = 0 → a % 4096 = 0 ∧ n % 4096 = 0 ∧ 2 ^ 20 ≤ n) → c.arg 9 0 1 = 1 → c.user ≠ 0 →
      exec (.dumpCtl ring cid) s = .next ((started s c).fin c 0x0100)) ∧
    (act = 0 → c.arg 9 0 1 = 1 → a % 4096 = 0 → n % 4096 = 0 → 2 ^ 20 ≤ n → c.user = 0 → ∃ w : State,
      exec (.dumpCtl ring cid) s = .next (w.fin c Sc.ok) ∧ w.boot.region = some (a, n) ∧ { w with boot := { w.boot with region := s.boot.region } } = started s c) ∧
    (act = 1 → c.user = 0 → ∃ w : State, exec (.dumpCtl ring cid) s = .next (w.fin c Sc.ok (if s.boot.region = none then 1 else 0)) ∧ w.boot.region = none ∧
      { w with boot := { w.boot with region := s.boot.region } } = started s c) ∧
    (act = 2 → c.user = 0 → c.arg 9 0 1 = 1 → s.flash.dump = [] → exec (.dumpCtl ring cid) s = .next ((started s c).fin c 0x0144)) ∧
    (act = 2 → c.user = 0 → c.arg 9 0 1 = 1 → s.flash.dump ≠ [] → 1 ≤ n → exec (.dumpCtl ring cid) s =
      .next (((started s c).post 0 (.hostWrite 0 a (s.flash.dump.take n))).fin c Sc.ok (min n s.flash.dump.length))) ∧
    (act = 3 → c.user = 0 → ∃ w : State, exec (.dumpCtl ring cid) s = .next (w.fin c Sc.ok (if s.flash.dump = [] then 1 else 0)) ∧ w.flash.dump = [] ∧
      { w with flash := { w.flash with dump := s.flash.dump } } = started s c)) ∧
  (∀ (s : State) (ring : Fin 64) (cid : Fin 65536) (c : Cmd), Ready s ring cid 0x92 c → s.rg R.PST_STAT_STATE ≠ 2 →
    (c.only [(8, 0, 6)] = false → exec (.selfTest ring cid) s = .next ((started s c).fin c Sc.badField)) ∧
    (c.only [(8, 0, 6)] = true → c.user ≠ 0 → exec (.selfTest ring cid) s = .next ((started s c).fin c 0x0100)) ∧
    (c.only [(8, 0, 6)] = true → c.user = 0 → ∃ (t : State) (k : Cmd) (skip : Nat), exec (.selfTest ring cid) s = .next t ∧ t.cmd? ring cid = some k ∧
      k = { c with started := true, aux := [skip] } ∧ skip < 64 ∧ (∀ i, i < 6 → skip.testBit i = ((c.arg 8 0 6).testBit i && !s.testRuns i)) ∧
      { t with host := { t.host with cmds := s.host.cmds } } = s)) ∧
  (∀ (s : State) (ring : Fin 64) (cid : Fin 65536) (c : Cmd) (failed : BitVec 6) (skip : Nat), s.cmd? ring cid = some c → c.opcode = 0x92 → c.started = true →
    skip = c.aux.headD 0 →
    ((∀ i, i < 6 → (c.arg 8 0 6).testBit i = true → skip.testBit i = false → failed.getLsbD i = false) →
      exec (.selfTestDone ring cid failed) s = .next (s.fin c Sc.ok (skip * 256))) ∧
    ((∃ i, i < 6 ∧ (c.arg 8 0 6).testBit i = true ∧ skip.testBit i = false ∧ failed.getLsbD i = true) → ∃ (w : State) (r : Nat),
      exec (.selfTestDone ring cid failed) s = .next (w.fin c 0x0143 (r + skip * 256)) ∧ r < 64 ∧
      (∀ i, i < 6 → r.testBit i = ((c.arg 8 0 6).testBit i && !skip.testBit i && failed.getLsbD i)) ∧ w.mem = s.mem))

/-- One step: the command at the front of the queue runs with the queue's rest, and on an empty queue time passes, by one nanosecond of LOCAL_NS while the rail VRIM is
good (the model's choice, notes/assumptions/5.md). No word of the opcode table spells a command (notes/assumptions/1.md). -/
def Obligations.StepRunsTheFrontCommand : Prop :=
  (∀ (s : State) (c : Instr), step { s with pending := c :: s.pending } = exec c s) ∧
  (∀ (s : State) (c : Instr) (rest : List Instr), s.pending = c :: rest → step s = exec c { s with pending := rest }) ∧
  (∀ s : State, s.pending = [] → s.rgBit R.PWR_RAIL_OK 4 = false → step s = .next s) ∧
  (∀ s : State, s.pending = [] → s.rgBit R.PWR_RAIL_OK 4 = true → ∃ t : State, step s = .next t ∧ t.tk.localNs = s.tk.localNs + 1 ∧ t.pending = [] ∧
    t.mem = s.mem ∧ t.host = s.host ∧ t.out = s.out) ∧
  (∀ (s : State) (nbits w : Nat), decodeTableWord nbits w = none ∧ s.withFetchWord nbits w = s)

/-- Every command of the table, in every state and with every operand, ends in a next state, and none touches the queue of the commands that wait. -/
def Obligations.EveryCommandCompletes : Prop :=
  ∀ (c : Instr) (s : State), ∃ t : State, exec c s = .next t ∧ t.pending = s.pending

/-- Every step keeps the invariant: the memory stays in its canonical form, and each register value that waits for its boundary (R683) belongs to a field of a
shadowed change class. -/
def Obligations.StepKeepsTheInvariant : Prop :=
  ∀ s t : State, Inv s → step s = .next t → Inv t

/-- The state before the first COLD_START (the model's choice of the state after reset, notes/assumptions/11.md): every register field holds its reset value, R679, R684; every ring
is ABSENT, Lane GATED, link HELD, Byklink port DISABLED and Heat slot free, no Pool class is configured, the Timekeeper runs free, memory lists nothing, nothing waits,
and the invariant holds. -/
def Obligations.ResetLeavesResetValues : Prop :=
  Inv State.reset ∧ State.reset.pending = [] ∧ State.reset.out = [] ∧ (∀ (f : Fld) (i u : Nat), State.reset.rg f i u = f.reset) ∧
  State.reset.regWord 0 0x1100 = 0x00032463 ∧ State.reset.regWord 0 0x1830 = 0x0000C431 ∧ State.reset.regWord 0 0x1838 = 0x01043840 ∧
  State.reset.regWord 0 0x0114 = 0x00000A02 ∧ State.reset.regWord 0 0x4000 = 0x00000100 ∧ (∀ n : Fin 64, (State.reset.ring n).st = .absent) ∧ (∀ n : Fin 8, State.reset.rg R.LANE_STAT_STATE n = 0) ∧
  (∀ k : Fin 8, State.reset.rg R.RADIO_LINK_STAT_STATE k = 0) ∧ (∀ q : Fin 4, State.reset.rg R.BYK_PORT_STATE q = 0) ∧ State.reset.heatList = [] ∧
  (∀ k : Fin 32, (State.reset.pclass k).conf = false) ∧ State.reset.rg R.TK_STAT_STATE = 0 ∧ State.reset.mem.cells = [] ∧ (∀ a, State.reset.byte a = 0)

/-- POOL_CLASS_DELETE, R484: a class that is not configured gives RESULT 1, a class in use CFG_BUSY, and neither changes anything else; another class is
unconfigured by user 0 and by the user that configured it. -/
def Obligations.PoolClassDelete : Prop :=
  ∀ (s : State) (ring : Fin 64) (cid : Fin 65536) (c : Cmd) (k : Fin 32), Ready s ring cid 0x0A c → c.only [(8, 0, 8)] = true → c.arg 8 0 8 = k →
    ((s.pclass k).conf = false → exec (.poolClassDelete ring cid) s = .next ((started s c).fin c Sc.ok 1)) ∧
    ((s.pclass k).conf = true → s.classUsed k = true → exec (.poolClassDelete ring cid) s = .next ((started s c).fin c Sc.cfgBusy)) ∧
    ((s.pclass k).conf = true → s.classUsed k = false → (c.user = 0 ∨ c.user = (s.pclass k).user) →
      ∃ w : State, exec (.poolClassDelete ring cid) s = .next (w.fin c Sc.ok) ∧ (w.pclass k).conf = false ∧ w.rg R.POOL_USE_NOW k = 0 ∧
        (∀ j : Fin 32, j ≠ k → w.pclass j = s.pclass j) ∧ w.mem = s.mem)

/-- PON_WAKE and PON_STATUS, R514: PON_WAKE is a local wake stimulus: power saving ends, Sleep_Request (Awake) is queued where it was on, and RESULT is the state
before; PON_STATUS writes the 64 bytes of the port's registers, reserved words as 0, and RESULT is 64. Neither is for a user other than 0. -/
def Obligations.PonWakeAndStatus : Prop :=
  (∀ (s : State) (ring : Fin 64) (cid : Fin 65536) (c : Cmd) (p : Fin 2), Ready s ring cid 0x53 c → c.arg 8 0 1 = p → c.only [(8, 0, 1)] = true →
    (c.user ≠ 0 → exec (.ponWake ring cid) s = .next ((started s c).fin c 0x0100)) ∧
    (c.user = 0 → s.rg R.PON_STAT_PM p = 0 → exec (.ponWake ring cid) s = .next ((started s c).fin c Sc.ok 0)) ∧
    (c.user = 0 → s.rg R.PON_STAT_PM p ≠ 0 → ∃ w : State, exec (.ponWake ring cid) s = .next (w.fin c Sc.ok (s.rg R.PON_STAT_PM p)) ∧
      w.rg R.PON_STAT_PM p = 0 ∧ (w.port p).sleepQ = some 0 ∧ (w.port p).frozen = false ∧ { w with ports := s.ports, regs := s.regs } = started s c)) ∧
  (∀ (s : State) (ring : Fin 64) (cid : Fin 65536) (c : Cmd) (p : Fin 2), Ready s ring cid 0x54 c → c.arg 8 0 1 = p → c.arg 9 0 1 = 1 →
    c.only [(8, 0, 1), (9, 0, 1), (16, 0, 64)] = true →
    (c.user ≠ 0 → exec (.ponStatus ring cid) s = .next ((started s c).fin c 0x0100)) ∧
    (c.user = 0 → ∃ b : List Byte, exec (.ponStatus ring cid) s = .next (((started s c).post 0 (.hostWrite 0 (c.arg 16 0 64) b)).fin c Sc.ok 64) ∧
      b.length = 64 ∧ ∀ k, k < 16 → rec32 b (4 * k) = s.regWord 0 (0x3700 + 0x40 * p + 4 * k) % 2 ^ 32))
end

