-- ==== Sys2Proof/Laws/Store.lean ====
section
/-! SUPPORT. The keyed store: what a read gives after a write, and that every operation keeps the canonical form. -/

namespace Sys2Proof.Machine

theorem Store.get_erase_ne {α : Type} (d : α) (s : List (Nat × α)) (k j : Nat) (h : j ≠ k) :
    Store.get d (Store.erase s k) j = Store.get d s j := by
  induction s with
  | nil => rfl
  | cons a r ih =>
    obtain ⟨x, v⟩ := a
    by_cases ha : x = k
    · subst ha
      have hx : ¬ x = j := fun e => h e.symm
      simp [Store.erase, Store.get, hx, ih]
    · by_cases hj : x = j <;> simp [Store.erase, Store.get, ha, hj, ih, h]

theorem Store.get_erase_self {α : Type} (d : α) (s : List (Nat × α)) (k : Nat) :
    Store.get d (Store.erase s k) k = d := by
  induction s with
  | nil => rfl
  | cons a r ih =>
    obtain ⟨x, v⟩ := a
    by_cases ha : x = k <;> simp [Store.erase, Store.get, ha, ih]

theorem Store.get_insert_self {α : Type} (d : α) (s : List (Nat × α)) (k : Nat) (v : α) :
    Store.get d (Store.insert s k v) k = v := by
  induction s with
  | nil => simp [Store.insert, Store.get]
  | cons a r ih =>
    simp only [Store.insert]
    split
    · simp [Store.get]
    · split
      · simp [Store.get]
      · rename_i h
        have : ¬ a.1 = k := fun e => h e.symm
        simp [Store.get, this, ih]

theorem Store.get_insert_ne {α : Type} (d : α) (s : List (Nat × α)) (k j : Nat) (v : α) (h : j ≠ k) :
    Store.get d (Store.insert s k v) j = Store.get d s j := by
  have h' : ¬ k = j := fun e => h e.symm
  induction s with
  | nil => simp [Store.insert, Store.get, h']
  | cons a r ih =>
    simp only [Store.insert]
    split
    · simp [Store.get, h']
    · split
      · rename_i e; subst e; simp [Store.get, h']
      · simp [Store.get, ih]

theorem Store.wfFrom_mono {α : Type} [DecidableEq α] (d : α) (s : List (Nat × α)) (lo lo' : Nat) (h : lo' ≤ lo)
    (w : Store.wfFrom d lo s = true) : Store.wfFrom d lo' s = true := by
  cases s with
  | nil => rfl
  | cons a r =>
    simp only [Store.wfFrom, Bool.and_eq_true, decide_eq_true_eq] at w ⊢
    exact ⟨⟨by omega, w.1.2⟩, w.2⟩

theorem Store.wfFrom_erase {α : Type} [DecidableEq α] (d : α) (s : List (Nat × α)) (lo k : Nat)
    (w : Store.wfFrom d lo s = true) : Store.wfFrom d lo (Store.erase s k) = true := by
  induction s generalizing lo with
  | nil => rfl
  | cons a r ih =>
    simp only [Store.wfFrom, Bool.and_eq_true, decide_eq_true_eq] at w
    by_cases ha : a.1 = k
    · simp only [Store.erase, ha, if_true]
      exact ih lo (Store.wfFrom_mono d r (a.1 + 1) lo (by omega) w.2)
    · simp only [Store.erase, ha, if_false, Store.wfFrom, Bool.and_eq_true, decide_eq_true_eq]
      exact ⟨w.1, ih _ w.2⟩

theorem Store.wfFrom_insert {α : Type} [DecidableEq α] (d : α) (s : List (Nat × α)) (lo k : Nat) (v : α)
    (hk : lo ≤ k) (hv : v ≠ d) (w : Store.wfFrom d lo s = true) : Store.wfFrom d lo (Store.insert s k v) = true := by
  induction s generalizing lo with
  | nil => simp [Store.insert, Store.wfFrom, hk, hv]
  | cons a r ih =>
    simp only [Store.wfFrom, Bool.and_eq_true, decide_eq_true_eq] at w
    simp only [Store.insert]
    split
    · simp only [Store.wfFrom, Bool.and_eq_true, decide_eq_true_eq]
      exact ⟨⟨hk, hv⟩, ⟨by omega, w.1.2⟩, w.2⟩
    · split
      · rename_i e
        simp only [Store.wfFrom, Bool.and_eq_true, decide_eq_true_eq]
        exact ⟨⟨hk, hv⟩, e ▸ w.2⟩
      · simp only [Store.wfFrom, Bool.and_eq_true, decide_eq_true_eq]
        exact ⟨w.1, ih _ (by omega) w.2⟩

/-- A write keeps the canonical form. -/
theorem Store.wf_put {α : Type} [DecidableEq α] (d : α) (s : List (Nat × α)) (k : Nat) (v : α)
    (w : Store.wf d s = true) : Store.wf d (Store.put d s k v) = true := by
  unfold Store.put Store.wf at *
  split
  · exact Store.wfFrom_erase d s 0 k w
  · rename_i h; exact Store.wfFrom_insert d s 0 k v (Nat.zero_le _) h w

/-- A read elsewhere is unchanged by a write. -/
theorem Store.get_put_ne {α : Type} [DecidableEq α] (d e : α) (s : List (Nat × α)) (k j : Nat) (v : α) (h : j ≠ k) :
    Store.get e (Store.put d s k v) j = Store.get e s j := by
  unfold Store.put
  split
  · exact Store.get_erase_ne e s k j h
  · exact Store.get_insert_ne e s k j v h

/-- A read after a write of the same key gives the value written. -/
@[simp] theorem Store.get_put_self {α : Type} [DecidableEq α] (d : α) (s : List (Nat × α)) (k : Nat) (v : α) :
    Store.get d (Store.put d s k v) k = v := by
  unfold Store.put
  split
  · rename_i h; subst h; exact Store.get_erase_self _ s k
  · exact Store.get_insert_self d s k v

/-- Filtering keeps the canonical form. -/
theorem Store.wfFrom_filter {α : Type} [DecidableEq α] (d : α) (s : List (Nat × α)) (p : Nat × α → Bool) (lo : Nat)
    (w : Store.wfFrom d lo s = true) : Store.wfFrom d lo (s.filter p) = true := by
  induction s generalizing lo with
  | nil => rfl
  | cons a r ih =>
    simp only [Store.wfFrom, Bool.and_eq_true, decide_eq_true_eq] at w
    simp only [List.filter]
    cases p a with
    | true => simp only [Store.wfFrom, Bool.and_eq_true, decide_eq_true_eq]; exact ⟨w.1, ih _ w.2⟩
    | false => exact Store.wfFrom_mono d _ (a.1 + 1) lo (by omega) (ih _ w.2)

end Sys2Proof.Machine
end

