-- ==== Sys2Proof/Laws/State.lean ====
section
/-! SUPPORT. What each shared update leaves alone: one lemma per update and field of State; and what a register field reads after a write. -/

namespace Sys2Proof.Machine

variable (s : State)

/-! ## State.setRg -/

@[simp] theorem State.setRg_pending (f : Fld) (v i u : Nat) : (s.setRg f v i u).pending = s.pending := rfl
@[simp] theorem State.setRg_shadow (f : Fld) (v i u : Nat) : (s.setRg f v i u).shadow = s.shadow := rfl
@[simp] theorem State.setRg_heldLow (f : Fld) (v i u : Nat) : (s.setRg f v i u).heldLow = s.heldLow := rfl
@[simp] theorem State.setRg_latched (f : Fld) (v i u : Nat) : (s.setRg f v i u).latched = s.latched := rfl
@[simp] theorem State.setRg_lastRead (f : Fld) (v i u : Nat) : (s.setRg f v i u).lastRead = s.lastRead := rfl
@[simp] theorem State.setRg_mem (f : Fld) (v i u : Nat) : (s.setRg f v i u).mem = s.mem := rfl
@[simp] theorem State.setRg_pool (f : Fld) (v i u : Nat) : (s.setRg f v i u).pool = s.pool := rfl
@[simp] theorem State.setRg_host (f : Fld) (v i u : Nat) : (s.setRg f v i u).host = s.host := rfl
@[simp] theorem State.setRg_lanes (f : Fld) (v i u : Nat) : (s.setRg f v i u).lanes = s.lanes := rfl
@[simp] theorem State.setRg_xfers (f : Fld) (v i u : Nat) : (s.setRg f v i u).xfers = s.xfers := rfl
@[simp] theorem State.setRg_xferNext (f : Fld) (v i u : Nat) : (s.setRg f v i u).xferNext = s.xferNext := rfl
@[simp] theorem State.setRg_cmdTokens (f : Fld) (v i u : Nat) : (s.setRg f v i u).cmdTokens = s.cmdTokens := rfl
@[simp] theorem State.setRg_progs (f : Fld) (v i u : Nat) : (s.setRg f v i u).progs = s.progs := rfl
@[simp] theorem State.setRg_progGens (f : Fld) (v i u : Nat) : (s.setRg f v i u).progGens = s.progGens := rfl
@[simp] theorem State.setRg_heats (f : Fld) (v i u : Nat) : (s.setRg f v i u).heats = s.heats := rfl
@[simp] theorem State.setRg_heatNext (f : Fld) (v i u : Nat) : (s.setRg f v i u).heatNext = s.heatNext := rfl
@[simp] theorem State.setRg_pacer (f : Fld) (v i u : Nat) : (s.setRg f v i u).pacer = s.pacer := rfl
@[simp] theorem State.setRg_log (f : Fld) (v i u : Nat) : (s.setRg f v i u).log = s.log := rfl
@[simp] theorem State.setRg_out (f : Fld) (v i u : Nat) : (s.setRg f v i u).out = s.out := rfl
@[simp] theorem State.setRg_free (f : Fld) (v i u : Nat) : (s.setRg f v i u).free = s.free := rfl
@[simp] theorem State.setRg_tk (f : Fld) (v i u : Nat) : (s.setRg f v i u).tk = s.tk := rfl
@[simp] theorem State.setRg_radio (f : Fld) (v i u : Nat) : (s.setRg f v i u).radio = s.radio := rfl
@[simp] theorem State.setRg_coding (f : Fld) (v i u : Nat) : (s.setRg f v i u).coding = s.coding := rfl
@[simp] theorem State.setRg_ports (f : Fld) (v i u : Nat) : (s.setRg f v i u).ports = s.ports := rfl
@[simp] theorem State.setRg_pm (f : Fld) (v i u : Nat) : (s.setRg f v i u).pm = s.pm := rfl
@[simp] theorem State.setRg_bond (f : Fld) (v i u : Nat) : (s.setRg f v i u).bond = s.bond := rfl
@[simp] theorem State.setRg_frts (f : Fld) (v i u : Nat) : (s.setRg f v i u).frts = s.frts := rfl
@[simp] theorem State.setRg_optics (f : Fld) (v i u : Nat) : (s.setRg f v i u).optics = s.optics := rfl
@[simp] theorem State.setRg_cipher (f : Fld) (v i u : Nat) : (s.setRg f v i u).cipher = s.cipher := rfl
@[simp] theorem State.setRg_acceptMode (f : Fld) (v i u : Nat) : (s.setRg f v i u).acceptMode = s.acceptMode := rfl
@[simp] theorem State.setRg_acceptList (f : Fld) (v i u : Nat) : (s.setRg f v i u).acceptList = s.acceptList := rfl
@[simp] theorem State.setRg_overrides (f : Fld) (v i u : Nat) : (s.setRg f v i u).overrides = s.overrides := rfl
@[simp] theorem State.setRg_flash (f : Fld) (v i u : Nat) : (s.setRg f v i u).flash = s.flash := rfl
@[simp] theorem State.setRg_patchSlot (f : Fld) (v i u : Nat) : (s.setRg f v i u).patchSlot = s.patchSlot := rfl
@[simp] theorem State.setRg_patches (f : Fld) (v i u : Nat) : (s.setRg f v i u).patches = s.patches := rfl
@[simp] theorem State.setRg_byk (f : Fld) (v i u : Nat) : (s.setRg f v i u).byk = s.byk := rfl
@[simp] theorem State.setRg_warm (f : Fld) (v i u : Nat) : (s.setRg f v i u).warm = s.warm := rfl
@[simp] theorem State.setRg_starter (f : Fld) (v i u : Nat) : (s.setRg f v i u).starter = s.starter := rfl
@[simp] theorem State.setRg_pwr (f : Fld) (v i u : Nat) : (s.setRg f v i u).pwr = s.pwr := rfl
@[simp] theorem State.setRg_pst (f : Fld) (v i u : Nat) : (s.setRg f v i u).pst = s.pst := rfl
@[simp] theorem State.setRg_boot (f : Fld) (v i u : Nat) : (s.setRg f v i u).boot = s.boot := rfl

/-! ## State.putRgBit -/

@[simp] theorem State.putRgBit_pending (f : Fld) (b : Nat) (v : Bool) (i u : Nat) : (s.putRgBit f b v i u).pending = s.pending := rfl
@[simp] theorem State.putRgBit_shadow (f : Fld) (b : Nat) (v : Bool) (i u : Nat) : (s.putRgBit f b v i u).shadow = s.shadow := rfl
@[simp] theorem State.putRgBit_heldLow (f : Fld) (b : Nat) (v : Bool) (i u : Nat) : (s.putRgBit f b v i u).heldLow = s.heldLow := rfl
@[simp] theorem State.putRgBit_latched (f : Fld) (b : Nat) (v : Bool) (i u : Nat) : (s.putRgBit f b v i u).latched = s.latched := rfl
@[simp] theorem State.putRgBit_lastRead (f : Fld) (b : Nat) (v : Bool) (i u : Nat) : (s.putRgBit f b v i u).lastRead = s.lastRead := rfl
@[simp] theorem State.putRgBit_mem (f : Fld) (b : Nat) (v : Bool) (i u : Nat) : (s.putRgBit f b v i u).mem = s.mem := rfl
@[simp] theorem State.putRgBit_pool (f : Fld) (b : Nat) (v : Bool) (i u : Nat) : (s.putRgBit f b v i u).pool = s.pool := rfl
@[simp] theorem State.putRgBit_host (f : Fld) (b : Nat) (v : Bool) (i u : Nat) : (s.putRgBit f b v i u).host = s.host := rfl
@[simp] theorem State.putRgBit_lanes (f : Fld) (b : Nat) (v : Bool) (i u : Nat) : (s.putRgBit f b v i u).lanes = s.lanes := rfl
@[simp] theorem State.putRgBit_xfers (f : Fld) (b : Nat) (v : Bool) (i u : Nat) : (s.putRgBit f b v i u).xfers = s.xfers := rfl
@[simp] theorem State.putRgBit_xferNext (f : Fld) (b : Nat) (v : Bool) (i u : Nat) : (s.putRgBit f b v i u).xferNext = s.xferNext := rfl
@[simp] theorem State.putRgBit_cmdTokens (f : Fld) (b : Nat) (v : Bool) (i u : Nat) : (s.putRgBit f b v i u).cmdTokens = s.cmdTokens := rfl
@[simp] theorem State.putRgBit_progs (f : Fld) (b : Nat) (v : Bool) (i u : Nat) : (s.putRgBit f b v i u).progs = s.progs := rfl
@[simp] theorem State.putRgBit_progGens (f : Fld) (b : Nat) (v : Bool) (i u : Nat) : (s.putRgBit f b v i u).progGens = s.progGens := rfl
@[simp] theorem State.putRgBit_heats (f : Fld) (b : Nat) (v : Bool) (i u : Nat) : (s.putRgBit f b v i u).heats = s.heats := rfl
@[simp] theorem State.putRgBit_heatNext (f : Fld) (b : Nat) (v : Bool) (i u : Nat) : (s.putRgBit f b v i u).heatNext = s.heatNext := rfl
@[simp] theorem State.putRgBit_pacer (f : Fld) (b : Nat) (v : Bool) (i u : Nat) : (s.putRgBit f b v i u).pacer = s.pacer := rfl
@[simp] theorem State.putRgBit_log (f : Fld) (b : Nat) (v : Bool) (i u : Nat) : (s.putRgBit f b v i u).log = s.log := rfl
@[simp] theorem State.putRgBit_out (f : Fld) (b : Nat) (v : Bool) (i u : Nat) : (s.putRgBit f b v i u).out = s.out := rfl
@[simp] theorem State.putRgBit_free (f : Fld) (b : Nat) (v : Bool) (i u : Nat) : (s.putRgBit f b v i u).free = s.free := rfl
@[simp] theorem State.putRgBit_tk (f : Fld) (b : Nat) (v : Bool) (i u : Nat) : (s.putRgBit f b v i u).tk = s.tk := rfl
@[simp] theorem State.putRgBit_radio (f : Fld) (b : Nat) (v : Bool) (i u : Nat) : (s.putRgBit f b v i u).radio = s.radio := rfl
@[simp] theorem State.putRgBit_coding (f : Fld) (b : Nat) (v : Bool) (i u : Nat) : (s.putRgBit f b v i u).coding = s.coding := rfl
@[simp] theorem State.putRgBit_ports (f : Fld) (b : Nat) (v : Bool) (i u : Nat) : (s.putRgBit f b v i u).ports = s.ports := rfl
@[simp] theorem State.putRgBit_pm (f : Fld) (b : Nat) (v : Bool) (i u : Nat) : (s.putRgBit f b v i u).pm = s.pm := rfl
@[simp] theorem State.putRgBit_bond (f : Fld) (b : Nat) (v : Bool) (i u : Nat) : (s.putRgBit f b v i u).bond = s.bond := rfl
@[simp] theorem State.putRgBit_frts (f : Fld) (b : Nat) (v : Bool) (i u : Nat) : (s.putRgBit f b v i u).frts = s.frts := rfl
@[simp] theorem State.putRgBit_optics (f : Fld) (b : Nat) (v : Bool) (i u : Nat) : (s.putRgBit f b v i u).optics = s.optics := rfl
@[simp] theorem State.putRgBit_cipher (f : Fld) (b : Nat) (v : Bool) (i u : Nat) : (s.putRgBit f b v i u).cipher = s.cipher := rfl
@[simp] theorem State.putRgBit_acceptMode (f : Fld) (b : Nat) (v : Bool) (i u : Nat) : (s.putRgBit f b v i u).acceptMode = s.acceptMode := rfl
@[simp] theorem State.putRgBit_acceptList (f : Fld) (b : Nat) (v : Bool) (i u : Nat) : (s.putRgBit f b v i u).acceptList = s.acceptList := rfl
@[simp] theorem State.putRgBit_overrides (f : Fld) (b : Nat) (v : Bool) (i u : Nat) : (s.putRgBit f b v i u).overrides = s.overrides := rfl
@[simp] theorem State.putRgBit_flash (f : Fld) (b : Nat) (v : Bool) (i u : Nat) : (s.putRgBit f b v i u).flash = s.flash := rfl
@[simp] theorem State.putRgBit_patchSlot (f : Fld) (b : Nat) (v : Bool) (i u : Nat) : (s.putRgBit f b v i u).patchSlot = s.patchSlot := rfl
@[simp] theorem State.putRgBit_patches (f : Fld) (b : Nat) (v : Bool) (i u : Nat) : (s.putRgBit f b v i u).patches = s.patches := rfl
@[simp] theorem State.putRgBit_byk (f : Fld) (b : Nat) (v : Bool) (i u : Nat) : (s.putRgBit f b v i u).byk = s.byk := rfl
@[simp] theorem State.putRgBit_warm (f : Fld) (b : Nat) (v : Bool) (i u : Nat) : (s.putRgBit f b v i u).warm = s.warm := rfl
@[simp] theorem State.putRgBit_starter (f : Fld) (b : Nat) (v : Bool) (i u : Nat) : (s.putRgBit f b v i u).starter = s.starter := rfl
@[simp] theorem State.putRgBit_pwr (f : Fld) (b : Nat) (v : Bool) (i u : Nat) : (s.putRgBit f b v i u).pwr = s.pwr := rfl
@[simp] theorem State.putRgBit_pst (f : Fld) (b : Nat) (v : Bool) (i u : Nat) : (s.putRgBit f b v i u).pst = s.pst := rfl
@[simp] theorem State.putRgBit_boot (f : Fld) (b : Nat) (v : Bool) (i u : Nat) : (s.putRgBit f b v i u).boot = s.boot := rfl

/-! ## State.pmAdd -/

@[simp] theorem State.pmAdd_pending (pt k : Nat) : (s.pmAdd pt k).pending = s.pending := rfl
@[simp] theorem State.pmAdd_regs (pt k : Nat) : (s.pmAdd pt k).regs = s.regs := rfl
@[simp] theorem State.pmAdd_shadow (pt k : Nat) : (s.pmAdd pt k).shadow = s.shadow := rfl
@[simp] theorem State.pmAdd_heldLow (pt k : Nat) : (s.pmAdd pt k).heldLow = s.heldLow := rfl
@[simp] theorem State.pmAdd_latched (pt k : Nat) : (s.pmAdd pt k).latched = s.latched := rfl
@[simp] theorem State.pmAdd_lastRead (pt k : Nat) : (s.pmAdd pt k).lastRead = s.lastRead := rfl
@[simp] theorem State.pmAdd_mem (pt k : Nat) : (s.pmAdd pt k).mem = s.mem := rfl
@[simp] theorem State.pmAdd_pool (pt k : Nat) : (s.pmAdd pt k).pool = s.pool := rfl
@[simp] theorem State.pmAdd_host (pt k : Nat) : (s.pmAdd pt k).host = s.host := rfl
@[simp] theorem State.pmAdd_lanes (pt k : Nat) : (s.pmAdd pt k).lanes = s.lanes := rfl
@[simp] theorem State.pmAdd_xfers (pt k : Nat) : (s.pmAdd pt k).xfers = s.xfers := rfl
@[simp] theorem State.pmAdd_xferNext (pt k : Nat) : (s.pmAdd pt k).xferNext = s.xferNext := rfl
@[simp] theorem State.pmAdd_cmdTokens (pt k : Nat) : (s.pmAdd pt k).cmdTokens = s.cmdTokens := rfl
@[simp] theorem State.pmAdd_progs (pt k : Nat) : (s.pmAdd pt k).progs = s.progs := rfl
@[simp] theorem State.pmAdd_progGens (pt k : Nat) : (s.pmAdd pt k).progGens = s.progGens := rfl
@[simp] theorem State.pmAdd_heats (pt k : Nat) : (s.pmAdd pt k).heats = s.heats := rfl
@[simp] theorem State.pmAdd_heatNext (pt k : Nat) : (s.pmAdd pt k).heatNext = s.heatNext := rfl
@[simp] theorem State.pmAdd_pacer (pt k : Nat) : (s.pmAdd pt k).pacer = s.pacer := rfl
@[simp] theorem State.pmAdd_log (pt k : Nat) : (s.pmAdd pt k).log = s.log := rfl
@[simp] theorem State.pmAdd_out (pt k : Nat) : (s.pmAdd pt k).out = s.out := rfl
@[simp] theorem State.pmAdd_free (pt k : Nat) : (s.pmAdd pt k).free = s.free := rfl
@[simp] theorem State.pmAdd_tk (pt k : Nat) : (s.pmAdd pt k).tk = s.tk := rfl
@[simp] theorem State.pmAdd_radio (pt k : Nat) : (s.pmAdd pt k).radio = s.radio := rfl
@[simp] theorem State.pmAdd_coding (pt k : Nat) : (s.pmAdd pt k).coding = s.coding := rfl
@[simp] theorem State.pmAdd_ports (pt k : Nat) : (s.pmAdd pt k).ports = s.ports := rfl
@[simp] theorem State.pmAdd_bond (pt k : Nat) : (s.pmAdd pt k).bond = s.bond := rfl
@[simp] theorem State.pmAdd_frts (pt k : Nat) : (s.pmAdd pt k).frts = s.frts := rfl
@[simp] theorem State.pmAdd_optics (pt k : Nat) : (s.pmAdd pt k).optics = s.optics := rfl
@[simp] theorem State.pmAdd_cipher (pt k : Nat) : (s.pmAdd pt k).cipher = s.cipher := rfl
@[simp] theorem State.pmAdd_acceptMode (pt k : Nat) : (s.pmAdd pt k).acceptMode = s.acceptMode := rfl
@[simp] theorem State.pmAdd_acceptList (pt k : Nat) : (s.pmAdd pt k).acceptList = s.acceptList := rfl
@[simp] theorem State.pmAdd_overrides (pt k : Nat) : (s.pmAdd pt k).overrides = s.overrides := rfl
@[simp] theorem State.pmAdd_flash (pt k : Nat) : (s.pmAdd pt k).flash = s.flash := rfl
@[simp] theorem State.pmAdd_patchSlot (pt k : Nat) : (s.pmAdd pt k).patchSlot = s.patchSlot := rfl
@[simp] theorem State.pmAdd_patches (pt k : Nat) : (s.pmAdd pt k).patches = s.patches := rfl
@[simp] theorem State.pmAdd_byk (pt k : Nat) : (s.pmAdd pt k).byk = s.byk := rfl
@[simp] theorem State.pmAdd_warm (pt k : Nat) : (s.pmAdd pt k).warm = s.warm := rfl
@[simp] theorem State.pmAdd_starter (pt k : Nat) : (s.pmAdd pt k).starter = s.starter := rfl
@[simp] theorem State.pmAdd_pwr (pt k : Nat) : (s.pmAdd pt k).pwr = s.pwr := rfl
@[simp] theorem State.pmAdd_pst (pt k : Nat) : (s.pmAdd pt k).pst = s.pst := rfl
@[simp] theorem State.pmAdd_boot (pt k : Nat) : (s.pmAdd pt k).boot = s.boot := rfl

/-! ## State.pmBump -/

@[simp] theorem State.pmBump_pending (f : Fld) (i k : Nat) : (s.pmBump f i k).pending = s.pending := by unfold State.pmBump; split <;> rfl
@[simp] theorem State.pmBump_regs (f : Fld) (i k : Nat) : (s.pmBump f i k).regs = s.regs := by unfold State.pmBump; split <;> rfl
@[simp] theorem State.pmBump_shadow (f : Fld) (i k : Nat) : (s.pmBump f i k).shadow = s.shadow := by unfold State.pmBump; split <;> rfl
@[simp] theorem State.pmBump_heldLow (f : Fld) (i k : Nat) : (s.pmBump f i k).heldLow = s.heldLow := by unfold State.pmBump; split <;> rfl
@[simp] theorem State.pmBump_latched (f : Fld) (i k : Nat) : (s.pmBump f i k).latched = s.latched := by unfold State.pmBump; split <;> rfl
@[simp] theorem State.pmBump_lastRead (f : Fld) (i k : Nat) : (s.pmBump f i k).lastRead = s.lastRead := by unfold State.pmBump; split <;> rfl
@[simp] theorem State.pmBump_mem (f : Fld) (i k : Nat) : (s.pmBump f i k).mem = s.mem := by unfold State.pmBump; split <;> rfl
@[simp] theorem State.pmBump_pool (f : Fld) (i k : Nat) : (s.pmBump f i k).pool = s.pool := by unfold State.pmBump; split <;> rfl
@[simp] theorem State.pmBump_host (f : Fld) (i k : Nat) : (s.pmBump f i k).host = s.host := by unfold State.pmBump; split <;> rfl
@[simp] theorem State.pmBump_lanes (f : Fld) (i k : Nat) : (s.pmBump f i k).lanes = s.lanes := by unfold State.pmBump; split <;> rfl
@[simp] theorem State.pmBump_xfers (f : Fld) (i k : Nat) : (s.pmBump f i k).xfers = s.xfers := by unfold State.pmBump; split <;> rfl
@[simp] theorem State.pmBump_xferNext (f : Fld) (i k : Nat) : (s.pmBump f i k).xferNext = s.xferNext := by unfold State.pmBump; split <;> rfl
@[simp] theorem State.pmBump_cmdTokens (f : Fld) (i k : Nat) : (s.pmBump f i k).cmdTokens = s.cmdTokens := by unfold State.pmBump; split <;> rfl
@[simp] theorem State.pmBump_progs (f : Fld) (i k : Nat) : (s.pmBump f i k).progs = s.progs := by unfold State.pmBump; split <;> rfl
@[simp] theorem State.pmBump_progGens (f : Fld) (i k : Nat) : (s.pmBump f i k).progGens = s.progGens := by unfold State.pmBump; split <;> rfl
@[simp] theorem State.pmBump_heats (f : Fld) (i k : Nat) : (s.pmBump f i k).heats = s.heats := by unfold State.pmBump; split <;> rfl
@[simp] theorem State.pmBump_heatNext (f : Fld) (i k : Nat) : (s.pmBump f i k).heatNext = s.heatNext := by unfold State.pmBump; split <;> rfl
@[simp] theorem State.pmBump_pacer (f : Fld) (i k : Nat) : (s.pmBump f i k).pacer = s.pacer := by unfold State.pmBump; split <;> rfl
@[simp] theorem State.pmBump_log (f : Fld) (i k : Nat) : (s.pmBump f i k).log = s.log := by unfold State.pmBump; split <;> rfl
@[simp] theorem State.pmBump_out (f : Fld) (i k : Nat) : (s.pmBump f i k).out = s.out := by unfold State.pmBump; split <;> rfl
@[simp] theorem State.pmBump_free (f : Fld) (i k : Nat) : (s.pmBump f i k).free = s.free := by unfold State.pmBump; split <;> rfl
@[simp] theorem State.pmBump_tk (f : Fld) (i k : Nat) : (s.pmBump f i k).tk = s.tk := by unfold State.pmBump; split <;> rfl
@[simp] theorem State.pmBump_radio (f : Fld) (i k : Nat) : (s.pmBump f i k).radio = s.radio := by unfold State.pmBump; split <;> rfl
@[simp] theorem State.pmBump_coding (f : Fld) (i k : Nat) : (s.pmBump f i k).coding = s.coding := by unfold State.pmBump; split <;> rfl
@[simp] theorem State.pmBump_ports (f : Fld) (i k : Nat) : (s.pmBump f i k).ports = s.ports := by unfold State.pmBump; split <;> rfl
@[simp] theorem State.pmBump_bond (f : Fld) (i k : Nat) : (s.pmBump f i k).bond = s.bond := by unfold State.pmBump; split <;> rfl
@[simp] theorem State.pmBump_frts (f : Fld) (i k : Nat) : (s.pmBump f i k).frts = s.frts := by unfold State.pmBump; split <;> rfl
@[simp] theorem State.pmBump_optics (f : Fld) (i k : Nat) : (s.pmBump f i k).optics = s.optics := by unfold State.pmBump; split <;> rfl
@[simp] theorem State.pmBump_cipher (f : Fld) (i k : Nat) : (s.pmBump f i k).cipher = s.cipher := by unfold State.pmBump; split <;> rfl
@[simp] theorem State.pmBump_acceptMode (f : Fld) (i k : Nat) : (s.pmBump f i k).acceptMode = s.acceptMode := by unfold State.pmBump; split <;> rfl
@[simp] theorem State.pmBump_acceptList (f : Fld) (i k : Nat) : (s.pmBump f i k).acceptList = s.acceptList := by unfold State.pmBump; split <;> rfl
@[simp] theorem State.pmBump_overrides (f : Fld) (i k : Nat) : (s.pmBump f i k).overrides = s.overrides := by unfold State.pmBump; split <;> rfl
@[simp] theorem State.pmBump_flash (f : Fld) (i k : Nat) : (s.pmBump f i k).flash = s.flash := by unfold State.pmBump; split <;> rfl
@[simp] theorem State.pmBump_patchSlot (f : Fld) (i k : Nat) : (s.pmBump f i k).patchSlot = s.patchSlot := by unfold State.pmBump; split <;> rfl
@[simp] theorem State.pmBump_patches (f : Fld) (i k : Nat) : (s.pmBump f i k).patches = s.patches := by unfold State.pmBump; split <;> rfl
@[simp] theorem State.pmBump_byk (f : Fld) (i k : Nat) : (s.pmBump f i k).byk = s.byk := by unfold State.pmBump; split <;> rfl
@[simp] theorem State.pmBump_warm (f : Fld) (i k : Nat) : (s.pmBump f i k).warm = s.warm := by unfold State.pmBump; split <;> rfl
@[simp] theorem State.pmBump_starter (f : Fld) (i k : Nat) : (s.pmBump f i k).starter = s.starter := by unfold State.pmBump; split <;> rfl
@[simp] theorem State.pmBump_pwr (f : Fld) (i k : Nat) : (s.pmBump f i k).pwr = s.pwr := by unfold State.pmBump; split <;> rfl
@[simp] theorem State.pmBump_pst (f : Fld) (i k : Nat) : (s.pmBump f i k).pst = s.pst := by unfold State.pmBump; split <;> rfl
@[simp] theorem State.pmBump_boot (f : Fld) (i k : Nat) : (s.pmBump f i k).boot = s.boot := by unfold State.pmBump; split <;> rfl

/-! ## State.incRg -/

@[simp] theorem State.incRg_pending (f : Fld) (i u k : Nat) : (s.incRg f i u k).pending = s.pending := by simp [State.incRg]
@[simp] theorem State.incRg_shadow (f : Fld) (i u k : Nat) : (s.incRg f i u k).shadow = s.shadow := by simp [State.incRg]
@[simp] theorem State.incRg_heldLow (f : Fld) (i u k : Nat) : (s.incRg f i u k).heldLow = s.heldLow := by simp [State.incRg]
@[simp] theorem State.incRg_latched (f : Fld) (i u k : Nat) : (s.incRg f i u k).latched = s.latched := by simp [State.incRg]
@[simp] theorem State.incRg_lastRead (f : Fld) (i u k : Nat) : (s.incRg f i u k).lastRead = s.lastRead := by simp [State.incRg]
@[simp] theorem State.incRg_mem (f : Fld) (i u k : Nat) : (s.incRg f i u k).mem = s.mem := by simp [State.incRg]
@[simp] theorem State.incRg_pool (f : Fld) (i u k : Nat) : (s.incRg f i u k).pool = s.pool := by simp [State.incRg]
@[simp] theorem State.incRg_host (f : Fld) (i u k : Nat) : (s.incRg f i u k).host = s.host := by simp [State.incRg]
@[simp] theorem State.incRg_lanes (f : Fld) (i u k : Nat) : (s.incRg f i u k).lanes = s.lanes := by simp [State.incRg]
@[simp] theorem State.incRg_xfers (f : Fld) (i u k : Nat) : (s.incRg f i u k).xfers = s.xfers := by simp [State.incRg]
@[simp] theorem State.incRg_xferNext (f : Fld) (i u k : Nat) : (s.incRg f i u k).xferNext = s.xferNext := by simp [State.incRg]
@[simp] theorem State.incRg_cmdTokens (f : Fld) (i u k : Nat) : (s.incRg f i u k).cmdTokens = s.cmdTokens := by simp [State.incRg]
@[simp] theorem State.incRg_progs (f : Fld) (i u k : Nat) : (s.incRg f i u k).progs = s.progs := by simp [State.incRg]
@[simp] theorem State.incRg_progGens (f : Fld) (i u k : Nat) : (s.incRg f i u k).progGens = s.progGens := by simp [State.incRg]
@[simp] theorem State.incRg_heats (f : Fld) (i u k : Nat) : (s.incRg f i u k).heats = s.heats := by simp [State.incRg]
@[simp] theorem State.incRg_heatNext (f : Fld) (i u k : Nat) : (s.incRg f i u k).heatNext = s.heatNext := by simp [State.incRg]
@[simp] theorem State.incRg_pacer (f : Fld) (i u k : Nat) : (s.incRg f i u k).pacer = s.pacer := by simp [State.incRg]
@[simp] theorem State.incRg_log (f : Fld) (i u k : Nat) : (s.incRg f i u k).log = s.log := by simp [State.incRg]
@[simp] theorem State.incRg_out (f : Fld) (i u k : Nat) : (s.incRg f i u k).out = s.out := by simp [State.incRg]
@[simp] theorem State.incRg_free (f : Fld) (i u k : Nat) : (s.incRg f i u k).free = s.free := by simp [State.incRg]
@[simp] theorem State.incRg_tk (f : Fld) (i u k : Nat) : (s.incRg f i u k).tk = s.tk := by simp [State.incRg]
@[simp] theorem State.incRg_radio (f : Fld) (i u k : Nat) : (s.incRg f i u k).radio = s.radio := by simp [State.incRg]
@[simp] theorem State.incRg_coding (f : Fld) (i u k : Nat) : (s.incRg f i u k).coding = s.coding := by simp [State.incRg]
@[simp] theorem State.incRg_ports (f : Fld) (i u k : Nat) : (s.incRg f i u k).ports = s.ports := by simp [State.incRg]
@[simp] theorem State.incRg_bond (f : Fld) (i u k : Nat) : (s.incRg f i u k).bond = s.bond := by simp [State.incRg]
@[simp] theorem State.incRg_frts (f : Fld) (i u k : Nat) : (s.incRg f i u k).frts = s.frts := by simp [State.incRg]
@[simp] theorem State.incRg_optics (f : Fld) (i u k : Nat) : (s.incRg f i u k).optics = s.optics := by simp [State.incRg]
@[simp] theorem State.incRg_cipher (f : Fld) (i u k : Nat) : (s.incRg f i u k).cipher = s.cipher := by simp [State.incRg]
@[simp] theorem State.incRg_acceptMode (f : Fld) (i u k : Nat) : (s.incRg f i u k).acceptMode = s.acceptMode := by simp [State.incRg]
@[simp] theorem State.incRg_acceptList (f : Fld) (i u k : Nat) : (s.incRg f i u k).acceptList = s.acceptList := by simp [State.incRg]
@[simp] theorem State.incRg_overrides (f : Fld) (i u k : Nat) : (s.incRg f i u k).overrides = s.overrides := by simp [State.incRg]
@[simp] theorem State.incRg_flash (f : Fld) (i u k : Nat) : (s.incRg f i u k).flash = s.flash := by simp [State.incRg]
@[simp] theorem State.incRg_patchSlot (f : Fld) (i u k : Nat) : (s.incRg f i u k).patchSlot = s.patchSlot := by simp [State.incRg]
@[simp] theorem State.incRg_patches (f : Fld) (i u k : Nat) : (s.incRg f i u k).patches = s.patches := by simp [State.incRg]
@[simp] theorem State.incRg_byk (f : Fld) (i u k : Nat) : (s.incRg f i u k).byk = s.byk := by simp [State.incRg]
@[simp] theorem State.incRg_warm (f : Fld) (i u k : Nat) : (s.incRg f i u k).warm = s.warm := by simp [State.incRg]
@[simp] theorem State.incRg_starter (f : Fld) (i u k : Nat) : (s.incRg f i u k).starter = s.starter := by simp [State.incRg]
@[simp] theorem State.incRg_pwr (f : Fld) (i u k : Nat) : (s.incRg f i u k).pwr = s.pwr := by simp [State.incRg]
@[simp] theorem State.incRg_pst (f : Fld) (i u k : Nat) : (s.incRg f i u k).pst = s.pst := by simp [State.incRg]
@[simp] theorem State.incRg_boot (f : Fld) (i u k : Nat) : (s.incRg f i u k).boot = s.boot := by simp [State.incRg]

/-! ## State.satRg -/

@[simp] theorem State.satRg_pending (f : Fld) (i u k : Nat) : (s.satRg f i u k).pending = s.pending := by simp [State.satRg]
@[simp] theorem State.satRg_shadow (f : Fld) (i u k : Nat) : (s.satRg f i u k).shadow = s.shadow := by simp [State.satRg]
@[simp] theorem State.satRg_heldLow (f : Fld) (i u k : Nat) : (s.satRg f i u k).heldLow = s.heldLow := by simp [State.satRg]
@[simp] theorem State.satRg_latched (f : Fld) (i u k : Nat) : (s.satRg f i u k).latched = s.latched := by simp [State.satRg]
@[simp] theorem State.satRg_lastRead (f : Fld) (i u k : Nat) : (s.satRg f i u k).lastRead = s.lastRead := by simp [State.satRg]
@[simp] theorem State.satRg_mem (f : Fld) (i u k : Nat) : (s.satRg f i u k).mem = s.mem := by simp [State.satRg]
@[simp] theorem State.satRg_pool (f : Fld) (i u k : Nat) : (s.satRg f i u k).pool = s.pool := by simp [State.satRg]
@[simp] theorem State.satRg_host (f : Fld) (i u k : Nat) : (s.satRg f i u k).host = s.host := by simp [State.satRg]
@[simp] theorem State.satRg_lanes (f : Fld) (i u k : Nat) : (s.satRg f i u k).lanes = s.lanes := by simp [State.satRg]
@[simp] theorem State.satRg_xfers (f : Fld) (i u k : Nat) : (s.satRg f i u k).xfers = s.xfers := by simp [State.satRg]
@[simp] theorem State.satRg_xferNext (f : Fld) (i u k : Nat) : (s.satRg f i u k).xferNext = s.xferNext := by simp [State.satRg]
@[simp] theorem State.satRg_cmdTokens (f : Fld) (i u k : Nat) : (s.satRg f i u k).cmdTokens = s.cmdTokens := by simp [State.satRg]
@[simp] theorem State.satRg_progs (f : Fld) (i u k : Nat) : (s.satRg f i u k).progs = s.progs := by simp [State.satRg]
@[simp] theorem State.satRg_progGens (f : Fld) (i u k : Nat) : (s.satRg f i u k).progGens = s.progGens := by simp [State.satRg]
@[simp] theorem State.satRg_heats (f : Fld) (i u k : Nat) : (s.satRg f i u k).heats = s.heats := by simp [State.satRg]
@[simp] theorem State.satRg_heatNext (f : Fld) (i u k : Nat) : (s.satRg f i u k).heatNext = s.heatNext := by simp [State.satRg]
@[simp] theorem State.satRg_pacer (f : Fld) (i u k : Nat) : (s.satRg f i u k).pacer = s.pacer := by simp [State.satRg]
@[simp] theorem State.satRg_log (f : Fld) (i u k : Nat) : (s.satRg f i u k).log = s.log := by simp [State.satRg]
@[simp] theorem State.satRg_out (f : Fld) (i u k : Nat) : (s.satRg f i u k).out = s.out := by simp [State.satRg]
@[simp] theorem State.satRg_free (f : Fld) (i u k : Nat) : (s.satRg f i u k).free = s.free := by simp [State.satRg]
@[simp] theorem State.satRg_tk (f : Fld) (i u k : Nat) : (s.satRg f i u k).tk = s.tk := by simp [State.satRg]
@[simp] theorem State.satRg_radio (f : Fld) (i u k : Nat) : (s.satRg f i u k).radio = s.radio := by simp [State.satRg]
@[simp] theorem State.satRg_coding (f : Fld) (i u k : Nat) : (s.satRg f i u k).coding = s.coding := by simp [State.satRg]
@[simp] theorem State.satRg_ports (f : Fld) (i u k : Nat) : (s.satRg f i u k).ports = s.ports := by simp [State.satRg]
@[simp] theorem State.satRg_bond (f : Fld) (i u k : Nat) : (s.satRg f i u k).bond = s.bond := by simp [State.satRg]
@[simp] theorem State.satRg_frts (f : Fld) (i u k : Nat) : (s.satRg f i u k).frts = s.frts := by simp [State.satRg]
@[simp] theorem State.satRg_optics (f : Fld) (i u k : Nat) : (s.satRg f i u k).optics = s.optics := by simp [State.satRg]
@[simp] theorem State.satRg_cipher (f : Fld) (i u k : Nat) : (s.satRg f i u k).cipher = s.cipher := by simp [State.satRg]
@[simp] theorem State.satRg_acceptMode (f : Fld) (i u k : Nat) : (s.satRg f i u k).acceptMode = s.acceptMode := by simp [State.satRg]
@[simp] theorem State.satRg_acceptList (f : Fld) (i u k : Nat) : (s.satRg f i u k).acceptList = s.acceptList := by simp [State.satRg]
@[simp] theorem State.satRg_overrides (f : Fld) (i u k : Nat) : (s.satRg f i u k).overrides = s.overrides := by simp [State.satRg]
@[simp] theorem State.satRg_flash (f : Fld) (i u k : Nat) : (s.satRg f i u k).flash = s.flash := by simp [State.satRg]
@[simp] theorem State.satRg_patchSlot (f : Fld) (i u k : Nat) : (s.satRg f i u k).patchSlot = s.patchSlot := by simp [State.satRg]
@[simp] theorem State.satRg_patches (f : Fld) (i u k : Nat) : (s.satRg f i u k).patches = s.patches := by simp [State.satRg]
@[simp] theorem State.satRg_byk (f : Fld) (i u k : Nat) : (s.satRg f i u k).byk = s.byk := by simp [State.satRg]
@[simp] theorem State.satRg_warm (f : Fld) (i u k : Nat) : (s.satRg f i u k).warm = s.warm := by simp [State.satRg]
@[simp] theorem State.satRg_starter (f : Fld) (i u k : Nat) : (s.satRg f i u k).starter = s.starter := by simp [State.satRg]
@[simp] theorem State.satRg_pwr (f : Fld) (i u k : Nat) : (s.satRg f i u k).pwr = s.pwr := by simp [State.satRg]
@[simp] theorem State.satRg_pst (f : Fld) (i u k : Nat) : (s.satRg f i u k).pst = s.pst := by simp [State.satRg]
@[simp] theorem State.satRg_boot (f : Fld) (i u k : Nat) : (s.satRg f i u k).boot = s.boot := by simp [State.satRg]

/-! ## State.spent -/

@[simp] theorem State.spent_pending (k : Nat) : (s.spent k).pending = s.pending := rfl
@[simp] theorem State.spent_regs (k : Nat) : (s.spent k).regs = s.regs := rfl
@[simp] theorem State.spent_shadow (k : Nat) : (s.spent k).shadow = s.shadow := rfl
@[simp] theorem State.spent_heldLow (k : Nat) : (s.spent k).heldLow = s.heldLow := rfl
@[simp] theorem State.spent_latched (k : Nat) : (s.spent k).latched = s.latched := rfl
@[simp] theorem State.spent_lastRead (k : Nat) : (s.spent k).lastRead = s.lastRead := rfl
@[simp] theorem State.spent_mem (k : Nat) : (s.spent k).mem = s.mem := rfl
@[simp] theorem State.spent_pool (k : Nat) : (s.spent k).pool = s.pool := rfl
@[simp] theorem State.spent_host (k : Nat) : (s.spent k).host = s.host := rfl
@[simp] theorem State.spent_lanes (k : Nat) : (s.spent k).lanes = s.lanes := rfl
@[simp] theorem State.spent_xfers (k : Nat) : (s.spent k).xfers = s.xfers := rfl
@[simp] theorem State.spent_xferNext (k : Nat) : (s.spent k).xferNext = s.xferNext := rfl
@[simp] theorem State.spent_cmdTokens (k : Nat) : (s.spent k).cmdTokens = s.cmdTokens := rfl
@[simp] theorem State.spent_progs (k : Nat) : (s.spent k).progs = s.progs := rfl
@[simp] theorem State.spent_progGens (k : Nat) : (s.spent k).progGens = s.progGens := rfl
@[simp] theorem State.spent_heats (k : Nat) : (s.spent k).heats = s.heats := rfl
@[simp] theorem State.spent_heatNext (k : Nat) : (s.spent k).heatNext = s.heatNext := rfl
@[simp] theorem State.spent_pacer (k : Nat) : (s.spent k).pacer = s.pacer := rfl
@[simp] theorem State.spent_log (k : Nat) : (s.spent k).log = s.log := rfl
@[simp] theorem State.spent_out (k : Nat) : (s.spent k).out = s.out := rfl
@[simp] theorem State.spent_tk (k : Nat) : (s.spent k).tk = s.tk := rfl
@[simp] theorem State.spent_radio (k : Nat) : (s.spent k).radio = s.radio := rfl
@[simp] theorem State.spent_coding (k : Nat) : (s.spent k).coding = s.coding := rfl
@[simp] theorem State.spent_ports (k : Nat) : (s.spent k).ports = s.ports := rfl
@[simp] theorem State.spent_pm (k : Nat) : (s.spent k).pm = s.pm := rfl
@[simp] theorem State.spent_bond (k : Nat) : (s.spent k).bond = s.bond := rfl
@[simp] theorem State.spent_frts (k : Nat) : (s.spent k).frts = s.frts := rfl
@[simp] theorem State.spent_optics (k : Nat) : (s.spent k).optics = s.optics := rfl
@[simp] theorem State.spent_cipher (k : Nat) : (s.spent k).cipher = s.cipher := rfl
@[simp] theorem State.spent_acceptMode (k : Nat) : (s.spent k).acceptMode = s.acceptMode := rfl
@[simp] theorem State.spent_acceptList (k : Nat) : (s.spent k).acceptList = s.acceptList := rfl
@[simp] theorem State.spent_overrides (k : Nat) : (s.spent k).overrides = s.overrides := rfl
@[simp] theorem State.spent_flash (k : Nat) : (s.spent k).flash = s.flash := rfl
@[simp] theorem State.spent_patchSlot (k : Nat) : (s.spent k).patchSlot = s.patchSlot := rfl
@[simp] theorem State.spent_patches (k : Nat) : (s.spent k).patches = s.patches := rfl
@[simp] theorem State.spent_byk (k : Nat) : (s.spent k).byk = s.byk := rfl
@[simp] theorem State.spent_warm (k : Nat) : (s.spent k).warm = s.warm := rfl
@[simp] theorem State.spent_starter (k : Nat) : (s.spent k).starter = s.starter := rfl
@[simp] theorem State.spent_pwr (k : Nat) : (s.spent k).pwr = s.pwr := rfl
@[simp] theorem State.spent_pst (k : Nat) : (s.spent k).pst = s.pst := rfl
@[simp] theorem State.spent_boot (k : Nat) : (s.spent k).boot = s.boot := rfl

/-! ## State.ev -/

@[simp] theorem State.ev_pending (e : Ev) (src : Nat) (args : List Nat) : (s.ev e src args).pending = s.pending := by unfold State.ev; split <;> rfl
@[simp] theorem State.ev_regs (e : Ev) (src : Nat) (args : List Nat) : (s.ev e src args).regs = s.regs := by unfold State.ev; split <;> rfl
@[simp] theorem State.ev_shadow (e : Ev) (src : Nat) (args : List Nat) : (s.ev e src args).shadow = s.shadow := by unfold State.ev; split <;> rfl
@[simp] theorem State.ev_heldLow (e : Ev) (src : Nat) (args : List Nat) : (s.ev e src args).heldLow = s.heldLow := by unfold State.ev; split <;> rfl
@[simp] theorem State.ev_latched (e : Ev) (src : Nat) (args : List Nat) : (s.ev e src args).latched = s.latched := by unfold State.ev; split <;> rfl
@[simp] theorem State.ev_lastRead (e : Ev) (src : Nat) (args : List Nat) : (s.ev e src args).lastRead = s.lastRead := by unfold State.ev; split <;> rfl
@[simp] theorem State.ev_mem (e : Ev) (src : Nat) (args : List Nat) : (s.ev e src args).mem = s.mem := by unfold State.ev; split <;> rfl
@[simp] theorem State.ev_pool (e : Ev) (src : Nat) (args : List Nat) : (s.ev e src args).pool = s.pool := by unfold State.ev; split <;> rfl
@[simp] theorem State.ev_host (e : Ev) (src : Nat) (args : List Nat) : (s.ev e src args).host = s.host := by unfold State.ev; split <;> rfl
@[simp] theorem State.ev_lanes (e : Ev) (src : Nat) (args : List Nat) : (s.ev e src args).lanes = s.lanes := by unfold State.ev; split <;> rfl
@[simp] theorem State.ev_xfers (e : Ev) (src : Nat) (args : List Nat) : (s.ev e src args).xfers = s.xfers := by unfold State.ev; split <;> rfl
@[simp] theorem State.ev_xferNext (e : Ev) (src : Nat) (args : List Nat) : (s.ev e src args).xferNext = s.xferNext := by unfold State.ev; split <;> rfl
@[simp] theorem State.ev_cmdTokens (e : Ev) (src : Nat) (args : List Nat) : (s.ev e src args).cmdTokens = s.cmdTokens := by unfold State.ev; split <;> rfl
@[simp] theorem State.ev_progs (e : Ev) (src : Nat) (args : List Nat) : (s.ev e src args).progs = s.progs := by unfold State.ev; split <;> rfl
@[simp] theorem State.ev_progGens (e : Ev) (src : Nat) (args : List Nat) : (s.ev e src args).progGens = s.progGens := by unfold State.ev; split <;> rfl
@[simp] theorem State.ev_heats (e : Ev) (src : Nat) (args : List Nat) : (s.ev e src args).heats = s.heats := by unfold State.ev; split <;> rfl
@[simp] theorem State.ev_heatNext (e : Ev) (src : Nat) (args : List Nat) : (s.ev e src args).heatNext = s.heatNext := by unfold State.ev; split <;> rfl
@[simp] theorem State.ev_pacer (e : Ev) (src : Nat) (args : List Nat) : (s.ev e src args).pacer = s.pacer := by unfold State.ev; split <;> rfl
@[simp] theorem State.ev_out (e : Ev) (src : Nat) (args : List Nat) : (s.ev e src args).out = s.out := by unfold State.ev; split <;> rfl
@[simp] theorem State.ev_free (e : Ev) (src : Nat) (args : List Nat) : (s.ev e src args).free = s.free := by unfold State.ev; split <;> rfl
@[simp] theorem State.ev_tk (e : Ev) (src : Nat) (args : List Nat) : (s.ev e src args).tk = s.tk := by unfold State.ev; split <;> rfl
@[simp] theorem State.ev_radio (e : Ev) (src : Nat) (args : List Nat) : (s.ev e src args).radio = s.radio := by unfold State.ev; split <;> rfl
@[simp] theorem State.ev_coding (e : Ev) (src : Nat) (args : List Nat) : (s.ev e src args).coding = s.coding := by unfold State.ev; split <;> rfl
@[simp] theorem State.ev_ports (e : Ev) (src : Nat) (args : List Nat) : (s.ev e src args).ports = s.ports := by unfold State.ev; split <;> rfl
@[simp] theorem State.ev_pm (e : Ev) (src : Nat) (args : List Nat) : (s.ev e src args).pm = s.pm := by unfold State.ev; split <;> rfl
@[simp] theorem State.ev_bond (e : Ev) (src : Nat) (args : List Nat) : (s.ev e src args).bond = s.bond := by unfold State.ev; split <;> rfl
@[simp] theorem State.ev_frts (e : Ev) (src : Nat) (args : List Nat) : (s.ev e src args).frts = s.frts := by unfold State.ev; split <;> rfl
@[simp] theorem State.ev_optics (e : Ev) (src : Nat) (args : List Nat) : (s.ev e src args).optics = s.optics := by unfold State.ev; split <;> rfl
@[simp] theorem State.ev_cipher (e : Ev) (src : Nat) (args : List Nat) : (s.ev e src args).cipher = s.cipher := by unfold State.ev; split <;> rfl
@[simp] theorem State.ev_acceptMode (e : Ev) (src : Nat) (args : List Nat) : (s.ev e src args).acceptMode = s.acceptMode := by unfold State.ev; split <;> rfl
@[simp] theorem State.ev_acceptList (e : Ev) (src : Nat) (args : List Nat) : (s.ev e src args).acceptList = s.acceptList := by unfold State.ev; split <;> rfl
@[simp] theorem State.ev_overrides (e : Ev) (src : Nat) (args : List Nat) : (s.ev e src args).overrides = s.overrides := by unfold State.ev; split <;> rfl
@[simp] theorem State.ev_flash (e : Ev) (src : Nat) (args : List Nat) : (s.ev e src args).flash = s.flash := by unfold State.ev; split <;> rfl
@[simp] theorem State.ev_patchSlot (e : Ev) (src : Nat) (args : List Nat) : (s.ev e src args).patchSlot = s.patchSlot := by unfold State.ev; split <;> rfl
@[simp] theorem State.ev_patches (e : Ev) (src : Nat) (args : List Nat) : (s.ev e src args).patches = s.patches := by unfold State.ev; split <;> rfl
@[simp] theorem State.ev_byk (e : Ev) (src : Nat) (args : List Nat) : (s.ev e src args).byk = s.byk := by unfold State.ev; split <;> rfl
@[simp] theorem State.ev_warm (e : Ev) (src : Nat) (args : List Nat) : (s.ev e src args).warm = s.warm := by unfold State.ev; split <;> rfl
@[simp] theorem State.ev_starter (e : Ev) (src : Nat) (args : List Nat) : (s.ev e src args).starter = s.starter := by unfold State.ev; split <;> rfl
@[simp] theorem State.ev_pwr (e : Ev) (src : Nat) (args : List Nat) : (s.ev e src args).pwr = s.pwr := by unfold State.ev; split <;> rfl
@[simp] theorem State.ev_pst (e : Ev) (src : Nat) (args : List Nat) : (s.ev e src args).pst = s.pst := by unfold State.ev; split <;> rfl
@[simp] theorem State.ev_boot (e : Ev) (src : Nat) (args : List Nat) : (s.ev e src args).boot = s.boot := by unfold State.ev; split <;> rfl

/-! ## State.emit -/

@[simp] theorem State.emit_pending (o : Output) : (s.emit o).pending = s.pending := rfl
@[simp] theorem State.emit_regs (o : Output) : (s.emit o).regs = s.regs := rfl
@[simp] theorem State.emit_shadow (o : Output) : (s.emit o).shadow = s.shadow := rfl
@[simp] theorem State.emit_heldLow (o : Output) : (s.emit o).heldLow = s.heldLow := rfl
@[simp] theorem State.emit_latched (o : Output) : (s.emit o).latched = s.latched := rfl
@[simp] theorem State.emit_lastRead (o : Output) : (s.emit o).lastRead = s.lastRead := rfl
@[simp] theorem State.emit_mem (o : Output) : (s.emit o).mem = s.mem := rfl
@[simp] theorem State.emit_pool (o : Output) : (s.emit o).pool = s.pool := rfl
@[simp] theorem State.emit_host (o : Output) : (s.emit o).host = s.host := rfl
@[simp] theorem State.emit_lanes (o : Output) : (s.emit o).lanes = s.lanes := rfl
@[simp] theorem State.emit_xfers (o : Output) : (s.emit o).xfers = s.xfers := rfl
@[simp] theorem State.emit_xferNext (o : Output) : (s.emit o).xferNext = s.xferNext := rfl
@[simp] theorem State.emit_cmdTokens (o : Output) : (s.emit o).cmdTokens = s.cmdTokens := rfl
@[simp] theorem State.emit_progs (o : Output) : (s.emit o).progs = s.progs := rfl
@[simp] theorem State.emit_progGens (o : Output) : (s.emit o).progGens = s.progGens := rfl
@[simp] theorem State.emit_heats (o : Output) : (s.emit o).heats = s.heats := rfl
@[simp] theorem State.emit_heatNext (o : Output) : (s.emit o).heatNext = s.heatNext := rfl
@[simp] theorem State.emit_pacer (o : Output) : (s.emit o).pacer = s.pacer := rfl
@[simp] theorem State.emit_log (o : Output) : (s.emit o).log = s.log := rfl
@[simp] theorem State.emit_free (o : Output) : (s.emit o).free = s.free := rfl
@[simp] theorem State.emit_tk (o : Output) : (s.emit o).tk = s.tk := rfl
@[simp] theorem State.emit_radio (o : Output) : (s.emit o).radio = s.radio := rfl
@[simp] theorem State.emit_coding (o : Output) : (s.emit o).coding = s.coding := rfl
@[simp] theorem State.emit_ports (o : Output) : (s.emit o).ports = s.ports := rfl
@[simp] theorem State.emit_pm (o : Output) : (s.emit o).pm = s.pm := rfl
@[simp] theorem State.emit_bond (o : Output) : (s.emit o).bond = s.bond := rfl
@[simp] theorem State.emit_frts (o : Output) : (s.emit o).frts = s.frts := rfl
@[simp] theorem State.emit_optics (o : Output) : (s.emit o).optics = s.optics := rfl
@[simp] theorem State.emit_cipher (o : Output) : (s.emit o).cipher = s.cipher := rfl
@[simp] theorem State.emit_acceptMode (o : Output) : (s.emit o).acceptMode = s.acceptMode := rfl
@[simp] theorem State.emit_acceptList (o : Output) : (s.emit o).acceptList = s.acceptList := rfl
@[simp] theorem State.emit_overrides (o : Output) : (s.emit o).overrides = s.overrides := rfl
@[simp] theorem State.emit_flash (o : Output) : (s.emit o).flash = s.flash := rfl
@[simp] theorem State.emit_patchSlot (o : Output) : (s.emit o).patchSlot = s.patchSlot := rfl
@[simp] theorem State.emit_patches (o : Output) : (s.emit o).patches = s.patches := rfl
@[simp] theorem State.emit_byk (o : Output) : (s.emit o).byk = s.byk := rfl
@[simp] theorem State.emit_warm (o : Output) : (s.emit o).warm = s.warm := rfl
@[simp] theorem State.emit_starter (o : Output) : (s.emit o).starter = s.starter := rfl
@[simp] theorem State.emit_pwr (o : Output) : (s.emit o).pwr = s.pwr := rfl
@[simp] theorem State.emit_pst (o : Output) : (s.emit o).pst = s.pst := rfl
@[simp] theorem State.emit_boot (o : Output) : (s.emit o).boot = s.boot := rfl

/-! ## State.post -/

@[simp] theorem State.post_pending (fn : Nat) (o : Output) : (s.post fn o).pending = s.pending := by unfold State.post; split <;> rfl
@[simp] theorem State.post_regs (fn : Nat) (o : Output) : (s.post fn o).regs = s.regs := by unfold State.post; split <;> rfl
@[simp] theorem State.post_shadow (fn : Nat) (o : Output) : (s.post fn o).shadow = s.shadow := by unfold State.post; split <;> rfl
@[simp] theorem State.post_heldLow (fn : Nat) (o : Output) : (s.post fn o).heldLow = s.heldLow := by unfold State.post; split <;> rfl
@[simp] theorem State.post_latched (fn : Nat) (o : Output) : (s.post fn o).latched = s.latched := by unfold State.post; split <;> rfl
@[simp] theorem State.post_lastRead (fn : Nat) (o : Output) : (s.post fn o).lastRead = s.lastRead := by unfold State.post; split <;> rfl
@[simp] theorem State.post_mem (fn : Nat) (o : Output) : (s.post fn o).mem = s.mem := by unfold State.post; split <;> rfl
@[simp] theorem State.post_pool (fn : Nat) (o : Output) : (s.post fn o).pool = s.pool := by unfold State.post; split <;> rfl
@[simp] theorem State.post_lanes (fn : Nat) (o : Output) : (s.post fn o).lanes = s.lanes := by unfold State.post; split <;> rfl
@[simp] theorem State.post_xfers (fn : Nat) (o : Output) : (s.post fn o).xfers = s.xfers := by unfold State.post; split <;> rfl
@[simp] theorem State.post_xferNext (fn : Nat) (o : Output) : (s.post fn o).xferNext = s.xferNext := by unfold State.post; split <;> rfl
@[simp] theorem State.post_cmdTokens (fn : Nat) (o : Output) : (s.post fn o).cmdTokens = s.cmdTokens := by unfold State.post; split <;> rfl
@[simp] theorem State.post_progs (fn : Nat) (o : Output) : (s.post fn o).progs = s.progs := by unfold State.post; split <;> rfl
@[simp] theorem State.post_progGens (fn : Nat) (o : Output) : (s.post fn o).progGens = s.progGens := by unfold State.post; split <;> rfl
@[simp] theorem State.post_heats (fn : Nat) (o : Output) : (s.post fn o).heats = s.heats := by unfold State.post; split <;> rfl
@[simp] theorem State.post_heatNext (fn : Nat) (o : Output) : (s.post fn o).heatNext = s.heatNext := by unfold State.post; split <;> rfl
@[simp] theorem State.post_pacer (fn : Nat) (o : Output) : (s.post fn o).pacer = s.pacer := by unfold State.post; split <;> rfl
@[simp] theorem State.post_log (fn : Nat) (o : Output) : (s.post fn o).log = s.log := by unfold State.post; split <;> rfl
@[simp] theorem State.post_free (fn : Nat) (o : Output) : (s.post fn o).free = s.free := by unfold State.post; split <;> rfl
@[simp] theorem State.post_tk (fn : Nat) (o : Output) : (s.post fn o).tk = s.tk := by unfold State.post; split <;> rfl
@[simp] theorem State.post_radio (fn : Nat) (o : Output) : (s.post fn o).radio = s.radio := by unfold State.post; split <;> rfl
@[simp] theorem State.post_coding (fn : Nat) (o : Output) : (s.post fn o).coding = s.coding := by unfold State.post; split <;> rfl
@[simp] theorem State.post_ports (fn : Nat) (o : Output) : (s.post fn o).ports = s.ports := by unfold State.post; split <;> rfl
@[simp] theorem State.post_pm (fn : Nat) (o : Output) : (s.post fn o).pm = s.pm := by unfold State.post; split <;> rfl
@[simp] theorem State.post_bond (fn : Nat) (o : Output) : (s.post fn o).bond = s.bond := by unfold State.post; split <;> rfl
@[simp] theorem State.post_frts (fn : Nat) (o : Output) : (s.post fn o).frts = s.frts := by unfold State.post; split <;> rfl
@[simp] theorem State.post_optics (fn : Nat) (o : Output) : (s.post fn o).optics = s.optics := by unfold State.post; split <;> rfl
@[simp] theorem State.post_cipher (fn : Nat) (o : Output) : (s.post fn o).cipher = s.cipher := by unfold State.post; split <;> rfl
@[simp] theorem State.post_acceptMode (fn : Nat) (o : Output) : (s.post fn o).acceptMode = s.acceptMode := by unfold State.post; split <;> rfl
@[simp] theorem State.post_acceptList (fn : Nat) (o : Output) : (s.post fn o).acceptList = s.acceptList := by unfold State.post; split <;> rfl
@[simp] theorem State.post_overrides (fn : Nat) (o : Output) : (s.post fn o).overrides = s.overrides := by unfold State.post; split <;> rfl
@[simp] theorem State.post_flash (fn : Nat) (o : Output) : (s.post fn o).flash = s.flash := by unfold State.post; split <;> rfl
@[simp] theorem State.post_patchSlot (fn : Nat) (o : Output) : (s.post fn o).patchSlot = s.patchSlot := by unfold State.post; split <;> rfl
@[simp] theorem State.post_patches (fn : Nat) (o : Output) : (s.post fn o).patches = s.patches := by unfold State.post; split <;> rfl
@[simp] theorem State.post_byk (fn : Nat) (o : Output) : (s.post fn o).byk = s.byk := by unfold State.post; split <;> rfl
@[simp] theorem State.post_warm (fn : Nat) (o : Output) : (s.post fn o).warm = s.warm := by unfold State.post; split <;> rfl
@[simp] theorem State.post_starter (fn : Nat) (o : Output) : (s.post fn o).starter = s.starter := by unfold State.post; split <;> rfl
@[simp] theorem State.post_pwr (fn : Nat) (o : Output) : (s.post fn o).pwr = s.pwr := by unfold State.post; split <;> rfl
@[simp] theorem State.post_pst (fn : Nat) (o : Output) : (s.post fn o).pst = s.pst := by unfold State.post; split <;> rfl
@[simp] theorem State.post_boot (fn : Nat) (o : Output) : (s.post fn o).boot = s.boot := by unfold State.post; split <;> rfl

/-! ## State.vector -/

@[simp] theorem State.vector_pending (fn v : Nat) : (s.vector fn v).pending = s.pending := by simp only [State.vector]; (repeat' split) <;> simp
@[simp] theorem State.vector_shadow (fn v : Nat) : (s.vector fn v).shadow = s.shadow := by simp only [State.vector]; (repeat' split) <;> simp
@[simp] theorem State.vector_heldLow (fn v : Nat) : (s.vector fn v).heldLow = s.heldLow := by simp only [State.vector]; (repeat' split) <;> simp
@[simp] theorem State.vector_latched (fn v : Nat) : (s.vector fn v).latched = s.latched := by simp only [State.vector]; (repeat' split) <;> simp
@[simp] theorem State.vector_lastRead (fn v : Nat) : (s.vector fn v).lastRead = s.lastRead := by simp only [State.vector]; (repeat' split) <;> simp
@[simp] theorem State.vector_mem (fn v : Nat) : (s.vector fn v).mem = s.mem := by simp only [State.vector]; (repeat' split) <;> simp
@[simp] theorem State.vector_pool (fn v : Nat) : (s.vector fn v).pool = s.pool := by simp only [State.vector]; (repeat' split) <;> simp
@[simp] theorem State.vector_lanes (fn v : Nat) : (s.vector fn v).lanes = s.lanes := by simp only [State.vector]; (repeat' split) <;> simp
@[simp] theorem State.vector_xfers (fn v : Nat) : (s.vector fn v).xfers = s.xfers := by simp only [State.vector]; (repeat' split) <;> simp
@[simp] theorem State.vector_xferNext (fn v : Nat) : (s.vector fn v).xferNext = s.xferNext := by simp only [State.vector]; (repeat' split) <;> simp
@[simp] theorem State.vector_cmdTokens (fn v : Nat) : (s.vector fn v).cmdTokens = s.cmdTokens := by simp only [State.vector]; (repeat' split) <;> simp
@[simp] theorem State.vector_progs (fn v : Nat) : (s.vector fn v).progs = s.progs := by simp only [State.vector]; (repeat' split) <;> simp
@[simp] theorem State.vector_progGens (fn v : Nat) : (s.vector fn v).progGens = s.progGens := by simp only [State.vector]; (repeat' split) <;> simp
@[simp] theorem State.vector_heats (fn v : Nat) : (s.vector fn v).heats = s.heats := by simp only [State.vector]; (repeat' split) <;> simp
@[simp] theorem State.vector_heatNext (fn v : Nat) : (s.vector fn v).heatNext = s.heatNext := by simp only [State.vector]; (repeat' split) <;> simp
@[simp] theorem State.vector_pacer (fn v : Nat) : (s.vector fn v).pacer = s.pacer := by simp only [State.vector]; (repeat' split) <;> simp
@[simp] theorem State.vector_log (fn v : Nat) : (s.vector fn v).log = s.log := by simp only [State.vector]; (repeat' split) <;> simp
@[simp] theorem State.vector_free (fn v : Nat) : (s.vector fn v).free = s.free := by simp only [State.vector]; (repeat' split) <;> simp
@[simp] theorem State.vector_tk (fn v : Nat) : (s.vector fn v).tk = s.tk := by simp only [State.vector]; (repeat' split) <;> simp
@[simp] theorem State.vector_radio (fn v : Nat) : (s.vector fn v).radio = s.radio := by simp only [State.vector]; (repeat' split) <;> simp
@[simp] theorem State.vector_coding (fn v : Nat) : (s.vector fn v).coding = s.coding := by simp only [State.vector]; (repeat' split) <;> simp
@[simp] theorem State.vector_ports (fn v : Nat) : (s.vector fn v).ports = s.ports := by simp only [State.vector]; (repeat' split) <;> simp
@[simp] theorem State.vector_bond (fn v : Nat) : (s.vector fn v).bond = s.bond := by simp only [State.vector]; (repeat' split) <;> simp
@[simp] theorem State.vector_frts (fn v : Nat) : (s.vector fn v).frts = s.frts := by simp only [State.vector]; (repeat' split) <;> simp
@[simp] theorem State.vector_optics (fn v : Nat) : (s.vector fn v).optics = s.optics := by simp only [State.vector]; (repeat' split) <;> simp
@[simp] theorem State.vector_cipher (fn v : Nat) : (s.vector fn v).cipher = s.cipher := by simp only [State.vector]; (repeat' split) <;> simp
@[simp] theorem State.vector_acceptMode (fn v : Nat) : (s.vector fn v).acceptMode = s.acceptMode := by simp only [State.vector]; (repeat' split) <;> simp
@[simp] theorem State.vector_acceptList (fn v : Nat) : (s.vector fn v).acceptList = s.acceptList := by simp only [State.vector]; (repeat' split) <;> simp
@[simp] theorem State.vector_overrides (fn v : Nat) : (s.vector fn v).overrides = s.overrides := by simp only [State.vector]; (repeat' split) <;> simp
@[simp] theorem State.vector_flash (fn v : Nat) : (s.vector fn v).flash = s.flash := by simp only [State.vector]; (repeat' split) <;> simp
@[simp] theorem State.vector_patchSlot (fn v : Nat) : (s.vector fn v).patchSlot = s.patchSlot := by simp only [State.vector]; (repeat' split) <;> simp
@[simp] theorem State.vector_patches (fn v : Nat) : (s.vector fn v).patches = s.patches := by simp only [State.vector]; (repeat' split) <;> simp
@[simp] theorem State.vector_byk (fn v : Nat) : (s.vector fn v).byk = s.byk := by simp only [State.vector]; (repeat' split) <;> simp
@[simp] theorem State.vector_warm (fn v : Nat) : (s.vector fn v).warm = s.warm := by simp only [State.vector]; (repeat' split) <;> simp
@[simp] theorem State.vector_starter (fn v : Nat) : (s.vector fn v).starter = s.starter := by simp only [State.vector]; (repeat' split) <;> simp
@[simp] theorem State.vector_pwr (fn v : Nat) : (s.vector fn v).pwr = s.pwr := by simp only [State.vector]; (repeat' split) <;> simp
@[simp] theorem State.vector_pst (fn v : Nat) : (s.vector fn v).pst = s.pst := by simp only [State.vector]; (repeat' split) <;> simp
@[simp] theorem State.vector_boot (fn v : Nat) : (s.vector fn v).boot = s.boot := by simp only [State.vector]; (repeat' split) <;> simp

/-! ## State.cause -/

@[simp] theorem State.cause_pending (f : Fld) (v : Nat) : (s.cause f v).pending = s.pending := by simp [State.cause]
@[simp] theorem State.cause_shadow (f : Fld) (v : Nat) : (s.cause f v).shadow = s.shadow := by simp [State.cause]
@[simp] theorem State.cause_heldLow (f : Fld) (v : Nat) : (s.cause f v).heldLow = s.heldLow := by simp [State.cause]
@[simp] theorem State.cause_latched (f : Fld) (v : Nat) : (s.cause f v).latched = s.latched := by simp [State.cause]
@[simp] theorem State.cause_lastRead (f : Fld) (v : Nat) : (s.cause f v).lastRead = s.lastRead := by simp [State.cause]
@[simp] theorem State.cause_mem (f : Fld) (v : Nat) : (s.cause f v).mem = s.mem := by simp [State.cause]
@[simp] theorem State.cause_pool (f : Fld) (v : Nat) : (s.cause f v).pool = s.pool := by simp [State.cause]
@[simp] theorem State.cause_lanes (f : Fld) (v : Nat) : (s.cause f v).lanes = s.lanes := by simp [State.cause]
@[simp] theorem State.cause_xfers (f : Fld) (v : Nat) : (s.cause f v).xfers = s.xfers := by simp [State.cause]
@[simp] theorem State.cause_xferNext (f : Fld) (v : Nat) : (s.cause f v).xferNext = s.xferNext := by simp [State.cause]
@[simp] theorem State.cause_cmdTokens (f : Fld) (v : Nat) : (s.cause f v).cmdTokens = s.cmdTokens := by simp [State.cause]
@[simp] theorem State.cause_progs (f : Fld) (v : Nat) : (s.cause f v).progs = s.progs := by simp [State.cause]
@[simp] theorem State.cause_progGens (f : Fld) (v : Nat) : (s.cause f v).progGens = s.progGens := by simp [State.cause]
@[simp] theorem State.cause_heats (f : Fld) (v : Nat) : (s.cause f v).heats = s.heats := by simp [State.cause]
@[simp] theorem State.cause_heatNext (f : Fld) (v : Nat) : (s.cause f v).heatNext = s.heatNext := by simp [State.cause]
@[simp] theorem State.cause_pacer (f : Fld) (v : Nat) : (s.cause f v).pacer = s.pacer := by simp [State.cause]
@[simp] theorem State.cause_log (f : Fld) (v : Nat) : (s.cause f v).log = s.log := by simp [State.cause]
@[simp] theorem State.cause_free (f : Fld) (v : Nat) : (s.cause f v).free = s.free := by simp [State.cause]
@[simp] theorem State.cause_tk (f : Fld) (v : Nat) : (s.cause f v).tk = s.tk := by simp [State.cause]
@[simp] theorem State.cause_radio (f : Fld) (v : Nat) : (s.cause f v).radio = s.radio := by simp [State.cause]
@[simp] theorem State.cause_coding (f : Fld) (v : Nat) : (s.cause f v).coding = s.coding := by simp [State.cause]
@[simp] theorem State.cause_ports (f : Fld) (v : Nat) : (s.cause f v).ports = s.ports := by simp [State.cause]
@[simp] theorem State.cause_bond (f : Fld) (v : Nat) : (s.cause f v).bond = s.bond := by simp [State.cause]
@[simp] theorem State.cause_frts (f : Fld) (v : Nat) : (s.cause f v).frts = s.frts := by simp [State.cause]
@[simp] theorem State.cause_optics (f : Fld) (v : Nat) : (s.cause f v).optics = s.optics := by simp [State.cause]
@[simp] theorem State.cause_cipher (f : Fld) (v : Nat) : (s.cause f v).cipher = s.cipher := by simp [State.cause]
@[simp] theorem State.cause_acceptMode (f : Fld) (v : Nat) : (s.cause f v).acceptMode = s.acceptMode := by simp [State.cause]
@[simp] theorem State.cause_acceptList (f : Fld) (v : Nat) : (s.cause f v).acceptList = s.acceptList := by simp [State.cause]
@[simp] theorem State.cause_overrides (f : Fld) (v : Nat) : (s.cause f v).overrides = s.overrides := by simp [State.cause]
@[simp] theorem State.cause_flash (f : Fld) (v : Nat) : (s.cause f v).flash = s.flash := by simp [State.cause]
@[simp] theorem State.cause_patchSlot (f : Fld) (v : Nat) : (s.cause f v).patchSlot = s.patchSlot := by simp [State.cause]
@[simp] theorem State.cause_patches (f : Fld) (v : Nat) : (s.cause f v).patches = s.patches := by simp [State.cause]
@[simp] theorem State.cause_byk (f : Fld) (v : Nat) : (s.cause f v).byk = s.byk := by simp [State.cause]
@[simp] theorem State.cause_warm (f : Fld) (v : Nat) : (s.cause f v).warm = s.warm := by simp [State.cause]
@[simp] theorem State.cause_starter (f : Fld) (v : Nat) : (s.cause f v).starter = s.starter := by simp [State.cause]
@[simp] theorem State.cause_pwr (f : Fld) (v : Nat) : (s.cause f v).pwr = s.pwr := by simp [State.cause]
@[simp] theorem State.cause_pst (f : Fld) (v : Nat) : (s.cause f v).pst = s.pst := by simp [State.cause]
@[simp] theorem State.cause_boot (f : Fld) (v : Nat) : (s.cause f v).boot = s.boot := by simp [State.cause]

/-! ## State.modRing -/

@[simp] theorem State.modRing_pending (n : Nat) (f : Ring → Ring) : (s.modRing n f).pending = s.pending := rfl
@[simp] theorem State.modRing_regs (n : Nat) (f : Ring → Ring) : (s.modRing n f).regs = s.regs := rfl
@[simp] theorem State.modRing_shadow (n : Nat) (f : Ring → Ring) : (s.modRing n f).shadow = s.shadow := rfl
@[simp] theorem State.modRing_heldLow (n : Nat) (f : Ring → Ring) : (s.modRing n f).heldLow = s.heldLow := rfl
@[simp] theorem State.modRing_latched (n : Nat) (f : Ring → Ring) : (s.modRing n f).latched = s.latched := rfl
@[simp] theorem State.modRing_lastRead (n : Nat) (f : Ring → Ring) : (s.modRing n f).lastRead = s.lastRead := rfl
@[simp] theorem State.modRing_mem (n : Nat) (f : Ring → Ring) : (s.modRing n f).mem = s.mem := rfl
@[simp] theorem State.modRing_pool (n : Nat) (f : Ring → Ring) : (s.modRing n f).pool = s.pool := rfl
@[simp] theorem State.modRing_lanes (n : Nat) (f : Ring → Ring) : (s.modRing n f).lanes = s.lanes := rfl
@[simp] theorem State.modRing_xfers (n : Nat) (f : Ring → Ring) : (s.modRing n f).xfers = s.xfers := rfl
@[simp] theorem State.modRing_xferNext (n : Nat) (f : Ring → Ring) : (s.modRing n f).xferNext = s.xferNext := rfl
@[simp] theorem State.modRing_cmdTokens (n : Nat) (f : Ring → Ring) : (s.modRing n f).cmdTokens = s.cmdTokens := rfl
@[simp] theorem State.modRing_progs (n : Nat) (f : Ring → Ring) : (s.modRing n f).progs = s.progs := rfl
@[simp] theorem State.modRing_progGens (n : Nat) (f : Ring → Ring) : (s.modRing n f).progGens = s.progGens := rfl
@[simp] theorem State.modRing_heats (n : Nat) (f : Ring → Ring) : (s.modRing n f).heats = s.heats := rfl
@[simp] theorem State.modRing_heatNext (n : Nat) (f : Ring → Ring) : (s.modRing n f).heatNext = s.heatNext := rfl
@[simp] theorem State.modRing_pacer (n : Nat) (f : Ring → Ring) : (s.modRing n f).pacer = s.pacer := rfl
@[simp] theorem State.modRing_log (n : Nat) (f : Ring → Ring) : (s.modRing n f).log = s.log := rfl
@[simp] theorem State.modRing_out (n : Nat) (f : Ring → Ring) : (s.modRing n f).out = s.out := rfl
@[simp] theorem State.modRing_free (n : Nat) (f : Ring → Ring) : (s.modRing n f).free = s.free := rfl
@[simp] theorem State.modRing_tk (n : Nat) (f : Ring → Ring) : (s.modRing n f).tk = s.tk := rfl
@[simp] theorem State.modRing_radio (n : Nat) (f : Ring → Ring) : (s.modRing n f).radio = s.radio := rfl
@[simp] theorem State.modRing_coding (n : Nat) (f : Ring → Ring) : (s.modRing n f).coding = s.coding := rfl
@[simp] theorem State.modRing_ports (n : Nat) (f : Ring → Ring) : (s.modRing n f).ports = s.ports := rfl
@[simp] theorem State.modRing_pm (n : Nat) (f : Ring → Ring) : (s.modRing n f).pm = s.pm := rfl
@[simp] theorem State.modRing_bond (n : Nat) (f : Ring → Ring) : (s.modRing n f).bond = s.bond := rfl
@[simp] theorem State.modRing_frts (n : Nat) (f : Ring → Ring) : (s.modRing n f).frts = s.frts := rfl
@[simp] theorem State.modRing_optics (n : Nat) (f : Ring → Ring) : (s.modRing n f).optics = s.optics := rfl
@[simp] theorem State.modRing_cipher (n : Nat) (f : Ring → Ring) : (s.modRing n f).cipher = s.cipher := rfl
@[simp] theorem State.modRing_acceptMode (n : Nat) (f : Ring → Ring) : (s.modRing n f).acceptMode = s.acceptMode := rfl
@[simp] theorem State.modRing_acceptList (n : Nat) (f : Ring → Ring) : (s.modRing n f).acceptList = s.acceptList := rfl
@[simp] theorem State.modRing_overrides (n : Nat) (f : Ring → Ring) : (s.modRing n f).overrides = s.overrides := rfl
@[simp] theorem State.modRing_flash (n : Nat) (f : Ring → Ring) : (s.modRing n f).flash = s.flash := rfl
@[simp] theorem State.modRing_patchSlot (n : Nat) (f : Ring → Ring) : (s.modRing n f).patchSlot = s.patchSlot := rfl
@[simp] theorem State.modRing_patches (n : Nat) (f : Ring → Ring) : (s.modRing n f).patches = s.patches := rfl
@[simp] theorem State.modRing_byk (n : Nat) (f : Ring → Ring) : (s.modRing n f).byk = s.byk := rfl
@[simp] theorem State.modRing_warm (n : Nat) (f : Ring → Ring) : (s.modRing n f).warm = s.warm := rfl
@[simp] theorem State.modRing_starter (n : Nat) (f : Ring → Ring) : (s.modRing n f).starter = s.starter := rfl
@[simp] theorem State.modRing_pwr (n : Nat) (f : Ring → Ring) : (s.modRing n f).pwr = s.pwr := rfl
@[simp] theorem State.modRing_pst (n : Nat) (f : Ring → Ring) : (s.modRing n f).pst = s.pst := rfl
@[simp] theorem State.modRing_boot (n : Nat) (f : Ring → Ring) : (s.modRing n f).boot = s.boot := rfl

/-! ## State.modCmd -/

@[simp] theorem State.modCmd_pending (r c : Nat) (f : Cmd → Cmd) : (s.modCmd r c f).pending = s.pending := rfl
@[simp] theorem State.modCmd_regs (r c : Nat) (f : Cmd → Cmd) : (s.modCmd r c f).regs = s.regs := rfl
@[simp] theorem State.modCmd_shadow (r c : Nat) (f : Cmd → Cmd) : (s.modCmd r c f).shadow = s.shadow := rfl
@[simp] theorem State.modCmd_heldLow (r c : Nat) (f : Cmd → Cmd) : (s.modCmd r c f).heldLow = s.heldLow := rfl
@[simp] theorem State.modCmd_latched (r c : Nat) (f : Cmd → Cmd) : (s.modCmd r c f).latched = s.latched := rfl
@[simp] theorem State.modCmd_lastRead (r c : Nat) (f : Cmd → Cmd) : (s.modCmd r c f).lastRead = s.lastRead := rfl
@[simp] theorem State.modCmd_mem (r c : Nat) (f : Cmd → Cmd) : (s.modCmd r c f).mem = s.mem := rfl
@[simp] theorem State.modCmd_pool (r c : Nat) (f : Cmd → Cmd) : (s.modCmd r c f).pool = s.pool := rfl
@[simp] theorem State.modCmd_lanes (r c : Nat) (f : Cmd → Cmd) : (s.modCmd r c f).lanes = s.lanes := rfl
@[simp] theorem State.modCmd_xfers (r c : Nat) (f : Cmd → Cmd) : (s.modCmd r c f).xfers = s.xfers := rfl
@[simp] theorem State.modCmd_xferNext (r c : Nat) (f : Cmd → Cmd) : (s.modCmd r c f).xferNext = s.xferNext := rfl
@[simp] theorem State.modCmd_cmdTokens (r c : Nat) (f : Cmd → Cmd) : (s.modCmd r c f).cmdTokens = s.cmdTokens := rfl
@[simp] theorem State.modCmd_progs (r c : Nat) (f : Cmd → Cmd) : (s.modCmd r c f).progs = s.progs := rfl
@[simp] theorem State.modCmd_progGens (r c : Nat) (f : Cmd → Cmd) : (s.modCmd r c f).progGens = s.progGens := rfl
@[simp] theorem State.modCmd_heats (r c : Nat) (f : Cmd → Cmd) : (s.modCmd r c f).heats = s.heats := rfl
@[simp] theorem State.modCmd_heatNext (r c : Nat) (f : Cmd → Cmd) : (s.modCmd r c f).heatNext = s.heatNext := rfl
@[simp] theorem State.modCmd_pacer (r c : Nat) (f : Cmd → Cmd) : (s.modCmd r c f).pacer = s.pacer := rfl
@[simp] theorem State.modCmd_log (r c : Nat) (f : Cmd → Cmd) : (s.modCmd r c f).log = s.log := rfl
@[simp] theorem State.modCmd_out (r c : Nat) (f : Cmd → Cmd) : (s.modCmd r c f).out = s.out := rfl
@[simp] theorem State.modCmd_free (r c : Nat) (f : Cmd → Cmd) : (s.modCmd r c f).free = s.free := rfl
@[simp] theorem State.modCmd_tk (r c : Nat) (f : Cmd → Cmd) : (s.modCmd r c f).tk = s.tk := rfl
@[simp] theorem State.modCmd_radio (r c : Nat) (f : Cmd → Cmd) : (s.modCmd r c f).radio = s.radio := rfl
@[simp] theorem State.modCmd_coding (r c : Nat) (f : Cmd → Cmd) : (s.modCmd r c f).coding = s.coding := rfl
@[simp] theorem State.modCmd_ports (r c : Nat) (f : Cmd → Cmd) : (s.modCmd r c f).ports = s.ports := rfl
@[simp] theorem State.modCmd_pm (r c : Nat) (f : Cmd → Cmd) : (s.modCmd r c f).pm = s.pm := rfl
@[simp] theorem State.modCmd_bond (r c : Nat) (f : Cmd → Cmd) : (s.modCmd r c f).bond = s.bond := rfl
@[simp] theorem State.modCmd_frts (r c : Nat) (f : Cmd → Cmd) : (s.modCmd r c f).frts = s.frts := rfl
@[simp] theorem State.modCmd_optics (r c : Nat) (f : Cmd → Cmd) : (s.modCmd r c f).optics = s.optics := rfl
@[simp] theorem State.modCmd_cipher (r c : Nat) (f : Cmd → Cmd) : (s.modCmd r c f).cipher = s.cipher := rfl
@[simp] theorem State.modCmd_acceptMode (r c : Nat) (f : Cmd → Cmd) : (s.modCmd r c f).acceptMode = s.acceptMode := rfl
@[simp] theorem State.modCmd_acceptList (r c : Nat) (f : Cmd → Cmd) : (s.modCmd r c f).acceptList = s.acceptList := rfl
@[simp] theorem State.modCmd_overrides (r c : Nat) (f : Cmd → Cmd) : (s.modCmd r c f).overrides = s.overrides := rfl
@[simp] theorem State.modCmd_flash (r c : Nat) (f : Cmd → Cmd) : (s.modCmd r c f).flash = s.flash := rfl
@[simp] theorem State.modCmd_patchSlot (r c : Nat) (f : Cmd → Cmd) : (s.modCmd r c f).patchSlot = s.patchSlot := rfl
@[simp] theorem State.modCmd_patches (r c : Nat) (f : Cmd → Cmd) : (s.modCmd r c f).patches = s.patches := rfl
@[simp] theorem State.modCmd_byk (r c : Nat) (f : Cmd → Cmd) : (s.modCmd r c f).byk = s.byk := rfl
@[simp] theorem State.modCmd_warm (r c : Nat) (f : Cmd → Cmd) : (s.modCmd r c f).warm = s.warm := rfl
@[simp] theorem State.modCmd_starter (r c : Nat) (f : Cmd → Cmd) : (s.modCmd r c f).starter = s.starter := rfl
@[simp] theorem State.modCmd_pwr (r c : Nat) (f : Cmd → Cmd) : (s.modCmd r c f).pwr = s.pwr := rfl
@[simp] theorem State.modCmd_pst (r c : Nat) (f : Cmd → Cmd) : (s.modCmd r c f).pst = s.pst := rfl
@[simp] theorem State.modCmd_boot (r c : Nat) (f : Cmd → Cmd) : (s.modCmd r c f).boot = s.boot := rfl

/-! ## State.write -/

@[simp] theorem State.write_pending (a : Nat) (bs : List Byte) : (s.write a bs).pending = s.pending := rfl
@[simp] theorem State.write_regs (a : Nat) (bs : List Byte) : (s.write a bs).regs = s.regs := rfl
@[simp] theorem State.write_shadow (a : Nat) (bs : List Byte) : (s.write a bs).shadow = s.shadow := rfl
@[simp] theorem State.write_heldLow (a : Nat) (bs : List Byte) : (s.write a bs).heldLow = s.heldLow := rfl
@[simp] theorem State.write_latched (a : Nat) (bs : List Byte) : (s.write a bs).latched = s.latched := rfl
@[simp] theorem State.write_lastRead (a : Nat) (bs : List Byte) : (s.write a bs).lastRead = s.lastRead := rfl
@[simp] theorem State.write_pool (a : Nat) (bs : List Byte) : (s.write a bs).pool = s.pool := rfl
@[simp] theorem State.write_host (a : Nat) (bs : List Byte) : (s.write a bs).host = s.host := rfl
@[simp] theorem State.write_lanes (a : Nat) (bs : List Byte) : (s.write a bs).lanes = s.lanes := rfl
@[simp] theorem State.write_xfers (a : Nat) (bs : List Byte) : (s.write a bs).xfers = s.xfers := rfl
@[simp] theorem State.write_xferNext (a : Nat) (bs : List Byte) : (s.write a bs).xferNext = s.xferNext := rfl
@[simp] theorem State.write_cmdTokens (a : Nat) (bs : List Byte) : (s.write a bs).cmdTokens = s.cmdTokens := rfl
@[simp] theorem State.write_progs (a : Nat) (bs : List Byte) : (s.write a bs).progs = s.progs := rfl
@[simp] theorem State.write_progGens (a : Nat) (bs : List Byte) : (s.write a bs).progGens = s.progGens := rfl
@[simp] theorem State.write_heats (a : Nat) (bs : List Byte) : (s.write a bs).heats = s.heats := rfl
@[simp] theorem State.write_heatNext (a : Nat) (bs : List Byte) : (s.write a bs).heatNext = s.heatNext := rfl
@[simp] theorem State.write_pacer (a : Nat) (bs : List Byte) : (s.write a bs).pacer = s.pacer := rfl
@[simp] theorem State.write_log (a : Nat) (bs : List Byte) : (s.write a bs).log = s.log := rfl
@[simp] theorem State.write_out (a : Nat) (bs : List Byte) : (s.write a bs).out = s.out := rfl
@[simp] theorem State.write_free (a : Nat) (bs : List Byte) : (s.write a bs).free = s.free := rfl
@[simp] theorem State.write_tk (a : Nat) (bs : List Byte) : (s.write a bs).tk = s.tk := rfl
@[simp] theorem State.write_radio (a : Nat) (bs : List Byte) : (s.write a bs).radio = s.radio := rfl
@[simp] theorem State.write_coding (a : Nat) (bs : List Byte) : (s.write a bs).coding = s.coding := rfl
@[simp] theorem State.write_ports (a : Nat) (bs : List Byte) : (s.write a bs).ports = s.ports := rfl
@[simp] theorem State.write_pm (a : Nat) (bs : List Byte) : (s.write a bs).pm = s.pm := rfl
@[simp] theorem State.write_bond (a : Nat) (bs : List Byte) : (s.write a bs).bond = s.bond := rfl
@[simp] theorem State.write_frts (a : Nat) (bs : List Byte) : (s.write a bs).frts = s.frts := rfl
@[simp] theorem State.write_optics (a : Nat) (bs : List Byte) : (s.write a bs).optics = s.optics := rfl
@[simp] theorem State.write_cipher (a : Nat) (bs : List Byte) : (s.write a bs).cipher = s.cipher := rfl
@[simp] theorem State.write_acceptMode (a : Nat) (bs : List Byte) : (s.write a bs).acceptMode = s.acceptMode := rfl
@[simp] theorem State.write_acceptList (a : Nat) (bs : List Byte) : (s.write a bs).acceptList = s.acceptList := rfl
@[simp] theorem State.write_overrides (a : Nat) (bs : List Byte) : (s.write a bs).overrides = s.overrides := rfl
@[simp] theorem State.write_flash (a : Nat) (bs : List Byte) : (s.write a bs).flash = s.flash := rfl
@[simp] theorem State.write_patchSlot (a : Nat) (bs : List Byte) : (s.write a bs).patchSlot = s.patchSlot := rfl
@[simp] theorem State.write_patches (a : Nat) (bs : List Byte) : (s.write a bs).patches = s.patches := rfl
@[simp] theorem State.write_byk (a : Nat) (bs : List Byte) : (s.write a bs).byk = s.byk := rfl
@[simp] theorem State.write_warm (a : Nat) (bs : List Byte) : (s.write a bs).warm = s.warm := rfl
@[simp] theorem State.write_starter (a : Nat) (bs : List Byte) : (s.write a bs).starter = s.starter := rfl
@[simp] theorem State.write_pwr (a : Nat) (bs : List Byte) : (s.write a bs).pwr = s.pwr := rfl
@[simp] theorem State.write_pst (a : Nat) (bs : List Byte) : (s.write a bs).pst = s.pst := rfl
@[simp] theorem State.write_boot (a : Nat) (bs : List Byte) : (s.write a bs).boot = s.boot := rfl

/-! ## State.upset -/

@[simp] theorem State.upset_pending (ws : List Nat) : (s.upset ws).pending = s.pending := rfl
@[simp] theorem State.upset_regs (ws : List Nat) : (s.upset ws).regs = s.regs := rfl
@[simp] theorem State.upset_shadow (ws : List Nat) : (s.upset ws).shadow = s.shadow := rfl
@[simp] theorem State.upset_heldLow (ws : List Nat) : (s.upset ws).heldLow = s.heldLow := rfl
@[simp] theorem State.upset_latched (ws : List Nat) : (s.upset ws).latched = s.latched := rfl
@[simp] theorem State.upset_lastRead (ws : List Nat) : (s.upset ws).lastRead = s.lastRead := rfl
@[simp] theorem State.upset_pool (ws : List Nat) : (s.upset ws).pool = s.pool := rfl
@[simp] theorem State.upset_host (ws : List Nat) : (s.upset ws).host = s.host := rfl
@[simp] theorem State.upset_lanes (ws : List Nat) : (s.upset ws).lanes = s.lanes := rfl
@[simp] theorem State.upset_xfers (ws : List Nat) : (s.upset ws).xfers = s.xfers := rfl
@[simp] theorem State.upset_xferNext (ws : List Nat) : (s.upset ws).xferNext = s.xferNext := rfl
@[simp] theorem State.upset_cmdTokens (ws : List Nat) : (s.upset ws).cmdTokens = s.cmdTokens := rfl
@[simp] theorem State.upset_progs (ws : List Nat) : (s.upset ws).progs = s.progs := rfl
@[simp] theorem State.upset_progGens (ws : List Nat) : (s.upset ws).progGens = s.progGens := rfl
@[simp] theorem State.upset_heats (ws : List Nat) : (s.upset ws).heats = s.heats := rfl
@[simp] theorem State.upset_heatNext (ws : List Nat) : (s.upset ws).heatNext = s.heatNext := rfl
@[simp] theorem State.upset_pacer (ws : List Nat) : (s.upset ws).pacer = s.pacer := rfl
@[simp] theorem State.upset_log (ws : List Nat) : (s.upset ws).log = s.log := rfl
@[simp] theorem State.upset_out (ws : List Nat) : (s.upset ws).out = s.out := rfl
@[simp] theorem State.upset_free (ws : List Nat) : (s.upset ws).free = s.free := rfl
@[simp] theorem State.upset_tk (ws : List Nat) : (s.upset ws).tk = s.tk := rfl
@[simp] theorem State.upset_radio (ws : List Nat) : (s.upset ws).radio = s.radio := rfl
@[simp] theorem State.upset_coding (ws : List Nat) : (s.upset ws).coding = s.coding := rfl
@[simp] theorem State.upset_ports (ws : List Nat) : (s.upset ws).ports = s.ports := rfl
@[simp] theorem State.upset_pm (ws : List Nat) : (s.upset ws).pm = s.pm := rfl
@[simp] theorem State.upset_bond (ws : List Nat) : (s.upset ws).bond = s.bond := rfl
@[simp] theorem State.upset_frts (ws : List Nat) : (s.upset ws).frts = s.frts := rfl
@[simp] theorem State.upset_optics (ws : List Nat) : (s.upset ws).optics = s.optics := rfl
@[simp] theorem State.upset_cipher (ws : List Nat) : (s.upset ws).cipher = s.cipher := rfl
@[simp] theorem State.upset_acceptMode (ws : List Nat) : (s.upset ws).acceptMode = s.acceptMode := rfl
@[simp] theorem State.upset_acceptList (ws : List Nat) : (s.upset ws).acceptList = s.acceptList := rfl
@[simp] theorem State.upset_overrides (ws : List Nat) : (s.upset ws).overrides = s.overrides := rfl
@[simp] theorem State.upset_flash (ws : List Nat) : (s.upset ws).flash = s.flash := rfl
@[simp] theorem State.upset_patchSlot (ws : List Nat) : (s.upset ws).patchSlot = s.patchSlot := rfl
@[simp] theorem State.upset_patches (ws : List Nat) : (s.upset ws).patches = s.patches := rfl
@[simp] theorem State.upset_byk (ws : List Nat) : (s.upset ws).byk = s.byk := rfl
@[simp] theorem State.upset_warm (ws : List Nat) : (s.upset ws).warm = s.warm := rfl
@[simp] theorem State.upset_starter (ws : List Nat) : (s.upset ws).starter = s.starter := rfl
@[simp] theorem State.upset_pwr (ws : List Nat) : (s.upset ws).pwr = s.pwr := rfl
@[simp] theorem State.upset_pst (ws : List Nat) : (s.upset ws).pst = s.pst := rfl
@[simp] theorem State.upset_boot (ws : List Nat) : (s.upset ws).boot = s.boot := rfl

/-! ## State.memCe -/

@[simp] theorem State.memCe_pending (w : Nat) : (s.memCe w).pending = s.pending := by unfold State.memCe; split <;> simp
@[simp] theorem State.memCe_shadow (w : Nat) : (s.memCe w).shadow = s.shadow := by unfold State.memCe; split <;> simp
@[simp] theorem State.memCe_heldLow (w : Nat) : (s.memCe w).heldLow = s.heldLow := by unfold State.memCe; split <;> simp
@[simp] theorem State.memCe_latched (w : Nat) : (s.memCe w).latched = s.latched := by unfold State.memCe; split <;> simp
@[simp] theorem State.memCe_lastRead (w : Nat) : (s.memCe w).lastRead = s.lastRead := by unfold State.memCe; split <;> simp
@[simp] theorem State.memCe_pool (w : Nat) : (s.memCe w).pool = s.pool := by unfold State.memCe; split <;> simp
@[simp] theorem State.memCe_host (w : Nat) : (s.memCe w).host = s.host := by unfold State.memCe; split <;> simp
@[simp] theorem State.memCe_lanes (w : Nat) : (s.memCe w).lanes = s.lanes := by unfold State.memCe; split <;> simp
@[simp] theorem State.memCe_xfers (w : Nat) : (s.memCe w).xfers = s.xfers := by unfold State.memCe; split <;> simp
@[simp] theorem State.memCe_xferNext (w : Nat) : (s.memCe w).xferNext = s.xferNext := by unfold State.memCe; split <;> simp
@[simp] theorem State.memCe_cmdTokens (w : Nat) : (s.memCe w).cmdTokens = s.cmdTokens := by unfold State.memCe; split <;> simp
@[simp] theorem State.memCe_progs (w : Nat) : (s.memCe w).progs = s.progs := by unfold State.memCe; split <;> simp
@[simp] theorem State.memCe_progGens (w : Nat) : (s.memCe w).progGens = s.progGens := by unfold State.memCe; split <;> simp
@[simp] theorem State.memCe_heats (w : Nat) : (s.memCe w).heats = s.heats := by unfold State.memCe; split <;> simp
@[simp] theorem State.memCe_heatNext (w : Nat) : (s.memCe w).heatNext = s.heatNext := by unfold State.memCe; split <;> simp
@[simp] theorem State.memCe_pacer (w : Nat) : (s.memCe w).pacer = s.pacer := by unfold State.memCe; split <;> simp
@[simp] theorem State.memCe_log (w : Nat) : (s.memCe w).log = s.log := by unfold State.memCe; split <;> simp
@[simp] theorem State.memCe_out (w : Nat) : (s.memCe w).out = s.out := by unfold State.memCe; split <;> simp
@[simp] theorem State.memCe_free (w : Nat) : (s.memCe w).free = s.free := by unfold State.memCe; split <;> simp
@[simp] theorem State.memCe_tk (w : Nat) : (s.memCe w).tk = s.tk := by unfold State.memCe; split <;> simp
@[simp] theorem State.memCe_radio (w : Nat) : (s.memCe w).radio = s.radio := by unfold State.memCe; split <;> simp
@[simp] theorem State.memCe_coding (w : Nat) : (s.memCe w).coding = s.coding := by unfold State.memCe; split <;> simp
@[simp] theorem State.memCe_ports (w : Nat) : (s.memCe w).ports = s.ports := by unfold State.memCe; split <;> simp
@[simp] theorem State.memCe_bond (w : Nat) : (s.memCe w).bond = s.bond := by unfold State.memCe; split <;> simp
@[simp] theorem State.memCe_frts (w : Nat) : (s.memCe w).frts = s.frts := by unfold State.memCe; split <;> simp
@[simp] theorem State.memCe_optics (w : Nat) : (s.memCe w).optics = s.optics := by unfold State.memCe; split <;> simp
@[simp] theorem State.memCe_cipher (w : Nat) : (s.memCe w).cipher = s.cipher := by unfold State.memCe; split <;> simp
@[simp] theorem State.memCe_acceptMode (w : Nat) : (s.memCe w).acceptMode = s.acceptMode := by unfold State.memCe; split <;> simp
@[simp] theorem State.memCe_acceptList (w : Nat) : (s.memCe w).acceptList = s.acceptList := by unfold State.memCe; split <;> simp
@[simp] theorem State.memCe_overrides (w : Nat) : (s.memCe w).overrides = s.overrides := by unfold State.memCe; split <;> simp
@[simp] theorem State.memCe_flash (w : Nat) : (s.memCe w).flash = s.flash := by unfold State.memCe; split <;> simp
@[simp] theorem State.memCe_patchSlot (w : Nat) : (s.memCe w).patchSlot = s.patchSlot := by unfold State.memCe; split <;> simp
@[simp] theorem State.memCe_patches (w : Nat) : (s.memCe w).patches = s.patches := by unfold State.memCe; split <;> simp
@[simp] theorem State.memCe_byk (w : Nat) : (s.memCe w).byk = s.byk := by unfold State.memCe; split <;> simp
@[simp] theorem State.memCe_warm (w : Nat) : (s.memCe w).warm = s.warm := by unfold State.memCe; split <;> simp
@[simp] theorem State.memCe_starter (w : Nat) : (s.memCe w).starter = s.starter := by unfold State.memCe; split <;> simp
@[simp] theorem State.memCe_pwr (w : Nat) : (s.memCe w).pwr = s.pwr := by unfold State.memCe; split <;> simp
@[simp] theorem State.memCe_pst (w : Nat) : (s.memCe w).pst = s.pst := by unfold State.memCe; split <;> simp
@[simp] theorem State.memCe_boot (w : Nat) : (s.memCe w).boot = s.boot := by unfold State.memCe; split <;> simp

/-! ## State.memUe -/

@[simp] theorem State.memUe_pending (w : Nat) : (s.memUe w).pending = s.pending := by unfold State.memUe; split <;> simp
@[simp] theorem State.memUe_shadow (w : Nat) : (s.memUe w).shadow = s.shadow := by unfold State.memUe; split <;> simp
@[simp] theorem State.memUe_heldLow (w : Nat) : (s.memUe w).heldLow = s.heldLow := by unfold State.memUe; split <;> simp
@[simp] theorem State.memUe_latched (w : Nat) : (s.memUe w).latched = s.latched := by unfold State.memUe; split <;> simp
@[simp] theorem State.memUe_lastRead (w : Nat) : (s.memUe w).lastRead = s.lastRead := by unfold State.memUe; split <;> simp
@[simp] theorem State.memUe_mem (w : Nat) : (s.memUe w).mem = s.mem := by unfold State.memUe; split <;> simp
@[simp] theorem State.memUe_pool (w : Nat) : (s.memUe w).pool = s.pool := by unfold State.memUe; split <;> simp
@[simp] theorem State.memUe_host (w : Nat) : (s.memUe w).host = s.host := by unfold State.memUe; split <;> simp
@[simp] theorem State.memUe_lanes (w : Nat) : (s.memUe w).lanes = s.lanes := by unfold State.memUe; split <;> simp
@[simp] theorem State.memUe_xfers (w : Nat) : (s.memUe w).xfers = s.xfers := by unfold State.memUe; split <;> simp
@[simp] theorem State.memUe_xferNext (w : Nat) : (s.memUe w).xferNext = s.xferNext := by unfold State.memUe; split <;> simp
@[simp] theorem State.memUe_cmdTokens (w : Nat) : (s.memUe w).cmdTokens = s.cmdTokens := by unfold State.memUe; split <;> simp
@[simp] theorem State.memUe_progs (w : Nat) : (s.memUe w).progs = s.progs := by unfold State.memUe; split <;> simp
@[simp] theorem State.memUe_progGens (w : Nat) : (s.memUe w).progGens = s.progGens := by unfold State.memUe; split <;> simp
@[simp] theorem State.memUe_heats (w : Nat) : (s.memUe w).heats = s.heats := by unfold State.memUe; split <;> simp
@[simp] theorem State.memUe_heatNext (w : Nat) : (s.memUe w).heatNext = s.heatNext := by unfold State.memUe; split <;> simp
@[simp] theorem State.memUe_pacer (w : Nat) : (s.memUe w).pacer = s.pacer := by unfold State.memUe; split <;> simp
@[simp] theorem State.memUe_out (w : Nat) : (s.memUe w).out = s.out := by unfold State.memUe; split <;> simp
@[simp] theorem State.memUe_free (w : Nat) : (s.memUe w).free = s.free := by unfold State.memUe; split <;> simp
@[simp] theorem State.memUe_tk (w : Nat) : (s.memUe w).tk = s.tk := by unfold State.memUe; split <;> simp
@[simp] theorem State.memUe_radio (w : Nat) : (s.memUe w).radio = s.radio := by unfold State.memUe; split <;> simp
@[simp] theorem State.memUe_coding (w : Nat) : (s.memUe w).coding = s.coding := by unfold State.memUe; split <;> simp
@[simp] theorem State.memUe_ports (w : Nat) : (s.memUe w).ports = s.ports := by unfold State.memUe; split <;> simp
@[simp] theorem State.memUe_bond (w : Nat) : (s.memUe w).bond = s.bond := by unfold State.memUe; split <;> simp
@[simp] theorem State.memUe_frts (w : Nat) : (s.memUe w).frts = s.frts := by unfold State.memUe; split <;> simp
@[simp] theorem State.memUe_optics (w : Nat) : (s.memUe w).optics = s.optics := by unfold State.memUe; split <;> simp
@[simp] theorem State.memUe_cipher (w : Nat) : (s.memUe w).cipher = s.cipher := by unfold State.memUe; split <;> simp
@[simp] theorem State.memUe_acceptMode (w : Nat) : (s.memUe w).acceptMode = s.acceptMode := by unfold State.memUe; split <;> simp
@[simp] theorem State.memUe_acceptList (w : Nat) : (s.memUe w).acceptList = s.acceptList := by unfold State.memUe; split <;> simp
@[simp] theorem State.memUe_overrides (w : Nat) : (s.memUe w).overrides = s.overrides := by unfold State.memUe; split <;> simp
@[simp] theorem State.memUe_flash (w : Nat) : (s.memUe w).flash = s.flash := by unfold State.memUe; split <;> simp
@[simp] theorem State.memUe_patchSlot (w : Nat) : (s.memUe w).patchSlot = s.patchSlot := by unfold State.memUe; split <;> simp
@[simp] theorem State.memUe_patches (w : Nat) : (s.memUe w).patches = s.patches := by unfold State.memUe; split <;> simp
@[simp] theorem State.memUe_byk (w : Nat) : (s.memUe w).byk = s.byk := by unfold State.memUe; split <;> simp
@[simp] theorem State.memUe_warm (w : Nat) : (s.memUe w).warm = s.warm := by unfold State.memUe; split <;> simp
@[simp] theorem State.memUe_starter (w : Nat) : (s.memUe w).starter = s.starter := by unfold State.memUe; split <;> simp
@[simp] theorem State.memUe_pwr (w : Nat) : (s.memUe w).pwr = s.pwr := by unfold State.memUe; split <;> simp
@[simp] theorem State.memUe_pst (w : Nat) : (s.memUe w).pst = s.pst := by unfold State.memUe; split <;> simp
@[simp] theorem State.memUe_boot (w : Nat) : (s.memUe w).boot = s.boot := by unfold State.memUe; split <;> simp

/-! ## Register reads -/

/-- A field reads what was written to it, cut to its width. -/
@[simp] theorem State.rg_setRg (f : Fld) (v i u : Nat) : (s.setRg f v i u).rg f i u = v % 2 ^ f.width := by
  simp [State.rg, State.setRg]

/-- A field with another key reads as before. -/
theorem State.rg_setRg_ne (f g : Fld) (v i u j w : Nat) (h : g.key j w ≠ f.key i u) :
    (s.setRg f v i u).rg g j w = s.rg g j w := by
  simp only [State.rg, State.setRg]; exact Store.get_put_ne _ _ _ _ _ _ h

/-- Registers that are the same list read the same. -/
theorem State.rg_congr {s t : State} (h : t.regs = s.regs) (f : Fld) (i u : Nat) : t.rg f i u = s.rg f i u := by
  simp [State.rg, h]

@[simp] theorem State.rg_pmAdd (pt k : Nat) (g : Fld) (j w : Nat) : (s.pmAdd pt k).rg g j w = s.rg g j w := State.rg_congr (by simp) g j w
@[simp] theorem State.rg_pmBump (f : Fld) (i k : Nat) (g : Fld) (j w : Nat) : (s.pmBump f i k).rg g j w = s.rg g j w := State.rg_congr (by simp) g j w
@[simp] theorem State.rg_spent (k : Nat) (g : Fld) (j w : Nat) : (s.spent k).rg g j w = s.rg g j w := State.rg_congr (by simp) g j w
@[simp] theorem State.rg_ev (e : Ev) (src : Nat) (args : List Nat) (g : Fld) (j w : Nat) : (s.ev e src args).rg g j w = s.rg g j w := State.rg_congr (by simp) g j w
@[simp] theorem State.rg_emit (o : Output) (g : Fld) (j w : Nat) : (s.emit o).rg g j w = s.rg g j w := State.rg_congr (by simp) g j w
@[simp] theorem State.rg_post (fn : Nat) (o : Output) (g : Fld) (j w : Nat) : (s.post fn o).rg g j w = s.rg g j w := State.rg_congr (by simp) g j w
@[simp] theorem State.rg_modRing (n : Nat) (f : Ring → Ring) (g : Fld) (j w : Nat) : (s.modRing n f).rg g j w = s.rg g j w := State.rg_congr (by simp) g j w
@[simp] theorem State.rg_modCmd (r c : Nat) (f : Cmd → Cmd) (g : Fld) (j w : Nat) : (s.modCmd r c f).rg g j w = s.rg g j w := State.rg_congr (by simp) g j w
@[simp] theorem State.rg_write (a : Nat) (bs : List Byte) (g : Fld) (j w : Nat) : (s.write a bs).rg g j w = s.rg g j w := State.rg_congr (by simp) g j w
@[simp] theorem State.rg_upset (ws : List Nat) (g : Fld) (j w : Nat) : (s.upset ws).rg g j w = s.rg g j w := State.rg_congr (by simp) g j w

/-- A wrapping counter reads one step on. -/
@[simp] theorem State.rg_incRg (f : Fld) (i u k : Nat) : (s.incRg f i u k).rg f i u = (s.rg f i u + k) % 2 ^ f.width := by
  simp [State.incRg]

/-- A saturating counter reads one step on, or its largest value. -/
@[simp] theorem State.rg_satRg (f : Fld) (i u k : Nat) :
    (s.satRg f i u k).rg f i u = min (s.rg f i u + k) (2 ^ f.width - 1) := by
  have h : 0 < 2 ^ f.width := Nat.two_pow_pos _
  simp only [State.satRg, State.rg_pmBump, State.rg_setRg]
  exact Nat.mod_eq_of_lt (by omega)

theorem State.rg_incRg_ne (f g : Fld) (i u k j w : Nat) (h : g.key j w ≠ f.key i u) :
    (s.incRg f i u k).rg g j w = s.rg g j w := by
  simp only [State.incRg, State.rg_pmBump]; exact State.rg_setRg_ne _ _ _ _ _ _ _ _ h

theorem State.rg_satRg_ne (f g : Fld) (i u k j w : Nat) (h : g.key j w ≠ f.key i u) :
    (s.satRg f i u k).rg g j w = s.rg g j w := by
  simp only [State.satRg, State.rg_pmBump]; exact State.rg_setRg_ne _ _ _ _ _ _ _ _ h

theorem State.rg_putRgBit_ne (f g : Fld) (b : Nat) (v : Bool) (i u j w : Nat) (h : g.key j w ≠ f.key i u) :
    (s.putRgBit f b v i u).rg g j w = s.rg g j w := State.rg_setRg_ne _ _ _ _ _ _ _ _ h

end Sys2Proof.Machine
end

