-- ==== Sys2Proof/Laws/Memory.lean ====
section
/-! SUPPORT. Memory: a read after a write, and that every operation on memory keeps its canonical form. -/

namespace Sys2Proof.Machine

/-! ## Cells -/

theorem putCells_wf (c : List Host.Cell) (a : Nat) (bs : List Byte) (h : Store.wf (0 : Byte) c = true) :
    Store.wf (0 : Byte) (putCells c a bs) = true := by
  induction bs generalizing c a with
  | nil => exact h
  | cons b bs ih => exact ih _ _ (Store.wf_put 0 c a b h)

/-- The cell at an address after bytes are put from another on: the byte put there, else the one before. -/
theorem get_putCells (c : List Host.Cell) (a x : Nat) (bs : List Byte) :
    Store.get (0 : Byte) (putCells c a bs) x = if a ≤ x ∧ x < a + bs.length then bs.getD (x - a) 0 else Store.get 0 c x := by
  induction bs generalizing c a with
  | nil => rw [if_neg (by simp only [List.length_nil]; omega)]; rfl
  | cons b bs ih =>
    rw [putCells, ih]
    simp only [List.length_cons]
    by_cases h : x = a
    · subst h
      rw [if_neg (by omega), if_pos (by omega), Store.get_put_self]
      simp
    · rw [Store.get_put_ne _ _ _ _ _ _ h]
      by_cases h' : a + 1 ≤ x ∧ x < a + 1 + bs.length
      · rw [if_pos h', if_pos (by omega), show x - a = (x - (a + 1)) + 1 from by omega, List.getD_cons_succ]
      · rw [if_neg h', if_neg (by omega)]

/-! ## Reads after writes -/

/-- A byte after a write: the byte written there, else the byte before. -/
theorem State.byte_write (s : State) (a x : Nat) (bs : List Byte) :
    (s.write a bs).byte x = if a ≤ x ∧ x < a + bs.length then bs.getD (x - a) 0 else s.byte x :=
  get_putCells _ _ _ _

/-- A write leaves every byte outside it alone. -/
theorem State.byte_write_out (s : State) (a x : Nat) (bs : List Byte) (h : x < a ∨ a + bs.length ≤ x) :
    (s.write a bs).byte x = s.byte x := by
  rw [State.byte_write, if_neg (by omega)]

/-- Bytes read the same wherever each of them does. -/
theorem State.bytes_congr (s t : State) (a n : Nat) (h : ∀ x, a ≤ x → x < a + n → t.byte x = s.byte x) : t.bytes a n = s.bytes a n := by
  induction n generalizing a with
  | zero => rfl
  | succ n ih =>
    rw [State.bytes, State.bytes, h a (by omega) (by omega), ih (a + 1) (fun x h1 h2 => h x (by omega) (by omega))]

/-- What was written is read back. -/
theorem State.bytes_write (s : State) (a : Nat) (bs : List Byte) : (s.write a bs).bytes a bs.length = bs := by
  suffices h : ∀ (cs : List Byte) (k : Nat), (∀ i, i < cs.length → (s.write a bs).byte (k + i) = cs.getD i 0) →
      (s.write a bs).bytes k cs.length = cs by
    apply h
    intro i hi
    rw [State.byte_write, if_pos (by omega), Nat.add_sub_cancel_left]
  intro cs
  induction cs with
  | nil => intro k _; rfl
  | cons b cs ih =>
    intro k hk
    rw [List.length_cons, State.bytes, ih (k + 1) ?_]
    · have := hk 0 (by simp)
      simp only [Nat.add_zero, List.getD_cons_zero] at this
      rw [this]
    · intro i hi
      have := hk (i + 1) (by simp only [List.length_cons]; omega)
      rw [List.getD_cons_succ] at this
      rw [← this]
      congr 1
      omega

/-! ## The operations and the cells -/

@[simp] theorem State.memUe_cells (s : State) (w : Nat) : (s.memUe w).mem.cells = s.mem.cells := by simp
@[simp] theorem State.memCe_cells (s : State) (w : Nat) : (s.memCe w).mem.cells = s.mem.cells := by unfold State.memCe; split <;> simp
@[simp] theorem State.upset_cells (s : State) (ws : List Nat) : (s.upset ws).mem.cells = s.mem.cells := rfl

theorem State.foldl_memCe_cells (ws : List Nat) (s : State) : (ws.foldl State.memCe s).mem.cells = s.mem.cells := by
  induction ws generalizing s with
  | nil => rfl
  | cons w ws ih => rw [List.foldl_cons, ih, State.memCe_cells]

theorem State.foldl_memUe_cells (ws : List Nat) (s : State) : (ws.foldl State.memUe s).mem.cells = s.mem.cells := by
  induction ws generalizing s with
  | nil => rfl
  | cons w ws ih => rw [List.foldl_cons, ih, State.memUe_cells]

/-- A read changes no cell. -/
@[simp] theorem State.readMem_cells (s : State) (a n : Nat) : (s.readMem a n).2.mem.cells = s.mem.cells := by
  unfold State.readMem
  dsimp only
  split
  · exact State.foldl_memCe_cells _ _
  · rw [State.foldl_memUe_cells, State.foldl_memCe_cells]

/-- What a read answers: the bytes where no word in its range is uncorrectable, else nothing. -/
theorem State.readMem_fst (s : State) (a n : Nat) :
    (s.readMem a n).1 = if s.hasBad a n then none else some (s.bytes a n) := by
  have hb : ∀ (ws : List Nat) (t : State), (ws.foldl State.memCe t).mem.bad = t.mem.bad := by
    intro ws
    induction ws with
    | nil => intro t; rfl
    | cons w ws ih => intro t; rw [List.foldl_cons, ih]; unfold State.memCe; split <;> simp
  have hB : ∀ (t : State), t.mem.cells = s.mem.cells → t.bytes a n = s.bytes a n :=
    fun t h => State.bytes_congr s t a n (fun x _ _ => by simp only [State.byte, Mem.byte, h])
  unfold State.readMem State.hasBad
  dsimp only
  rw [hb, hB _ (State.foldl_memCe_cells _ _)]
  cases h : s.mem.bad.any (touchesWord a n) with
  | true =>
    have : (s.mem.bad.filter (touchesWord a n)).isEmpty = false := by
      obtain ⟨w, hw, h1⟩ := List.any_eq_true.mp h
      cases h' : s.mem.bad.filter (touchesWord a n) with
      | nil => exact absurd (List.mem_filter.mpr ⟨hw, h1⟩) (by rw [h']; simp)
      | cons _ _ => rfl
    rw [this]; rfl
  | false =>
    have : (s.mem.bad.filter (touchesWord a n)).isEmpty = true := by
      rw [List.isEmpty_iff, List.filter_eq_nil_iff]
      intro w hw h1
      have := List.any_eq_false.mp h w hw
      exact this h1
    rw [this]; rfl

/-! ## The canonical form -/

/-- Reset lists nothing. -/
theorem State.reset_wf : State.reset.mem.wf = true := rfl

theorem State.write_wf (s : State) (a : Nat) (bs : List Byte) (h : s.mem.wf = true) : (s.write a bs).mem.wf = true :=
  putCells_wf _ _ _ h

theorem State.memUe_wf (s : State) (w : Nat) (h : s.mem.wf = true) : (s.memUe w).mem.wf = true := by
  unfold Mem.wf; rw [State.memUe_cells]; exact h

theorem State.memCe_wf (s : State) (w : Nat) (h : s.mem.wf = true) : (s.memCe w).mem.wf = true := by
  unfold Mem.wf; rw [State.memCe_cells]; exact h

theorem State.upset_wf (s : State) (ws : List Nat) (h : s.mem.wf = true) : (s.upset ws).mem.wf = true := h

theorem State.readMem_wf (s : State) (a n : Nat) (h : s.mem.wf = true) : (s.readMem a n).2.mem.wf = true := by
  unfold Mem.wf; rw [State.readMem_cells]; exact h

theorem Mem.keepFrom_wf (m : Mem) (lo : Nat) (h : m.wf = true) : (m.keepFrom lo).wf = true :=
  Store.wfFrom_filter 0 _ _ 0 h

theorem State.foldl_wf {α : Type} (f : State → α → State) (hf : ∀ s x, s.mem.wf = true → (f s x).mem.wf = true) (l : List α) (s : State)
    (h : s.mem.wf = true) : (l.foldl f s).mem.wf = true := by
  induction l generalizing s with
  | nil => exact h
  | cons x l ih => exact ih _ (hf _ _ h)

/-- Bytes delivered: written to memory that exists, else sent through the user's window. -/
theorem State.deliver_cases (s : State) (u a : Nat) (bs : List Byte) :
    (s.inMem a bs.length = true ∧ s.deliver u a bs = s.write a bs) ∨
    (s.inMem a bs.length = false ∧ (s.deliver u a bs).mem = s.mem) := by
  unfold State.deliver
  cases s.inMem a bs.length with
  | true => exact .inl ⟨rfl, rfl⟩
  | false =>
    refine .inr ⟨rfl, ?_⟩
    rw [if_neg (by simp)]
    cases s.windowBus u a bs.length with
    | some bus => exact State.post_mem ..
    | none =>
      suffices h : ∀ (l : List Nat) (t : State), (l.foldl (fun s i =>
          match s.windowBus u (a + i) 1 with
          | some bus => s.post u (.hostWrite u bus (slice bs i 1))
          | none => s) t).mem = t.mem from h _ s
      intro l
      induction l with
      | nil => intro t; rfl
      | cons i l ih =>
        intro t
        rw [List.foldl_cons, ih]
        cases t.windowBus u (a + i) 1 with
        | some bus => exact State.post_mem ..
        | none => rfl

theorem State.deliver_wf (s : State) (u a : Nat) (bs : List Byte) (h : s.mem.wf = true) : (s.deliver u a bs).mem.wf = true := by
  rcases State.deliver_cases s u a bs with h' | h'
  · rw [h'.2]; exact State.write_wf _ _ _ h
  · rw [h'.2]; exact h

theorem State.bar4_wf (s : State) (off : Nat) (wr : Option (List Byte)) (len : Nat) (up : List Nat) (h : s.mem.wf = true) :
    (s.bar4 off wr len up).mem.wf = true := by
  unfold State.bar4
  dsimp only
  split
  · split
    · exact State.write_wf _ _ _ (State.upset_wf s up h)
    · exact State.upset_wf s up h
  · split
    · exact State.readMem_wf _ _ _ (State.upset_wf s up h)
    · exact State.upset_wf s up h

end Sys2Proof.Machine
end

