-- ==== Sys2Proof/Laws/Ops.lean ====
section
/-! SUPPORT. The shared operations: what each can do, said once. `Sends s t` says that from `s` to `t` nothing changed but register
fields, the host interface, the PM accumulators, the log and what was sent out; every operation that logs, counts, raises a vector or
posts an entry is of that kind. -/

namespace Sys2Proof.Machine

/-- Nothing changed but registers, the host interface, PM accumulators, the log and the outputs. -/
def Sends (s t : State) : Prop := t = { s with regs := t.regs, host := t.host, pm := t.pm, log := t.log, out := t.out }

theorem Sends.refl (s : State) : Sends s s := rfl

theorem Sends.trans {s t u : State} (h : Sends s t) (h' : Sends t u) : Sends s u := by
  unfold Sends at *
  rw [h', h]

theorem Sends.ite {s t u : State} {p : Prop} [Decidable p] (h : Sends s t) (h' : Sends s u) : Sends s (if p then t else u) := by
  split
  · exact h
  · exact h'

/-! ## What such an operation keeps -/

theorem Sends.mem {s t : State} (h : Sends s t) : t.mem = s.mem := by rw [h]
theorem Sends.shadow {s t : State} (h : Sends s t) : t.shadow = s.shadow := by rw [h]
theorem Sends.pending {s t : State} (h : Sends s t) : t.pending = s.pending := by rw [h]
theorem Sends.pool {s t : State} (h : Sends s t) : t.pool = s.pool := by rw [h]
theorem Sends.heats {s t : State} (h : Sends s t) : t.heats = s.heats := by rw [h]
theorem Sends.lanes {s t : State} (h : Sends s t) : t.lanes = s.lanes := by rw [h]
theorem Sends.progs {s t : State} (h : Sends s t) : t.progs = s.progs := by rw [h]
theorem Sends.xfers {s t : State} (h : Sends s t) : t.xfers = s.xfers := by rw [h]
theorem Sends.ports {s t : State} (h : Sends s t) : t.ports = s.ports := by rw [h]
theorem Sends.tk {s t : State} (h : Sends s t) : t.tk = s.tk := by rw [h]
theorem Sends.byk {s t : State} (h : Sends s t) : t.byk = s.byk := by rw [h]
theorem Sends.boot {s t : State} (h : Sends s t) : t.boot = s.boot := by rw [h]
theorem Sends.pwr {s t : State} (h : Sends s t) : t.pwr = s.pwr := by rw [h]
theorem Sends.pst {s t : State} (h : Sends s t) : t.pst = s.pst := by rw [h]

/-! ## The operations -/

theorem sends_setRg (s : State) (f : Fld) (v i u : Nat) : Sends s (s.setRg f v i u) := rfl
theorem sends_putRgBit (s : State) (f : Fld) (b : Nat) (v : Bool) (i u : Nat) : Sends s (s.putRgBit f b v i u) := rfl
theorem sends_pmAdd (s : State) (pt k : Nat) : Sends s (s.pmAdd pt k) := rfl

theorem sends_pmBump (s : State) (f : Fld) (i k : Nat) : Sends s (s.pmBump f i k) := by
  unfold State.pmBump
  split
  · rfl
  · exact Sends.refl s

theorem sends_incRg (s : State) (f : Fld) (i u k : Nat) : Sends s (s.incRg f i u k) := (sends_setRg s _ _ _ _).trans (sends_pmBump _ _ _ _)
theorem sends_satRg (s : State) (f : Fld) (i u k : Nat) : Sends s (s.satRg f i u k) := (sends_setRg s _ _ _ _).trans (sends_pmBump _ _ _ _)

theorem sends_ev (s : State) (e : Ev) (src : Nat) (args : List Nat) : Sends s (s.ev e src args) := by
  unfold State.ev
  split <;> rfl

theorem sends_emit (s : State) (o : Output) : Sends s (s.emit o) := rfl

theorem sends_post (s : State) (fn : Nat) (o : Output) : Sends s (s.post fn o) := by
  unfold State.post
  split <;> rfl

theorem sends_vector (s : State) (fn v : Nat) : Sends s (s.vector fn v) := by
  unfold State.vector
  dsimp only
  split
  · exact Sends.refl s
  · split
    · rfl
    · exact (sends_post s _ _).trans (sends_incRg _ _ _ _ _)

theorem sends_cause (s : State) (f : Fld) (v : Nat) : Sends s (s.cause f v) := (sends_setRg s _ _ _ _).trans (sends_vector _ _ _)
theorem sends_modRing (s : State) (n : Nat) (f : Ring → Ring) : Sends s (s.modRing n f) := rfl
theorem sends_modCmd (s : State) (r c : Nat) (f : Cmd → Cmd) : Sends s (s.modCmd r c f) := rfl

theorem sends_signalRing (s : State) (n : Nat) : Sends s (s.signalRing n) := by
  unfold State.signalRing
  refine Sends.trans ?_ (sends_vector _ _ _)
  split <;> rfl

theorem sends_maybeSignal (s : State) (n : Nat) : Sends s (s.maybeSignal n) := by
  unfold State.maybeSignal
  dsimp only
  split
  · exact sends_signalRing s n
  · exact Sends.refl s

theorem sends_writeEntry (s : State) (n : Nat) (e : CqEntry) : Sends s (s.writeEntry n e) := by
  unfold State.writeEntry
  refine Sends.trans ?_ (sends_maybeSignal _ _)
  have h (f : Ring → Ring) (o : Nat) (x : Output) (v : Bool) (g : Fld) : Sends s (((s.post o x).modRing n f).putRgBit g n v 0 o) :=
    ((sends_post s _ _).trans (sends_modRing _ _ _)).trans (sends_putRgBit _ _ _ _ _ _)
  exact Sends.ite ((h _ _ _ _ _).trans (sends_ev _ _ _ _)) (h _ _ _ _ _)

/-- An entry of a ring: dropped where the ring is ABSENT, held behind others or a full ring, else written. -/
theorem postEntry_cases (s : State) (n : Nat) (e : CqEntry) :
    ((s.ring n).st = .absent ∧ s.postEntry n e = s) ∨
    ((s.ring n).st ≠ .absent ∧ ((s.ring n).full = true ∨ (s.ring n).waiting ≠ []) ∧
      s.postEntry n e = s.modRing n (fun r => { r with waiting := r.waiting ++ [e] })) ∨
    ((s.ring n).st ≠ .absent ∧ (s.ring n).full = false ∧ (s.ring n).waiting = [] ∧ s.postEntry n e = s.writeEntry n e) := by
  unfold State.postEntry
  dsimp only
  by_cases h : (s.ring n).st = .absent
  · exact .inl ⟨h, if_pos h⟩
  · rw [if_neg h]
    cases hf : (s.ring n).full <;> cases hw : (s.ring n).waiting <;> simp [h]

theorem sends_postEntry (s : State) (n : Nat) (e : CqEntry) : Sends s (s.postEntry n e) := by
  rcases postEntry_cases s n e with h | h | h
  · rw [h.2]; exact Sends.refl s
  · rw [h.2.2]; exact sends_modRing s _ _
  · rw [h.2.2.2]; exact sends_writeEntry s _ _

theorem sends_hqUp (s : State) : Sends s s.hqUp := by
  unfold State.hqUp
  split <;> rfl

theorem sends_releaseRing (s : State) (n : Nat) : Sends s (s.releaseRing n) := by
  have h (o : Nat) : Sends s ((s.modRing n (fun _ => {})).putRgBit R.INT_RING_PEND_PEND n false 0 o) := rfl
  exact Sends.ite (Sends.ite (((h _).trans (sends_setRg _ _ _ _ _)).trans (sends_hqUp _)) ((h _).trans (sends_setRg _ _ _ _ _))) (h _)

/-- The completion of a command: nothing where it is not in flight, else its entry is posted; a command whose entry is held stays in flight,
done. -/
theorem sends_completeOne (s : State) (ring cid status result ts : Nat) : Sends s (s.completeOne ring cid status result ts) := by
  unfold State.completeOne
  split
  · exact Sends.refl s
  · refine Sends.trans ?_ (sends_postEntry _ _ _)
    split <;> rfl

theorem sends_foldl {α : Type} (f : State → α → State) (hf : ∀ s x, Sends s (f s x)) (l : List α) (s : State) : Sends s (l.foldl f s) := by
  induction l generalizing s with
  | nil => exact Sends.refl s
  | cons x l ih => exact (hf s x).trans (ih _)

theorem sends_drainCheck (s : State) (n : Nat) : Sends s (s.drainCheck n) := by
  unfold State.drainCheck
  split
  · refine (sends_releaseRing s n).trans (sends_foldl _ (fun t d => ?_) _ _)
    exact Sends.ite ((sends_completeOne t _ _ _ _ _).trans (sends_releaseRing _ _)) (sends_completeOne t _ _ _ _ _)
  · exact Sends.refl s

theorem sends_complete (s : State) (ring cid status result : Nat) : Sends s (s.complete ring cid status result) :=
  (sends_completeOne s _ _ _ _ _).trans (sends_drainCheck _ _)

theorem sends_completeAt (s : State) (ring cid status result ts : Nat) : Sends s (s.completeAt ring cid status result ts) :=
  (sends_completeOne s _ _ _ _ _).trans (sends_drainCheck _ _)

theorem sends_fin (s : State) (c : Cmd) (status result : Nat) : Sends s (s.fin c status result) := sends_complete s _ _ _ _

theorem sends_faultRing (s : State) (n cause status : Nat) : Sends s (s.faultRing n cause status) := by
  unfold State.faultRing
  dsimp only
  split
  · have h := ((sends_modRing s n (fun r => { r with st := .faulted })).trans
      (sends_postEntry _ n ⟨entryBody cause s.tk.ns 0 status, 2, n, (s.ring n).sqHead⟩)).trans (sends_ev _ .RING_FAULT n [])
    split
    · exact ((h.trans (sends_setRg _ _ _ _ _)).trans (sends_setRg _ _ _ _ _)).trans (sends_setRg _ _ _ _ _)
    · exact h
  · exact Sends.refl s

/-! ## Starting and checking a command -/

/-- What a command row does to the command it names: nothing where that command is not in flight with that OPCODE, not startable, or where
no Heat is admitted; a wake stimulus in Rest; else its effect, the command started. -/
theorem start_cases (s : State) (ring cid opcode : Nat) (f : Cmd → State → State) :
    s.start ring cid opcode f = s ∨ s.start ring cid opcode f = s.stimulus 4 ∨
    ∃ c, s.cmd? ring cid = some c ∧ c.opcode = opcode ∧ c.started = false ∧ s.mayStart c = true ∧ s.boot.stop = none ∧ s.warm = false ∧
      s.start ring cid opcode f = f c (s.modCmd ring cid (fun c => { c with started := true })) := by
  unfold State.start
  split
  · exact .inl rfl
  · rename_i c hc
    split
    · rename_i h
      simp only [Bool.and_eq_true, decide_eq_true_eq, Bool.not_eq_true', Option.isNone_iff_eq_none] at h
      obtain ⟨⟨⟨⟨h1, h2⟩, h3⟩, h4⟩, h5⟩ := h
      split
      · exact .inr (.inl rfl)
      · split
        · exact .inl rfl
        · exact .inr (.inr ⟨c, hc, h1, h2, h3, h4, h5, rfl⟩)
    · exact .inl rfl

/-- A check goes on where it holds, and completes BAD_FIELD where it does not. -/
theorem check_cases (s : State) (c : Cmd) (ok : Bool) (k : State → State) :
    (ok = true ∧ s.check c ok k = k s) ∨ (ok = false ∧ s.check c ok k = s.fin c Sc.badField) := by
  cases ok
  · exact .inr ⟨rfl, rfl⟩
  · exact .inl ⟨rfl, rfl⟩

end Sys2Proof.Machine
end

