-- ==== Sys2Proof/Laws/Pool.lean ====
section
/-! SUPPORT. The Pool Manager's operations: what each answers, and that none of them changes more than the pool and what `Sends` allows. -/

namespace Sys2Proof.Machine

/-- Nothing changed but the pool, registers, the host interface, PM accumulators, the log and the outputs. -/
def Pools (s t : State) : Prop := t = { s with pool := t.pool, regs := t.regs, host := t.host, pm := t.pm, log := t.log, out := t.out }

theorem Pools.refl (s : State) : Pools s s := rfl

theorem Pools.trans {s t u : State} (h : Pools s t) (h' : Pools t u) : Pools s u := by
  unfold Pools at *
  rw [h', h]

theorem Sends.pools {s t : State} (h : Sends s t) : Pools s t := by
  unfold Sends at h
  unfold Pools
  rw [h]

theorem Pools.ite {s t u : State} {p : Prop} [Decidable p] (h : Pools s t) (h' : Pools s u) : Pools s (if p then t else u) := by
  split
  · exact h
  · exact h'

theorem Pools.mem {s t : State} (h : Pools s t) : t.mem = s.mem := by rw [h]
theorem Pools.shadow {s t : State} (h : Pools s t) : t.shadow = s.shadow := by rw [h]
theorem Pools.pending {s t : State} (h : Pools s t) : t.pending = s.pending := by rw [h]
theorem Pools.heats {s t : State} (h : Pools s t) : t.heats = s.heats := by rw [h]
theorem Pools.lanes {s t : State} (h : Pools s t) : t.lanes = s.lanes := by rw [h]
theorem Pools.tk {s t : State} (h : Pools s t) : t.tk = s.tk := by rw [h]
theorem Pools.ports {s t : State} (h : Pools s t) : t.ports = s.ports := by rw [h]

theorem pools_modClass (s : State) (c : Nat) (f : PoolClass → PoolClass) : Pools s (s.modClass c f) := rfl
theorem pools_setBuf (s : State) (i : Nat) (b : Buf) : Pools s (s.setBuf i b) := rfl
theorem pools_setGen (s : State) (i g : Nat) : Pools s (s.setGen i g) := rfl

theorem pools_lowTest (s : State) (c : Nat) : Pools s (s.lowTest c) := by
  unfold State.lowTest
  exact Pools.ite (Pools.ite (Pools.ite ((pools_modClass s _ _).trans ((sends_ev _ _ _ _).trans (sends_cause _ _ _)).pools) (Pools.refl s))
    (pools_modClass s _ _)) (Pools.refl s)

theorem pools_setUse (s : State) (c n : Nat) : Pools s (s.setUse c n) :=
  (Sends.ite ((sends_setRg s _ _ _ _).trans (sends_setRg _ _ _ _ _)) (sends_setRg s _ _ _ _)).pools

theorem pools_misuse (s : State) (c req h : Nat) (f : Fld) (e : Ev) : Pools s (s.misuse c req h f e) :=
  ((sends_incRg s _ _ _ _).trans (sends_ev _ _ _ _)).pools.trans (pools_lowTest _ _)

theorem pools_leave (s : State) (c i : Nat) : Pools s (s.leave c i) := by
  unfold State.leave
  exact (pools_setGen s _ _).trans (Pools.ite ((pools_setBuf _ _ _).trans (sends_ev _ _ _ _).pools)
    (((pools_setBuf _ _ _).trans (pools_modClass _ _ _)).trans (pools_setUse _ _ _)))

/-- What ALLOC can answer: a field refused, the quota or the class used up, or the first free buffer, now in use by the requester. -/
theorem alloc_cases (s : State) (req c : Nat) :
    ((s.alloc req c).status = Sc.badField ∧ (s.alloc req c).st = s.lowTest c) ∨
    ((s.alloc req c).status = Sc.poolQuota ∧ (s.alloc req c).st = (s.incRg R.POOL_FAIL_QUOTA c).lowTest c) ∨
    ((s.alloc req c).status = Sc.poolEmpty ∧ (s.pclass c).free = [] ∧ (s.alloc req c).st = (s.incRg R.POOL_FAIL_EMPTY c).lowTest c) ∨
    ∃ i rest b, (s.pclass c).free = i :: rest ∧ b.owner = req ∧ b.group = groupOf req ∧ (s.alloc req c).status = Sc.ok ∧
      (s.alloc req c).st = (((s.modClass c (fun k => { k with free := rest })).setBuf i b).setUse c
        (((s.modClass c (fun k => { k with free := rest })).setBuf i b).rg R.POOL_USE_NOW c + 1)).lowTest c := by
  unfold State.alloc
  dsimp only
  split
  · exact .inl ⟨rfl, rfl⟩
  · split
    · exact .inr (.inl ⟨rfl, rfl⟩)
    · cases h : (s.pclass c).free with
      | nil => exact .inr (.inr (.inl ⟨rfl, rfl, rfl⟩))
      | cons i rest =>
        refine .inr (.inr (.inr ⟨i, rest, _, rfl, ?_, ?_, rfl, rfl⟩))
        · split <;> rfl
        · split <;> rfl

theorem pools_alloc (s : State) (req c : Nat) : Pools s (s.alloc req c).st := by
  rcases alloc_cases s req c with h | h | h | ⟨i, rest, b, _, _, _, _, h⟩
  · rw [h.2]; exact pools_lowTest s c
  · rw [h.2]; exact (sends_incRg s _ _ _ _).pools.trans (pools_lowTest _ _)
  · rw [h.2.2]; exact (sends_incRg s _ _ _ _).pools.trans (pools_lowTest _ _)
  · rw [h]
    exact (((pools_modClass s _ _).trans (pools_setBuf _ _ _)).trans (pools_setUse _ _ _)).trans (pools_lowTest _ _)

theorem pools_pfree (s : State) (req h : Nat) : Pools s (s.pfree req h).st := by
  unfold State.pfree
  split
  · exact Pools.refl s
  · split
    · exact pools_misuse s _ _ _ _ _
    · split
      · exact pools_misuse s _ _ _ _ _
      · split
        · exact pools_lowTest s _
        · exact (pools_leave s _ _).trans (pools_lowTest _ _)

theorem pools_pgive (s : State) (req h dst : Nat) : Pools s (s.pgive req h dst).st := by
  unfold State.pgive
  split
  · exact Pools.refl s
  · split
    · exact pools_misuse s _ _ _ _ _
    · split
      · exact pools_misuse s _ _ _ _ _
      · split
        · exact pools_lowTest s _
        · exact (pools_setBuf s _ _).trans (pools_lowTest _ _)

theorem pools_pref (s : State) (h : Nat) : Pools s (s.pref h).st := by
  unfold State.pref
  split
  · exact Pools.refl s
  · dsimp only
    split
    · exact pools_lowTest s _
    · exact (pools_setBuf s _ _).trans (pools_lowTest _ _)

theorem pools_punref (s : State) (req h : Nat) : Pools s (s.punref req h).st := by
  unfold State.punref
  split
  · exact Pools.refl s
  · dsimp only
    split
    · exact pools_misuse s _ _ _ _ _
    · split
      · exact pools_lowTest s _
      · split
        · exact (pools_leave s _ _).trans (pools_lowTest _ _)
        · exact (pools_setBuf s _ _).trans (pools_lowTest _ _)

end Sys2Proof.Machine
end

