-- ==== Sys2Proof/Laws/Time.lean ====
section
/-! SUPPORT. Time that passes: what it changes, and that shadowed values only ever leave the list of those that wait. -/

namespace Sys2Proof.Machine

/-- Nothing changed but the two counts, registers, PM accumulators, the residency and the values that wait, none of which is new. -/
def Passes (s t : State) : Prop :=
  t = { s with tk := t.tk, regs := t.regs, pm := t.pm, pst := t.pst, shadow := t.shadow } ∧ ∀ x ∈ t.shadow, x ∈ s.shadow

theorem Passes.refl (s : State) : Passes s s := ⟨rfl, fun _ h => h⟩

theorem Passes.trans {s t u : State} (h : Passes s t) (h' : Passes t u) : Passes s u := by
  refine ⟨?_, fun x hx => h.2 x (h'.2 x hx)⟩
  rw [h'.1, h.1]

theorem Passes.ite {s t u : State} {p : Prop} [Decidable p] (h : Passes s t) (h' : Passes s u) : Passes s (if p then t else u) := by
  split
  · exact h
  · exact h'

theorem Passes.mem {s t : State} (h : Passes s t) : t.mem = s.mem := by rw [h.1]
theorem Passes.pending {s t : State} (h : Passes s t) : t.pending = s.pending := by rw [h.1]
theorem Passes.heats {s t : State} (h : Passes s t) : t.heats = s.heats := by rw [h.1]
theorem Passes.pool {s t : State} (h : Passes s t) : t.pool = s.pool := by rw [h.1]
theorem Passes.host {s t : State} (h : Passes s t) : t.host = s.host := by rw [h.1]
theorem Passes.log {s t : State} (h : Passes s t) : t.log = s.log := by rw [h.1]
theorem Passes.out {s t : State} (h : Passes s t) : t.out = s.out := by rw [h.1]
theorem Passes.xfers {s t : State} (h : Passes s t) : t.xfers = s.xfers := by rw [h.1]

theorem passes_incRg (s : State) (f : Fld) (i u k : Nat) : Passes s (s.incRg f i u k) := by
  unfold State.incRg State.pmBump
  split <;> exact ⟨rfl, fun _ h => h⟩

/-- Values put into the register store one after another. -/
theorem passes_putAll (l : List Shadow) (s : State) :
    Passes s (l.foldl (fun s x => { s with regs := Store.put x.reset s.regs x.key x.val }) s) := by
  induction l generalizing s with
  | nil => exact Passes.refl s
  | cons x l ih => exact Passes.trans ⟨rfl, fun _ h => h⟩ (ih _)

theorem passes_drop (s : State) (p : Shadow → Bool) : Passes s { s with shadow := s.shadow.filter p } :=
  ⟨rfl, fun _ h => (List.mem_filter.mp h).1⟩

theorem passes_applyShadow (s : State) (c : Chg) : Passes s (s.applyShadow c) := (passes_drop s _).trans (passes_putAll _ _)
theorem passes_isoBoundary (s : State) (t0 : Nat) : Passes s (s.isoBoundary t0) := (passes_drop s _).trans (passes_putAll _ _)

theorem passes_reside (s : State) (d : Nat) : Passes s (s.reside d) := by
  unfold State.reside
  exact Passes.ite (Passes.trans ⟨rfl, fun _ h => h⟩ (passes_incRg _ _ _ _ _)) (Passes.refl s)

theorem passes_elapse (s : State) (d : Nat) : Passes s (s.elapse d) := by
  unfold State.elapse
  refine Passes.ite (Passes.refl s) ?_
  refine Passes.trans (t := State.isoBoundary _ s.tk.ns) ?_ (Passes.ite (passes_applyShadow _ _) (Passes.refl _))
  refine Passes.trans ?_ (passes_isoBoundary _ _)
  refine Passes.trans ?_ (Passes.ite (passes_applyShadow _ _) (Passes.refl _))
  refine Passes.trans ?_ (passes_reside _ _)
  refine Passes.trans ?_ (Passes.ite (passes_incRg _ _ _ _ _) (Passes.refl _))
  refine Passes.trans ?_ (Passes.ite (passes_incRg _ _ _ _ _) (Passes.refl _))
  exact ⟨rfl, fun _ h => h⟩

theorem passes_reach (s : State) (t : Nat) : Passes s (s.reach t) := passes_elapse s _
theorem passes_since (s : State) (t0 d : Nat) : Passes s (s.since t0 d) := passes_elapse s _

end Sys2Proof.Machine
end

