-- ==== Sys2Proof/Tests/Slice0.lean ====
section
/-! SUPPORT. Tests. The terms that the well-formedness checks refuse; the worked examples of the spec; and, for each statement of
Certificates/Slice0/Obligations.lean that has hypotheses, a theorem that shows states and operands which meet them together. -/

namespace Sys2Proof.Tests

set_option Elab.async false

open Sys2Proof Sys2Proof.Machine

/-! ## Small states -/

/-- A state with register fields set: field, instance, value. -/
def rgs (l : List (Fld × Nat × Nat)) (s : State := {}) : State := l.foldl (fun s x => s.setRg x.1 x.2.2 x.2.1) s

/-- A command in flight whose ARGS hold the given values: byte offset, lowest bit, value. -/
def cm (op : Nat) (fs : List (Nat × Nat × Nat) := []) (user : Nat := 0) (ring : Nat := 0) : Cmd :=
  { ring := ring, cid := 7, user := user, opcode := op, ord := false, sqHead := 1,
    args := leBytes 56 (fs.foldl (fun v f => v + f.2.2 <<< ((f.1 - 8) * 8 + f.2.1)) 0) }

/-- A state with commands in flight, ring 0 ACTIVE, the link up and every function a bus master with its vectors unmasked. -/
def fl (cs : List Cmd) (s : State := {}) : State :=
  let r0 : Ring := { st := .active, sqSize := 64, cqSize := 64, maxInflight := 63 }
  let f : PcieFn := { bme := true, msixEn := true, mask := 0 }
  { s with host := { s.host with cmds := cs, linkUp := true, fns := Vector.replicate 8 f, rings := vset s.host.rings 0 r0 } }

/-- A state with no byte in memory and nothing that waits for a boundary keeps the invariant. -/
theorem inv_of {s : State} (h : s.mem.cells = []) (h' : s.shadow = []) : Inv s :=
  ⟨by simp [Mem.wf, Store.wf, h, Store.wfFrom], by simp [h']⟩

/-- Class 0 of 4 KiB buffers 0 to 3 with one buffer in use. -/
def pool1 (b : Buf) (k : PoolClass := { conf := true, size := 12, count := 4, base := 0x8000000, quota := List.replicate 16 4, free := [1, 2, 3] }) :
    State :=
  { pool := { classes := vset (Vector.replicate 32 {}) 0 k, bufs := [(0, b)] } }

/-- A record of `n` bytes that holds the given values: byte offset, lowest bit, value. -/
def rb (n : Nat) (fs : List (Nat × Nat × Nat)) : List Byte := leBytes n (fs.foldl (fun v f => v + f.2.2 <<< (f.1 * 8 + f.2.1)) 0)

/-- A Heat whose descriptor holds the given values; its program has the handle 9. -/
def ht (fs : List (Nat × Nat × Nat)) (st : HeatSt := .running) (vl : List VLane := [{}]) (taps : List Tap := []) : Heat :=
  { user := 0, ring := 0, cid := 7, prog := 9, desc := rb 64 fs, binds := [], st := st, vl := vl, taps := taps }

/-- A state with a Heat in slot 0. -/
def h0 (h : Heat) (s : State := {}) : State := s.setHeat 0 h

/-- A state with carrier 0 changed. -/
def car (k : Carrier) (s : State := {}) : State := { s with radio := { s.radio with carriers := vset s.radio.carriers 0 k } }

/-- A carrier in mode A with two receive and two transmit antennas, an active slot table of one slot in which every symbol has the code `code`. -/
def k0 (code : Nat) (active : Bool := true) (modeB : Bool := false) : Carrier :=
  { conf := true, rec_ := rb 64 [(0, 0, 1), (0, 2, if modeB then 1 else 0), (1, 0, 3), (4, 0, 2), (4, 8, 2), (16, 0, 1)]
    active := active, tab := List.replicate 160 (code * 0x5555555) }

/-- A state with port 0 changed. -/
def pt (x : Port) (s : State := {}) : State := { s with ports := vset s.ports 0 x }

/-- A decoder changed in a state. -/
def dc (d : Nat) (x : Decoder) (s : State := {}) : State := { s with coding := { s.coding with dec := vset s.coding.dec d x } }

/-- A radio Heat with one uplink job whose one codeword waits. -/
def hj : Heat := { ht [(48, 19, 1)] with jobs := [{ rec_ := rb 48 [(36, 3, 1)], ready := true }] }

/-- A polar request on buffer 0 that waits. -/
def pol : State :=
  { fl [cm 0x45] (pool1 { st := .owned, owner := 32 }) with
    coding := { polar := [⟨0, 7, rb 32 [(8, 0, handleOf 0 32 1), (12, 0, handleOf 0 32 1)]⟩] } }

def bu (started : Bool) : Burst :=
  { start := 0, profile := 0, ploam := [], dbru := [], pieces := [], frt := [], sleep := none, body := [], started := started }

/-- A port enabled and in synchronisation, with one downstream XGEM entry. -/
def px (e : XgemEntry) (s : State := {}) : State :=
  rgs [(R.PON_STAT_SYNC, 0, 1)] (pt { rec_ := [5], xgem := [(9, e)], uni := [(2, 77)] } s)

/-- A PON port enabled whose PON_PM fields enable power saving, in O5, with PON_STAT.PM at a value. -/
def ps (pm : Nat) : State := rgs [(R.PON_STAT_OSTATE, 0, 5), (R.PON_STAT_PM, 0, pm)] (pt { rec_ := [5], pmRec := [16] })

/-- A port in one defect state. -/
def df (d : Nat) (st : DefSt) : State := pt { rec_ := [1], defects := vset (Vector.replicate 8 {}) d { st := st } }

/-- A valid frame of tributary 0 with N = 8. -/
def frtSdu : List Byte :=
  let h : List Byte := [0, 0, 0, 0, 0, 8, 0]
  h ++ [BitVec.ofNat 8 (crc8 h)] ++ List.replicate 8 0

def frt0 (x : Frt) (s : State := {}) : State := rgs [(R.FRT_STAT_EN, 0, 1)] { s with frts := vset s.frts 0 x }

def op (o : Optic) (l : List (Fld × Nat × Nat)) (s : State := {}) : State := rgs l { s with optics := vset s.optics 0 o }

def lk (h : Option Nat) (part : Nat) : State := { fl [cm 0x70 [(8, 4, part)]] with cipher := { holder := h } }

/-- A CBC encryption of 16 bytes. -/
def cbc (part : Nat) : Cmd := cm 0x70 [(8, 4, part), (12, 0, 16), (16, 0, 0x8000000), (24, 0, 0x8000000), (32, 0, 0x8000100)]

def ky (h : Option Nat) (part : Nat) : State :=
  rgs [(R.KEY_STAT_VALID, 0, 1), (R.KEY_STAT_USAGE, 0, 31)]
    { fl [cbc part] with cipher := { holder := h, keys := [(0, List.replicate 16 1)], jobs := [(0, 7, false)] } }

/-- Ring 5 of the first VF, ACTIVE with rings of four entries. -/
def r5 (r : Ring := { st := .active, owner := 1, sqSize := 4, cqSize := 4, cqTail := 1, maxInflight := 3, sqTail := 1 }) (s : State := fl []) : State :=
  { s with host := { s.host with rings := vset s.host.rings 5 r, vfEn := true } }

def hr (f : ReadFor) (u : Option Nat := none) : HostRead := ⟨1023, 0, 0, 2, f, 0, u⟩
def rd (r : HostRead) (s : State := fl [cm 1]) : State := { s with host := { s.host with reads := [r] } }

/-- The core supply is up: functions, the link and resets reach the device. -/
def on (l : List (Fld × Nat × Nat) := []) (s : State := {}) : State := rgs ([(R.VRC_FLT_STATE, 0, 2)] ++ l) s

/-- A device whose configuration is read: BAR0 answers. -/
def b0 (l : List (Fld × Nat × Nat) := []) (s : State := fl []) : State := on l { s with host := { s.host with crs := false } }

/-- A fold that forces each value, so that the kernel evaluates a long record step by step. -/
def foldNow (f : Nat → Byte → Nat) : Nat → List Byte → Nat
  | c, [] => c
  | c, b :: bs =>
    match f c b with
    | 0 => foldNow f 0 bs
    | n + 1 => foldNow f (n + 1) bs

theorem foldNow_eq (f : Nat → Byte → Nat) (bs : List Byte) (c : Nat) : bs.foldl f c = foldNow f c bs := by
  induction bs generalizing c with
  | nil => rfl
  | cons b bs ih =>
    rw [List.foldl_cons, ih, foldNow]
    split <;> simp [*]

/-- A board record that the checks accept. -/
def board : List Byte :=
  rb 16 [(0, 0, 0x52425244), (4, 0, 1), (6, 0, 512), (10, 0, 280), (12, 2, 10), (13, 0, 60)] ++ List.replicate 492 0 ++ leBytes 4 0x5494bb1c

/-- One byte of CRC-32. -/
def crcByte (c : Nat) (b : Byte) : Nat :=
  (List.range 8).foldl (fun c _ => if c % 2 = 1 then c / 2 ^^^ 0xEDB88320 else c / 2) (c ^^^ b.toNat)

theorem board_fold : foldNow crcByte 0xFFFFFFFF ((fitBytes 512 board).take 508) = rec32 (fitBytes 512 board) 508 ^^^ 0xFFFFFFFF := by
  decide +kernel

theorem crc32_fold (bs : List Byte) : crc32 bs = bs.foldl crcByte 0xFFFFFFFF ^^^ 0xFFFFFFFF := rfl

theorem board_crc : crc32 ((fitBytes 512 board).take 508) = rec32 (fitBytes 512 board) 508 := by
  rw [crc32_fold, foldNow_eq, board_fold]
  decide +kernel

theorem board_ok : boardOk (fitBytes 512 board) = true := by
  unfold boardOk
  rw [board_crc]
  decide +kernel

/-- A program image with the given sections, for one Lane. -/
def img (secs : List (Nat × List Byte)) : List Byte :=
  let n := secs.length
  let rows := secs.zipIdx.flatMap (fun x =>
    rb 16 [(0, 0, x.1.1), (4, 0, 64 + 16 * n + ((secs.take x.2).map (fun y => y.2.length)).sum), (8, 0, x.1.2.length)])
  rb 64 [(12, 0, n), (24, 0, 1), (32, 0, 64)] ++ rows ++ secs.flatMap (·.2)

/-- A lane-operation entry. -/
def en (o : Nat) (fs : List (Nat × Nat × Nat) := []) : List Byte := rb 64 ((0, 0, o) :: fs)

/-- Lane 0 IDLE with a Heat in slot 0 whose program, handle 9, is one entry of virtual Lane 0 on it. -/
def at0 (e : List Byte) (h : Heat := ht []) (secs : List (Nat × List Byte) := []) (s : State := {}) : State :=
  rgs [(R.LANE_STAT_STATE, 0, 1)] (h0 h { s with progs := [⟨9, 0, true, img ((1, e) :: secs), [0], [], 0⟩] })

/-- What the operands of an entry at Lane 0 read. -/
def ops (e : List Byte) (ts : List (Nat × Nat)) : Option (List (Array Byte)) × State :=
  (((at0 e).upset []).bindLane 0 0).readTensors (ht []) ts

/-- A Heat with one signal: user memory at 0x8000000. -/
def hy (r : VRun := .ready) (fs : List (Nat × Nat × Nat) := []) (gen : Option (Nat × Nat × Nat) := none) : Heat :=
  { ht fs .running [{ run := r, gen := gen }] with locs := [[(0x8000000, 8)]] }

/-- Device 0 of a chain of two, whose neighbour is on port 1, UP, and ready. -/
def nb (l : List (Fld × Nat × Nat) := []) (p : Peer := { heard := true, ready := true }) (s : State := {}) : State :=
  rgs ([(R.BYK_CTL_TOPO, 0, 1), (R.BYK_CTL_DIM_X, 0, 2), (R.BYK_PORT_STATE, 1, 4), (R.BYK_CFG_READY, 0, 1)] ++ l)
    { s with byk := { s.byk with peers := vset s.byk.peers 1 p } }

def xf (d : List Byte) (st : XferSt) (i : Issuer := .heat 0 0) : Xfer :=
  { id := 0, engine := 0, issuer := i, user := 0, desc := d, st := st, reserved := false }

/-- A state with a running Heat in slot 0 and one transfer. -/
def xs (x : Xfer) (h : Heat := ht []) (s : State := {}) : State := { h0 h s with xfers := [x], xferNext := 1 }

/-- A descriptor from local memory to local memory. -/
def de (fs : List (Nat × Nat × Nat) := []) : List Byte := rb 64 ([(0, 0, 0x8000000), (8, 0, 0x8001000)] ++ fs)

theorem pair_eq {o : Option (List (Array Byte)) × State} (h : o.1.isSome = true) : o = (some (o.1.getD []), o.2) := by
  rcases o with ⟨_ | b, s⟩
  · simp at h
  · rfl

def mma1 : List Byte := en 1 [(2, 0, 1), (8, 0, 1), (10, 0, 1), (12, 0, 1)]

/-- A state with one command in flight and a POWER_STATE entry under way. -/
def pe (t : Nat) (l : List (Fld × Nat × Nat) := []) (bench : Bool := false) : State :=
  rgs l { fl [cm 0x88] with pst := { req := some (t, 0, 7), bench := bench } }

def bt (s : Stop) (l : List (Fld × Nat × Nat) := []) (q : SeqSt := .on) : State := rgs l { boot := { stop := some s }, pwr := { seq := q } }

/-- A program with one relay plan of one hop to device 1. -/
def relayProg : Prog := ⟨9, 0, true, img [(8, [1, 0, 1, 1, 0, 0])], [0], [], 0⟩

/-- A block header from device 1 of a carrier, at an offset, and the state that knows it as a peer. -/
def bp : State :=
  nb [(R.BYK_PEER_VALID, 0, 1), (R.BYK_PEER_DEV, 0, 1), (R.BYK_PEER_CARRIER, 0, 2), (R.BYK_PEER_PON, 0, 0), (R.BYK_PEER_ENTRY, 0, 9)] {}
    (pt { xgem := [(9, { valid := true, up := true, kind := 3 })] } (pool1 {}))

theorem bp_alloc : bp.allocN 45 0 (ceilDiv (0 + ([(5 : Byte)]).length) (2 ^ (bp.pclass 0).size) - ([] : List Nat).length) [] =
    ((bp.allocN 45 0 1 []).1, (bp.allocN 45 0 1 []).2.1, (bp.allocN 45 0 1 []).2.2) := by
  rw [show ceilDiv (0 + ([(5 : Byte)]).length) (2 ^ (bp.pclass 0).size) - ([] : List Nat).length = 1 from by decide +kernel]

/-- Class 0 as `pool1` has it, with a command in flight. -/
def pc (c : Cmd) (b : Buf := {}) : State := fl [c] (pool1 b)

/-- A state with ring 5 and commands in flight. -/
def r5c (cs : List Cmd) (r : Ring := { st := .active, owner := 1, cqBase := 4096, cqSize := 2 }) : State := r5 r (fl cs)

/-- A user's window mapping. -/
def mp (ms : List Mapping) (s : State) : State := { s with host := { s.host with maps := vset s.host.maps 0 ms } }

/-- A carrier record that the checks accept. -/
def kr : List Byte := rb 64 [(1, 0, 3), (2, 0, 106), (9, 0, 1), (10, 0, 1), (16, 0, 10), (18, 0, 100), (32, 0, 0x8000000)]

/-- A CARRIER_CONFIG of carrier 0, and an AGC_CONFIG of pair 0. -/
def kc : List (Nat × Nat × Nat) := [(9, 0, 1), (16, 0, 4096)]
def ag (lat : Nat := 100) : List (Nat × Nat × Nat) := [(9, 0, 0xFD), (10, 0, 0xF4), (11, 0, 4), (12, 0, 3), (14, 0, 0xD8), (16, 0, lat)]
def agr (lat : Nat) : AgcCfg := { hi := -3, lo := -12, relN := 4, atkMax := 3, manual := 0, ini := 0, ed := -40, edWin := 0, lat := lat, en := false, step := 1 }

/-- A port whose entry 9 is upstream control, in one activation state, with the CPU's buffer 0. -/
def pe9 (o : Nat) : State :=
  rgs [(R.PON_STAT_OSTATE, 0, o)] (pt { rec_ := [5], xgem := [(9, { valid := true, up := true })] } (pool1 { st := .owned, owner := 32 }))

def cb : ClosedBin := ⟨0, 0, 0, 0, 0, []⟩

/-- A FRT_CONFIG of tributary 0 and what it asks for. -/
def fc : List (Nat × Nat × Nat) := [(10, 0, 9), (11, 0, 1), (12, 0, 8), (16, 0, 32), (20, 0, 8), (24, 0, 0x8000000), (32, 0, 0x8000040)]
def fx : Frt := { thresh := 1, n := 8, cap := 32, centre := 8, buf := 0x8000000, ctrl := 0x8000040, entry := 9 }

theorem some_of {o : Option Nat} (a : Nat) {P : Nat → Prop} (ho : o = some a) (hp : P a) : ∀ k, o = some k → P k := by
  intro k h
  rw [ho] at h
  cases h
  exact hp

theorem none_of {o : Option Nat} {P : Nat → Prop} (ho : o = none) : ∀ k, o = some k → P k := by
  intro k h
  rw [ho] at h
  cases h

/-- An OPTIC_CONFIG record that the checks accept, with a count of entries. -/
def oc (n : Nat) : List Byte :=
  rb 48 ([(1, 0, 1), (8, 0, 600), (14, 0, 100), (16, 0, 400), (18, 0, n)] ++ if n = 0 then [] else [(4, 0, 4095), (6, 0, 1023)])

def lr (n : Nat) : LogRec := ⟨n, 0, 0, 0, 0, [0, 0, 0, 0, 0]⟩

/-- A container that every check accepts: empty tables, one segment, one Lane, and a TAG. -/
def im : List Byte :=
  rb 64 [(0, 0, 0x4C524D4C), (4, 0, 0x300), (6, 0, 0x401), (8, 0, 224), (12, 0, 4), (24, 0, 1), (26, 0, 1), (30, 0, 1), (32, 0, 64)] ++
  rb 16 [(0, 0, 1), (4, 0, 128)] ++ rb 16 [(0, 0, 2), (4, 0, 128)] ++ rb 16 [(0, 0, 6), (4, 0, 128), (8, 0, 16)] ++
  rb 16 [(0, 0, 15), (4, 0, 192), (8, 0, 32)] ++ List.replicate 96 0

def pg (rdy : Bool) (image : List Byte := im) (h : Nat := 9) : Prog := ⟨h, 0, rdy, image, [0], [], 0⟩

/-- A program of a TAG alone that verifies with the key of user 0's slot 0, all zeros, and the state that holds both. -/
def tg : Prog := pg false (rb 16 [(0, 0, 15), (4, 0, 20), (8, 0, 32), (12, 0, 1)] ++ rb 36 [(5, 0, 1), (20, 0, 0x09CCDC7DC73E4F652941A6EB72A7FA82)])
def tgs : State :=
  rgs [(R.KEY_STAT_VALID, 0, 1), (R.KEY_STAT_LEN, 0, 1), (R.KEY_STAT_USAGE, 0, 16)]
    { progs := [tg], cipher := { keys := [(0, List.replicate 32 0)] } }

theorem tag_tgs : tgs.tagOk tg = true := by decide +kernel

theorem tag_fl (c : Cmd) (s : State) (p : Prog) : (fl [c] s).tagOk p = s.tagOk p := rfl

theorem tag_ok (c : Cmd) : (fl [c] tgs).tagOk tg = true := by rw [tag_fl, tag_tgs]

/-- Commands in flight: one, and another with CID 8. -/
def c2 (c : Cmd) (o : Nat) (s : State := {}) : State := fl [c, { cm o with cid := 8 }] s

def pl (mask : Nat) : List (Nat × Nat × Nat) := [(8, 0, 4096), (16, 0, 224), (20, 0, mask), (21, 0, 1)]
def hs : List (Nat × Nat × Nat) := [(8, 0, 4096), (16, 0, 1)]
def sd : List (Nat × Nat × Nat) := [(8, 0, 4096), (24, 0, 3)]
def dsc : List Byte := rb 64 [(0, 0, 9), (40, 0, 0x8000000)]

/-! ## Well-formedness: one ill-formed term for each check -/

theorem test_wf_refuses :
    ([.splitRefresh [] 0, .patrolScrub (2 ^ 43) 0, .jesdCrcError 0 0, .agcWindowEnd 0 (-1) 0 0,
      .rxSymbol 0 0 0 0 0 [2 ^ 32] 0 [], .ponDownstreamFrame 0 (2 ^ 51) 1 0 0 0, .ponDownstreamFrame 0 0 1 1 1 0, .burstEnd 0 0,
      .ploamAssignOnuId 0 1 [] (List.replicate 48 0), .ploamDisableSerialNumber 0 true (some []) (List.replicate 48 0),
      .ploamRequestRegistration 0 [], .opticMonitorPoll 0 (some []) true, .bar4Access 0 0 none [], .bar4Access (2 ^ 28) 1 none [],
      .bar4Access 0 4 (some []) [], .registerWrite 0 4 0 true false, .registerWrite 0 2 0 false false, .reg64LowRead 0 2,
      .arrive 0 (2 ^ 32) 0 0 0, .arrive 0 0 (2 ^ 16) 0 0, .bykReadReq 0 0 0 (2 ^ 46) 0 none, .bykWrite 0 0 0 (2 ^ 46) [0],
      .bykAdd 0 0 0 4 0, .bykAdd 0 0 0 (2 ^ 46) 0, .bykTagAck 0 (2 ^ 32) 0 0, .bykBlock 0 0 0 [] [], .smiWritePhase 0 1 [] none,
      .benchExit (some (2048, 1)), .marshalStart (some []) [] [], .fatalStop (some 15) 0] : List Instr).all (fun i => !i.wf) = true := by
  decide +kernel

theorem test_wf_accepts :
    ([.burstEnd 0 1, .fatalStop (some 14) 0, .registerWrite 0 8 0 true false, .bykAdd 0 0 0 (2 ^ 46 - 8) 0,
      .bykWrite 0 0 0 (2 ^ 46 - 1) [0], .ponDownstreamFrame 0 0 2 1 1 0] : List Instr).all (fun i => i.wf) = true := by decide +kernel

/-! ## Worked examples of the spec -/

/-- 04_number_formats.md, On the track: both components of the drained CQ16 word. -/
theorem test_requant_cq16 :
    reqInt 1234567890 ⟨23170, 30, 0, 0, true, true⟩ 16 = (26640, false) ∧
    reqInt (-3100000000) ⟨23170, 30, 0, 0, true, true⟩ 16 = (-32767, true) := by decide +kernel

/-- 02_handshake_fabric_and_pacing.md, On the track: Table HSF-1 interpolated at 0.670 V and 0.665 V. -/
theorem test_rate_table : typ10 24 = 10680 ∧ typ10 23 = 10510 := by decide +kernel

/-- 06_infield_and_pool.md, On the track: the handle of index 70,000 given to PON-A, and where its buffer lies. -/
theorem test_handle :
    handleOf 70000 43 3 = 0x03AD1170 ∧ hIndex 0x03AD1170 = 70000 ∧ hOwner 0x03AD1170 = 43 ∧ hGen 0x03AD1170 = 3 ∧
    ({ first := 65536, size := 14, base := 0x1000000000 } : PoolClass).addr 70000 = 0x10045C0000 := by decide +kernel

/-- 08_timekeeper.md, On the track: the phase of the hyperframe at T. -/
theorem test_nr_phase : (rgs [(R.NR_BASE_BASE, 0, 7946500000)]).nrPhase 5000000000000 = 5173500000 := by decide +kernel

/-- 12_pon_terminal.md, On the track: the framed size of the job's block. -/
theorem test_framed_block : jobFramed false 758136 = 95056 ∧ jobFramed true 758136 = 95104 := by decide +kernel

/-- 11_coding_engines.md, On the track: the beats of a codeword, with and without combining. -/
theorem test_decode_cost :
    decodeCost 11 40 384 22704 8448 25344 false = 11250 ∧ decodeCost 11 46 384 22704 8448 25344 true = 13098 := by decide +kernel

/-- 25_faults_recovery_and_black_box.md, On the track: the first 12 bytes of EV_FATAL. -/
theorem test_log_record :
    (LogRec.mk 0 0x574FBDFE6A0 0x1104 255 3 [2, 480, 0, 37, 0]).bytes.take 12 =
      [0xA0, 0xE6, 0xDF, 0xFB, 0x74, 0x05, 0x00, 0x00, 0x04, 0x11, 0xFF, 0x03] := by decide +kernel

/-- 26_setup_registers.md, On the track: the reset values read, and the ceiling lowered by one write. -/
theorem test_registers :
    State.reset.regWord 0 0x1100 = 0x00032463 ∧ State.reset.regWord 0 0x1830 = 0xC431 ∧
    (State.reset.regWrite 0 0x1100 0x000323C3).rg R.PACER_CTL_CEIL_RACE = 60 := by decide +kernel

/-- 26_setup_registers.md, On the track: with a Heat in flight the write of 0x0003_23C2 leaves EN and sets CFG_REJ. -/
theorem test_static_field_refused :
    ((h0 (ht [])).regWrite 0 0x1100 0x000323C2).rg R.PACER_CTL_EN = 1 ∧
    ((h0 (ht [])).regWrite 0 0x1100 0x000323C2).rg R.PACER_STAT_CFG_REJ = 1 ∧
    ((h0 (ht [])).regWrite 0 0x1100 0x000323C2).rg R.PACER_CTL_CEIL_RACE = 60 := by decide +kernel

/-! ## The hypotheses of the statements are met -/

/-- A memory with one byte and a field that waits for its slot keep the invariant, and the step after them is a next state. -/
theorem hyps_met_StepKeepsTheInvariant : ∃ s t : State, Inv s ∧ step s = .next t :=
  ⟨{ pending := [.ref10mLoss], mem := { cells := [(0x8000000, 5)] }, shadow := [⟨R.BYK_ISO_EN.key 15 0, 0, 1, .isoEn⟩] }, _,
   ⟨by decide +kernel, by
      intro x hx
      rw [List.mem_singleton.mp hx]
      exact ⟨R.BYK_ISO_EN, 15, by decide +kernel, by decide +kernel, by decide +kernel, rfl⟩⟩, rfl⟩

/-- Every hypothesis of SetpointFollowsNeed is met. -/
theorem hyps_met_SetpointFollowsNeed :
  (∃ (s : State), s.flag R.PACER_CTL_EN = true ∧ s.flag R.PACER_STAT_BRAKE_LEVEL = false ∧ s.flag R.PWR_RAIL_PWR_FAIL = false ∧ s.rg
    R.PACER_STAT_VSET < s.pacer.want ∧ s.pacer.want ≤ 70 ∧
    (let u := s.reach s.pacer.kickAt;

    (let last := if u.flag R.PACER_STAT_KICK then s.pacer.kickFrom else s.rg R.PACER_STAT_VSET;
    s.rg R.PACER_STAT_VSET < min s.pacer.want (last + 30)))) ∧
  (∃ (s : State), s.flag R.PACER_STAT_BRAKE_LEVEL = true) ∧
  (∃ (s : State), s.flag R.PACER_STAT_KICK = true) ∧
  (∃ (s : State), s.flag R.PACER_STAT_KICK = false) ∧
  (∃ (s : State), 3 ≤ s.pacer.idleRefreshes ∧ s.flag R.PACER_STAT_KICK = false ∧ s.pacer.want < s.rg R.PACER_STAT_VSET ∧ s.pacer.want ≤ 70) :=
  ⟨⟨rgs [(R.PACER_CTL_EN, 0, 1), (R.PACER_STAT_VSET, 0, 20)], by decide +kernel⟩,
   ⟨rgs [(R.PACER_STAT_BRAKE_LEVEL, 0, 1)], by decide +kernel⟩,
   ⟨rgs [(R.PACER_STAT_KICK, 0, 1)], by decide +kernel⟩,
   ⟨{}, by decide +kernel⟩,
   ⟨rgs [(R.PACER_STAT_VSET, 0, 70)] { pacer := { idleRefreshes := 3 } }, by decide +kernel⟩⟩

/-- Every hypothesis of BrakeThrottlesAndReleases is met. -/
theorem hyps_met_BrakeThrottlesAndReleases :
  (∃ (s : State), s.flag R.PACER_STAT_BRAKE_LEVEL = false ∧ s.rg R.PACER_STAT_VSET ≤ 70) ∧
  (∃ (s : State), (s.rg R.PACER_STAT_BRAKE_LEVEL = 1 ∨ s.rg R.PACER_STAT_BRAKE_LEVEL = 2) ∧ s.flag R.PACER_STAT_BRAKE_CAUSE = true) ∧
  (∃ (s : State) (absent : BitVec 3), (s.rg R.PACER_STAT_BRAKE_LEVEL = 1 ∨ s.rg R.PACER_STAT_BRAKE_LEVEL = 2 ∨ s.rg R.PACER_STAT_BRAKE_LEVEL = 3) ∧
    s.rg R.PACER_STAT_BRAKE_CAUSE < 16 ∧ (∀ b, b < 3 → s.rgBit R.PACER_STAT_BRAKE_CAUSE b = true → absent.toNat.testBit b = true) ∧ (s.rgBit
    R.PACER_STAT_BRAKE_CAUSE 3 = true → absent.toNat.testBit 0 = true)) ∧
  (∃ (s : State) (absent : BitVec 3), (s.rg R.PACER_STAT_BRAKE_LEVEL = 1 ∨ s.rg R.PACER_STAT_BRAKE_LEVEL = 2 ∨ s.rg R.PACER_STAT_BRAKE_LEVEL = 3) ∧
    s.rg R.PACER_STAT_BRAKE_CAUSE < 16 ∧ (∀ b, b < 3 → s.rgBit R.PACER_STAT_BRAKE_CAUSE b = true → absent.toNat.testBit b = true) ∧ (s.rgBit
    R.PACER_STAT_BRAKE_CAUSE 3 = true → absent.toNat.testBit 0 = true)) ∧
  (∃ (s : State), s.flag R.PACER_STAT_BRAKE_LEVEL = true ∧ (s.rgBit R.PACER_STAT_BRAKE_CAUSE 0 = true ∨ s.rgBit R.PACER_STAT_BRAKE_CAUSE 1 = true) ∧
    20 < s.rg R.PACER_STAT_VSET ∧ s.rg R.PACER_STAT_VSET ≤ 70) :=
  ⟨⟨rgs [(R.PACER_STAT_VSET, 0, 70)], by decide +kernel⟩,
   ⟨rgs [(R.PACER_STAT_BRAKE_LEVEL, 0, 2), (R.PACER_STAT_BRAKE_CAUSE, 0, 1)], by decide +kernel⟩,
   ⟨rgs [(R.PACER_STAT_BRAKE_LEVEL, 0, 3), (R.PACER_STAT_BRAKE_CAUSE, 0, 15)], 7, by decide +kernel⟩,
   ⟨rgs [(R.PACER_STAT_BRAKE_LEVEL, 0, 1), (R.PACER_STAT_BRAKE_CAUSE, 0, 4)], 4, by decide +kernel⟩,
   ⟨rgs [(R.PACER_STAT_BRAKE_LEVEL, 0, 1), (R.PACER_STAT_BRAKE_CAUSE, 0, 1), (R.PACER_STAT_VSET, 0, 21)], by decide +kernel⟩⟩

/-- Every hypothesis of SplitTimersRefreshTogether is met. -/
theorem hyps_met_SplitTimersRefreshTogether :
  (∃ (s : State) (samples : List (Nat × Bool × Int)), Inv s ∧ samples.length = 15) :=
  ⟨{}, List.replicate 15 (40000, true, 50), inv_of (by decide +kernel) (by decide +kernel), by decide +kernel⟩

/-- Every hypothesis of PoolOperations is met. -/
theorem hyps_met_PoolOperations :
  (∃ (s : State) (req : Fin 47) (c : Fin 32) (i : Nat) (rest : List Nat),
    (let k := s.pclass c;
    k.conf = true ∧ (¬ (k.refcount = true ∧ 33 ≤ req.val ∧ req.val ≤ 39)) ∧ (k.firstCome = true ∨ s.charged c (groupOf req) < k.quota.getD (groupOf
      req) 0) ∧ k.free = i :: rest)) ∧
  (∃ (s : State) (req : Fin 47) (h : BitVec 32) (c : Nat), s.classOf (hIndex h.toNat) = some c ∧ s.stale h.toNat = false ∧ s.owns req h.toNat = true
    ∧ ((s.pclass c).refcount = false)) ∧
  (∃ (s : State) (req : Fin 47) (h : BitVec 32) (dst : Fin 64) (c : Nat), s.classOf (hIndex h.toNat) = some c ∧ s.stale h.toNat = false ∧ s.owns req
    h.toNat = true ∧ ((s.pclass c).refcount = false) ∧ dst.val ≤ 46) ∧
  (∃ (s : State) (h : BitVec 32) (c : Nat), s.classOf (hIndex h.toNat) = some c ∧ ((s.pclass c).refcount = true) ∧ s.stale h.toNat = false ∧ ((s.buf
    (hIndex h.toNat)).count ≠ 255)) ∧
  (∃ (s : State) (h : BitVec 32) (c : Nat), s.classOf (hIndex h.toNat) = some c ∧ ((s.pclass c).refcount = true) ∧ s.stale h.toNat = false) ∧
  (∃ (s : State) (h : BitVec 32) (c : Nat), s.classOf (hIndex h.toNat) = some c) ∧
  (∃ (s : State) (i : Fin 262144) (c : Nat), s.classOf i = some c ∧ ((s.buf i).st = .retired)) ∧
  (∃ (s : State) (c : Fin 32), ((s.pclass c).conf = false)) ∧
  (∃ (s : State) (req : Fin 47) (c : Fin 32), ((s.pclass c).conf = true) ∧ ((s.pclass c).refcount = false) ∧ ((s.pclass c).firstCome = false) ∧
    ((s.pclass c).quota.getD (groupOf req) 0 ≤ s.charged c (groupOf req))) ∧
  (∃ (s : State) (c : Fin 32), ((s.pclass c).conf = true) ∧ ((s.pclass c).refcount = false) ∧ ((s.pclass c).firstCome = true) ∧ ((s.pclass c).free =
    [])) ∧
  (∃ (s : State) (h : BitVec 32) (c : Nat), c < 32 ∧ s.classOf (hIndex h.toNat) = some c ∧ s.stale h.toNat = true) ∧
  (∃ (s : State) (req : Fin 47) (h : BitVec 32) (c : Nat), c < 32 ∧ s.classOf (hIndex h.toNat) = some c ∧ s.stale h.toNat = false ∧ s.owns req
    h.toNat = false) :=
  ⟨⟨pool1 {}, 33, 0, 1, [2, 3], by decide +kernel⟩,
   ⟨pool1 { st := .owned, owner := 33 }, 33, BitVec.ofNat 32 (handleOf 0 33 1), 0, by decide +kernel⟩,
   ⟨pool1 { st := .owned, owner := 33 }, 33, BitVec.ofNat 32 (handleOf 0 33 1), 46, 0, by decide +kernel⟩,
   ⟨pool1 { st := .shared, count := 254 } { conf := true, refcount := true, count := 1 }, BitVec.ofNat 32 (handleOf 0 63 1), 0, by decide +kernel⟩,
   ⟨pool1 { st := .shared, count := 1 } { conf := true, refcount := true, count := 1 }, BitVec.ofNat 32 (handleOf 0 63 1), 0, by decide +kernel⟩,
   ⟨pool1 {}, 3, 0, by decide +kernel⟩,
   ⟨pool1 { st := .retired }, 0, 0, by decide +kernel⟩,
   ⟨{}, 31, by decide +kernel⟩,
   ⟨pool1 { st := .owned, owner := 0, group := 0 } { conf := true, count := 4, quota := [1] }, 0, 0, by decide +kernel⟩,
   ⟨pool1 {} { conf := true, firstCome := true }, 0, by decide +kernel⟩,
   ⟨pool1 {}, BitVec.ofNat 32 (handleOf 3 0 1), 0, by decide +kernel⟩,
   ⟨pool1 { st := .owned, owner := 1 }, 0, BitVec.ofNat 32 (handleOf 0 0 1), 0, by decide +kernel⟩⟩

/-- Every hypothesis of MemoryScrubWindowAndTraining is met. -/
theorem hyps_met_MemoryScrubWindowAndTraining :
  (∃ (s : State) (w : Nat), s.inMem (8 * w) 8 = true ∧ s.mem.bad.contains w = false ∧ 8 * w < lpBase) ∧
  (∃ (s : State) (w : Nat), s.inMem (8 * w) 8 = true ∧ s.mem.bad.contains w = false ∧ 8 * w < lpBase ∧ s.mem.seen.contains w = false) ∧
  (∃ (s : State) (off : Nat) (len : Nat) (bs : List Byte), s.flag R.DBG_CTL_BAR4_EN = true ∧ off + len ≤ 0x0C000000 ∧ 0 < len ∧ bs.length = len) ∧
  (∃ (s : State) (off : Nat) (len : Nat), s.flag R.DBG_CTL_BAR4_EN = true ∧ off + len ≤ 0x0C000000 ∧ 0 < len ∧ s.mem.bad = []) ∧
  (∃ (s : State), s.flag R.DBG_CTL_BAR4_EN = false) ∧
  (∃ (s : State), s.boot.up = true ∧ s.flag R.MEM_STAT_TRAINED = false ∧ s.boot.recCode = 0 ∧ recF s.boot.rec_ 8 0 2 ≠ 0) :=
  ⟨⟨{}, 0x017F_FFFF, by decide +kernel⟩,
   ⟨{}, 0, by decide +kernel⟩,
   ⟨rgs [(R.DBG_CTL_BAR4_EN, 0, 1)], 0x0BFF_FFFF, 1, [5], by decide +kernel⟩,
   ⟨rgs [(R.DBG_CTL_BAR4_EN, 0, 1)], 0, 8, by decide +kernel⟩,
   ⟨rgs [(R.DBG_CTL_BAR4_EN, 0, 0)], by decide +kernel⟩,
   ⟨{ boot := { up := true, recCode := 0, rec_ := List.replicate 8 0 ++ [1] } }, by decide +kernel⟩⟩

/-- Every hypothesis of HeatsMoveThroughTheirStates is met. -/
theorem hyps_met_HeatsMoveThroughTheirStates :
  (∃ (s : State) (slot : Fin 32) (h : Heat), s.heat slot = some h ∧ h.st = .admitted) ∧
  (∃ (s : State) (slot : Fin 32) (tp : Fin 3) (h : Heat), s.heat slot = some h ∧ h.live = true ∧ h.split tp ≠ 0 ∧ ((h.tap tp).st = .open_)) ∧
  (∃ (s : State) (slot : Fin 32) (h : Heat), s.heat slot = some h ∧ h.live = true ∧ h.finish ≠ 0 ∧ s.boot.reset = none ∧ h.radio = false) ∧
  (∃ (s : State) (slot : Fin 32) (h : Heat), s.heat slot = some h ∧ h.live = true ∧ h.finish ≠ 0 ∧ s.boot.reset = none ∧ h.radio = true ∧ h.downlink
    = false ∧ h.jobsDone = false) ∧
  (∃ (s : State) (slot : Fin 32) (h : Heat), s.heat slot = some h ∧ h.st = .running ∧ h.radio = false ∧ s.heatDone slot h = true ∧ s.boot.reset =
    none ∧ s.inMem h.report 64 = true ∧ ((s.reportBytes h).length = 64)) ∧
  (∃ (s : State) (slot : Fin 32) (h : Heat), s.heat slot = some h ∧ h.st = .draining ∧ s.heatXfers slot = []) ∧
  (∃ (s : State) (slot : Fin 32) (h : Heat), Inv s ∧ s.heat slot = some h ∧ h.st = .running ∧ h.vl.any VLane.counts = true ∧ h.radio = false ∧
    h.rerun = false ∧ h.emitted = false ∧ ((List.range h.vl.length).any (fun v => s.flag R.LANE_STAT_HELD (s.laneOf h v)) = false)) ∧
  (∃ (s : State) (slot : Fin 32) (h : Heat), Inv s ∧ s.heat slot = some h ∧ h.st = .running ∧ h.vl.any VLane.counts = true ∧ h.radio = false ∧
    h.rerun = false ∧ h.emitted = false ∧ ((List.range h.vl.length).any (fun v => s.flag R.LANE_STAT_HELD (s.laneOf h v)) = false)) ∧
  (∃ (s : State) (slot : Fin 32) (h : Heat), s.heat slot = some h ∧ h.st = .running ∧ h.vl.any VLane.counts = true ∧ h.radio = true) :=
  ⟨⟨h0 (ht [] .admitted), 0, ht [] .admitted, by decide +kernel⟩,
   ⟨h0 (ht [(16, 0, 5)] .running [] [{ st := .open_ }]), 0, 0, ht [(16, 0, 5)] .running [] [{ st := .open_ }], by decide +kernel⟩,
   ⟨h0 (ht [(8, 0, 5)]), 0, ht [(8, 0, 5)], by decide +kernel⟩,
   ⟨h0 { ht [(8, 0, 5), (48, 19, 1)] with jobs := [{ rec_ := [] }] }, 0, { ht [(8, 0, 5), (48, 19, 1)] with jobs := [{ rec_ := [] }] },
     by decide +kernel⟩,
   ⟨h0 (ht [] .running [{ run := .ended }]) { progs := [⟨9, 0, true, List.replicate 64 0, [0], [], 0⟩] }, 0, ht [] .running [{ run := .ended }],
     by decide +kernel⟩,
   ⟨h0 (ht [] .draining), 0, ht [] .draining, by decide +kernel⟩,
   ⟨h0 (ht []), 0, ht [], inv_of (by decide +kernel) (by decide +kernel), by decide +kernel⟩,
   ⟨h0 (ht [] .running [{ run := .held 6 0 }]), 0, ht [] .running [{ run := .held 6 0 }], inv_of (by decide +kernel) (by decide +kernel),
     by decide +kernel⟩,
   ⟨h0 (ht [(48, 19, 1)]), 0, ht [(48, 19, 1)], by decide +kernel⟩⟩

/-- Every hypothesis of ComparisonsSlewStepAndLock is met. -/
theorem hyps_met_ComparisonsSlewStepAndLock :
  (∃ (s : State) (tai : Nat), (s.rg R.TK_STAT_SRC = 1 ∨ s.rg R.TK_STAT_SRC = 2 ∨ s.rg R.TK_STAT_SRC = 3) ∧ s.flag R.TK_STAT_EPOCH_VALID = true ∧
    (let e := sext (toBits ((s.taiAt s.tk.ns : Int) - tai) 64) 64;
    e.natAbs ≤ s.rg R.TK_LIMITS_STEP * 100)) ∧
  (∃ (s : State) (tai : Nat), (s.rg R.TK_STAT_SRC = 1 ∨ s.rg R.TK_STAT_SRC = 2 ∨ s.rg R.TK_STAT_SRC = 3) ∧ s.flag R.TK_STAT_EPOCH_VALID = true ∧
    (let e := sext (toBits ((s.taiAt s.tk.ns : Int) - tai) 64) 64;
    e.natAbs ≤ s.rg R.TK_LIMITS_STEP * 100)) ∧
  (∃ (s : State) (tai : Nat), (s.rg R.TK_STAT_SRC = 1 ∨ s.rg R.TK_STAT_SRC = 2 ∨ s.rg R.TK_STAT_SRC = 3) ∧ s.flag R.TK_STAT_EPOCH_VALID = true ∧
    (let e := sext (toBits ((s.taiAt s.tk.ns : Int) - tai) 64) 64;
    s.rg R.TK_LIMITS_STEP * 100 < e.natAbs ∧ s.stepOk = true)) ∧
  (∃ (s : State) (tai : Nat), (s.rg R.TK_STAT_SRC = 1 ∨ s.rg R.TK_STAT_SRC = 2 ∨ s.rg R.TK_STAT_SRC = 3) ∧ s.flag R.TK_STAT_EPOCH_VALID = true ∧
    (let e := sext (toBits ((s.taiAt s.tk.ns : Int) - tai) 64) 64;
    s.rg R.TK_LIMITS_STEP * 100 < e.natAbs ∧ s.stepOk = false)) ∧
  (∃ (s : State) (tai : Nat), (s.rg R.TK_STAT_SRC = 1 ∨ s.rg R.TK_STAT_SRC = 2 ∨ s.rg R.TK_STAT_SRC = 3) ∧ s.flag R.TK_STAT_EPOCH_VALID = true ∧
    (let e := sext (toBits ((s.taiAt s.tk.ns : Int) - tai) 64) 64;
    s.rg R.TK_STAT_STATE = 1 ∧ s.tk.run = 7 ∧ e.natAbs ≤ s.rg R.TK_LIMITS_LOCK_NS)) ∧
  (∃ (s : State) (ns : Nat), s.rg R.TK_STAT_SRC = 4 ∧ s.flag R.TK_STAT_EPOCH_VALID = true ∧ (((s.tk.ns : Int) - ns).natAbs ≤ s.rg R.TK_LIMITS_STEP *
    100)) :=
  ⟨⟨rgs [(R.TK_STAT_SRC, 0, 1), (R.TK_STAT_EPOCH_VALID, 0, 1), (R.TK_LIMITS_STEP, 0, 1)], 100, by decide +kernel⟩,
   ⟨rgs [(R.TK_STAT_SRC, 0, 3), (R.TK_STAT_EPOCH_VALID, 0, 1), (R.TK_LIMITS_STEP, 0, 0)], 0, by decide +kernel⟩,
   ⟨rgs [(R.TK_STAT_SRC, 0, 2), (R.TK_STAT_EPOCH_VALID, 0, 1), (R.TK_LIMITS_STEP, 0, 1), (R.TK_CTL_STEP_EN, 0, 1)], 101, by decide +kernel⟩,
   ⟨car (k0 2) (rgs [(R.TK_STAT_SRC, 0, 2), (R.TK_STAT_EPOCH_VALID, 0, 1), (R.TK_LIMITS_STEP, 0, 1)]), 101, by decide +kernel⟩,
   ⟨rgs [(R.TK_STAT_SRC, 0, 1), (R.TK_STAT_EPOCH_VALID, 0, 1), (R.TK_STAT_STATE, 0, 1), (R.TK_LIMITS_LOCK_NS, 0, 9)] { tk := { run := 7 } }, 9,
     by decide +kernel⟩,
   ⟨rgs [(R.TK_STAT_SRC, 0, 4), (R.TK_STAT_EPOCH_VALID, 0, 1), (R.TK_LIMITS_STEP, 0, 1)], 100, by decide +kernel⟩⟩

/-- Every hypothesis of TimeSourcesComeAndGo is met. -/
theorem hyps_met_TimeSourcesComeAndGo :
  (∃ (s : State), s.tk.label = none ∧ s.tk.unlabelled = 1) ∧
  (∃ (s : State) (sec : _), s.tk.label = some sec ∧ s.rg R.TK_STAT_SRC ≠ 3) ∧
  (∃ (s : State) (msg : List Byte) (after : Nat) (e : Nat), s.tk.edge = some e ∧ msg.length = 9 ∧ rec8 msg 0 = 0xA5 ∧ 100000000 ≤ after ∧ after ≤
    900000000 ∧ rec8 msg 8 = ((msg.take 8).map (·.toNat)).sum % 256) ∧
  (∃ (s : State) (msg : List Byte) (after : Nat) (e : Nat), s.tk.edge = some e ∧ msg.length = 9 ∧ rec8 msg 0 = 0xA5 ∧ 100000000 ≤ after ∧ after ≤
    900000000 ∧ rec8 msg 8 = ((msg.take 8).map (·.toNat)).sum % 256) ∧
  (∃ (s : State) (src : Fin 5) (b : Nat), src ≠ 0 ∧ (s.rg R.TK_STAT_STATE = 0 ∨ s.rg R.TK_STAT_STATE = 3 ∨ s.rg R.TK_STAT_STATE = 4) ∧ (({ s with tk
    := { s.tk with qual := setBit s.tk.qual src } } : State).bestSource = some b) ∧ b < 16) ∧
  (∃ (s : State) (src : Fin 5), src ≠ 0 ∧ (s.rg R.TK_STAT_STATE = 1 ∨ s.rg R.TK_STAT_STATE = 2) ∧ s.rg R.TK_STAT_SRC = src ∧ (({ s with tk := { s.tk
    with qual := clearBit s.tk.qual src } } : State).bestSource = none) ∧ s.flag R.TK_STAT_EPOCH_VALID = true) ∧
  (∃ (s : State), s.rg R.TK_STAT_STATE = 3) ∧
  (∃ (s : State), s.flag R.TK_STAT_STEP_PEND = true ∧ s.stepOk = true ∧ s.rg R.TK_LIMITS_STEP * 100 < (s.tk.slewLeft.tdiv (2 ^ 32)).natAbs) :=
  ⟨⟨{ tk := { unlabelled := 1 } }, by decide +kernel⟩,
   ⟨{ tk := { label := some 5 } }, 5, by decide +kernel⟩,
   ⟨{ tk := { edge := some 1 } }, [0xA5, 0, 0, 0, 0, 0, 0, 0, 0xA5], 100000000, 1, by decide +kernel⟩,
   ⟨{ tk := { edge := some 1 } }, [0xA5, 0, 0, 0, 0, 0, 0, 1, 0xA6], 900000000, 1, by decide +kernel⟩,
   ⟨{}, 1, 1, by decide +kernel⟩,
   ⟨rgs [(R.TK_STAT_STATE, 0, 1), (R.TK_STAT_SRC, 0, 4), (R.TK_STAT_EPOCH_VALID, 0, 1)], 4, by decide +kernel⟩,
   ⟨rgs [(R.TK_STAT_STATE, 0, 3)], by decide +kernel⟩,
   ⟨rgs [(R.TK_STAT_STEP_PEND, 0, 1), (R.TK_CTL_STEP_EN, 0, 1), (R.TK_LIMITS_STEP, 0, 1)] { tk := { slewLeft := 101 * 2 ^ 32 } }, by decide +kernel⟩⟩

/-- Every hypothesis of TimeIsReadAndSentOut is met. -/
theorem hyps_met_TimeIsReadAndSentOut :
  (∃ (s : State), s.tk.ns < 2 ^ 64 ∧ s.tk.frac < 2 ^ 32) ∧
  (∃ (s : State) (n : Fin 4), (s.rg R.SYSREF_CTL_MODE n = 1 ∨ (s.rg R.SYSREF_CTL_MODE n = 2 ∨ s.rg R.SYSREF_CTL_MODE n = 3) ∧ 0 < vget s.tk.sysArm
    n)) ∧
  (∃ (s : State) (n : Fin 4), (s.rg R.SYSREF_CTL_MODE n = 1 ∨ (s.rg R.SYSREF_CTL_MODE n = 2 ∨ s.rg R.SYSREF_CTL_MODE n = 3) ∧ 0 < vget s.tk.sysArm
    n)) ∧
  (∃ (s : State), s.flag R.TK_HOLD_PPS_EN = true ∧ s.flag R.TK_STAT_EPOCH_VALID = true ∧ (s.flag R.TK_HOLD_PPS_SQUELCH = false ∨ s.rg R.TK_STAT_STATE
    ≠ 4)) :=
  ⟨⟨{ tk := { ns := 2 ^ 64 - 1, frac := 2 ^ 32 - 1 } }, by decide +kernel⟩,
   ⟨rgs [(R.SYSREF_CTL_MODE, 3, 1)], 3, by decide +kernel⟩,
   ⟨rgs [(R.SYSREF_CTL_MODE, 0, 3)] { tk := { sysArm := Vector.replicate 4 1 } }, 0, by decide +kernel⟩,
   ⟨rgs [(R.TK_HOLD_PPS_EN, 0, 1), (R.TK_STAT_EPOCH_VALID, 0, 1)], by decide +kernel⟩⟩

/-- Every hypothesis of CarriersAndLinksChangeState is met. -/
theorem hyps_met_CarriersAndLinksChangeState :
  (∃ (s : State) (c : Fin 4) (ring : Nat) (cid : Nat) (k : Cmd), ((s.carrier c).pend = some (ring, cid, true)) ∧ TheCmd s ring cid k) ∧
  (∃ (s : State) (c : Fin 4) (ring : Nat) (cid : Nat) (k : Cmd), ((s.carrier c).pend = some (ring, cid, false)) ∧ TheCmd s ring cid k) ∧
  (∃ (s : State) (c : Fin 4), s.rg R.RADIO_LINK_STAT_STATE (2 * c) = 1) ∧
  (∃ (s : State) (c : Fin 4), s.rg R.RADIO_LINK_STAT_STATE (2 * c) = 1) ∧
  (∃ (s : State) (c : Fin 4), s.rg R.RADIO_LINK_STAT_STATE (2 * c) = 2) ∧
  (∃ (s : State) (c : Fin 4), s.rg R.RADIO_LINK_STAT_STATE (2 * c) = 3) ∧
  (∃ (s : State) (c : Fin 4), s.rg R.RADIO_LINK_STAT_STATE (2 * c) = 3) ∧
  (∃ (s : State) (c : Fin 4), cModeB (s.carrier c).rec_ = true ∧ s.rg R.RADIO_LINK_STAT_STATE (2 * c + 1) = 1) ∧
  (∃ (s : State) (c : Fin 4), cModeB (s.carrier c).rec_ = true ∧ s.rg R.RADIO_LINK_STAT_STATE (2 * c + 1) = 3) ∧
  (∃ (s : State) (c : Fin 4), ((s.carrier c).active = true) ∧ cTxAnt (s.carrier c).rec_ ≠ 0 ∧ (if cModeB (s.carrier c).rec_ then s.rg
    R.RADIO_LINK_STAT_STATE (2 * c + 1) = 2 else s.rg R.RADIO_LINK_STAT_STATE (2 * c + 1) = 0 ∨ s.rg R.RADIO_LINK_STAT_STATE (2 * c + 1) = 1)) ∧
  (∃ (s : State) (c : Fin 4), ((s.carrier c).active = true) ∧ cTxAnt (s.carrier c).rec_ ≠ 0 ∧ (if cModeB (s.carrier c).rec_ then s.rg
    R.RADIO_LINK_STAT_STATE (2 * c + 1) = 2 else s.rg R.RADIO_LINK_STAT_STATE (2 * c + 1) = 0 ∨ s.rg R.RADIO_LINK_STAT_STATE (2 * c + 1) = 1)) :=
  ⟨⟨car { pend := some (0, 7, true) } (fl [cm 0x41]), 0, 0, 7, cm 0x41, by decide +kernel⟩,
   ⟨car { pend := some (0, 7, false) } (fl [cm 0x41]), 0, 0, 7, cm 0x41, by decide +kernel⟩,
   ⟨rgs [(R.RADIO_LINK_STAT_STATE, 6, 1)], 3, by decide +kernel⟩,
   ⟨rgs [(R.RADIO_LINK_STAT_STATE, 6, 1)], 3, by decide +kernel⟩,
   ⟨rgs [(R.RADIO_LINK_STAT_STATE, 6, 2)], 3, by decide +kernel⟩,
   ⟨rgs [(R.RADIO_LINK_STAT_STATE, 6, 3)], 3, by decide +kernel⟩,
   ⟨rgs [(R.RADIO_LINK_STAT_STATE, 6, 3)], 3, by decide +kernel⟩,
   ⟨car (k0 0 true true) (rgs [(R.RADIO_LINK_STAT_STATE, 1, 1)]), 0, by decide +kernel⟩,
   ⟨car (k0 0 true true) (rgs [(R.RADIO_LINK_STAT_STATE, 1, 3)]), 0, by decide +kernel⟩,
   ⟨car (k0 0), 0, by decide +kernel⟩,
   ⟨car (k0 0 true true) (rgs [(R.RADIO_LINK_STAT_STATE, 1, 2)]), 0, by decide +kernel⟩⟩

/-- Every hypothesis of SlotTablesAndGainLoops is met. -/
theorem hyps_met_SlotTablesAndGainLoops :
  (∃ (s : State) (c : Fin 4) (u : SlotUpd) (rest : List SlotUpd) (k : Cmd), ((s.carrier c).upds = u :: rest) ∧ TheCmd s u.ring u.cid k) ∧
  (∃ (s : State) (p : Fin 8) (c : Nat) (peak : Int) (left : Nat), s.pairOwner p = some c ∧ ((s.carrier c).active = true) ∧ s.rg
    R.RADIO_LINK_STAT_STATE (2 * c) = 3 ∧ s.flag R.AGC_STAT_FROZEN p = false ∧ ((s.agcOf p).manualPend = none) ∧ s.rg R.AGC_STAT_INDEX p ≤ 15 ∧
    ((s.agcOf p).cfg.en = true) ∧
    (let a := (s.agcOf p).cfg;

    (let i := s.rg R.AGC_STAT_INDEX p;

    (let k := min (min (ceilDiv (peak - 100 * a.hi).toNat (50 * a.step) + 1) a.atkMax) (15 - i);
    100 * a.hi ≤ peak ∧ 0 < k ∧ gainFits a k left = true)))) ∧
  (∃ (s : State) (p : Fin 8) (c : Nat) (peak : Int) (mean : Int) (left : Nat), s.pairOwner p = some c ∧ ((s.carrier c).active = true) ∧ s.rg
    R.RADIO_LINK_STAT_STATE (2 * c) = 3 ∧ s.flag R.AGC_STAT_FROZEN p = false ∧ ((s.agcOf p).manualPend = none) ∧ s.rg R.AGC_STAT_INDEX p ≤ 15 ∧
    ((s.agcOf p).cfg.en = true) ∧
    (let a := (s.agcOf p).cfg;

    (let i := s.rg R.AGC_STAT_INDEX p;
    peak < 100 * a.hi ∧ mean ≤ 100 * a.lo ∧ a.relN ≤ (s.agcOf p).quiet + 1 ∧ 0 < i ∧ gainFits a 1 left = true))) ∧
  (∃ (s : State) (p : Fin 8), s.flag R.AGC_STAT_FROZEN p = true) ∧
  (∃ (s : State) (p : Fin 8), ((s.pairOwner p).any (fun c => (s.carrier c).active) = true) ∧ s.flag R.AGC_STAT_FROZEN p = false) ∧
  (∃ (s : State) (p : Fin 8), ((s.pairOwner p).any (fun c => (s.carrier c).active) = true)) :=
  ⟨⟨car { upds := [⟨0, 7, 0, [5], 1⟩] } (fl [cm 0x42]), 0, ⟨0, 7, 0, [5], 1⟩, [], cm 0x42, by decide +kernel⟩,
   ⟨car (k0 2) (rgs [(R.RADIO_LINK_STAT_STATE, 0, 3), (R.AGC_STAT_INDEX, 0, 14)] { radio := { agc := Vector.replicate 8 { cfg := { en := true } } } }),
     0, 0, -100, 50, by decide +kernel⟩,
   ⟨car (k0 2) (rgs [(R.RADIO_LINK_STAT_STATE, 0, 3), (R.AGC_STAT_INDEX, 0, 1)] { radio := { agc := Vector.replicate 8 { cfg := { en := true }, quiet := 7 } } }),
     0, 0, -101, -2000, 50, by decide +kernel⟩,
   ⟨rgs [(R.AGC_STAT_FROZEN, 7, 1)], 7, by decide +kernel⟩,
   ⟨car (k0 2), 0, by decide +kernel⟩,
   ⟨car (k0 2), 0, by decide +kernel⟩⟩

/-- Every hypothesis of SymbolsEnterAndLeaveTheTracks is met. -/
theorem hyps_met_SymbolsEnterAndLeaveTheTracks :
  (∃ (s : State) (c : Fin 4) (sfn : Fin 1024) (subframe : Fin 10) (slot : Fin 8) (p : _), ((s.carrier c).active = true) ∧
    (let t0 := s.slotAt (s.carrier c).rec_ sfn subframe slot s.tk.ns;

    (let u := (s.reach t0).slotBoundary c;
    u.heatList.find? (fun p => p.2.live && p.2.onSlot c sfn subframe slot false) = some p))) ∧
  (∃ (s : State) (c : Fin 4) (sfn : Fin 1024) (subframe : Fin 10) (slot : Fin 8), ((s.carrier c).active = true) ∧
    (let t0 := s.slotAt (s.carrier c).rec_ sfn subframe slot s.tk.ns;

    (let u := (s.reach t0).slotBoundary c;
    u.heatList.all (fun p => !(p.2.live && p.2.onSlot c sfn subframe slot false)) = true ∧ (∃ y : Fin 14, 2 ≤ s.symCode c sfn subframe slot y)))) ∧
  (∃ (s : State) (c : Fin 4) (sfn : Fin 1024) (subframe : Fin 10) (slot : Fin 8) (sym : Fin 14) (samples : List Nat) (clips : BitVec 8) (p : _),
    s.coreRuns = true ∧ ((s.carrier c).active = true) ∧ 2 ≤ s.symCode c sfn subframe slot sym ∧
    (let r := (s.carrier c).rec_;

    (let u := s.reach (s.slotAt r sfn subframe slot s.tk.ns + symNs (cScs r) (14 * slot + sym + 1) - symNs (cScs r) (14 * slot));

    (let bad := u.rg R.RADIO_LINK_STAT_STATE (2 * c) != 3;

    (let v := (u.clipCount c clips).isoExport c sfn subframe slot sym (if bad then [] else samples);
    v.heatList.find? (fun p => p.2.live && p.2.firstSample && p.2.onSlot c sfn subframe slot false && !p.2.got sym) = some p))))) ∧
  (∃ (s : State) (c : Fin 4) (sfn : Fin 1024) (subframe : Fin 10) (slot : Fin 8) (sym : Fin 14) (samples : List Nat) (clips : BitVec 8), s.coreRuns =
    true ∧ ((s.carrier c).active = true) ∧ 2 ≤ s.symCode c sfn subframe slot sym ∧
    (let r := (s.carrier c).rec_;

    (let u := s.reach (s.slotAt r sfn subframe slot s.tk.ns + symNs (cScs r) (14 * slot + sym + 1) - symNs (cScs r) (14 * slot));

    (let bad := u.rg R.RADIO_LINK_STAT_STATE (2 * c) != 3;

    (let v := (u.clipCount c clips).isoExport c sfn subframe slot sym (if bad then [] else samples);
    v.heatList.all (fun p => !(p.2.live && p.2.firstSample && p.2.onSlot c sfn subframe slot false && !p.2.got sym)) = true))))) ∧
  (∃ (s : State) (c : Fin 4) (sfn : Fin 1024) (subframe : Fin 10) (slot : Fin 8) (sym : Fin 14), s.coreRuns = true ∧ ((s.carrier c).active = true) ∧
    cTxAnt (s.carrier c).rec_ ≠ 0 ∧ s.symCode c sfn subframe slot sym = 0 ∧
    (let r := (s.carrier c).rec_;

    (let t0 := s.slotAt r sfn subframe slot s.tk.ns + symNs (cScs r) (14 * slot + sym) - symNs (cScs r) (14 * slot) - cTxAdv r;

    (let u := (s.reach t0).txSettle c sfn subframe slot;
    u.rg R.RADIO_LINK_STAT_STATE (2 * c + 1) = 3)))) ∧
  (∃ (s : State) (c : Fin 4) (sfn : Fin 1024) (subframe : Fin 10) (slot : Fin 8) (sym : Fin 14), s.coreRuns = true ∧ ((s.carrier c).active = true) ∧
    cTxAnt (s.carrier c).rec_ ≠ 0 ∧ s.symCode c sfn subframe slot sym = 0 ∧
    (let r := (s.carrier c).rec_;

    (let t0 := s.slotAt r sfn subframe slot s.tk.ns + symNs (cScs r) (14 * slot + sym) - symNs (cScs r) (14 * slot) - cTxAdv r;

    (let u := (s.reach t0).txSettle c sfn subframe slot;
    u.rg R.RADIO_LINK_STAT_STATE (2 * c + 1) ≠ 3)))) :=
  ⟨⟨h0 (ht [(48, 19, 1)]) (car (k0 2)), 0, 0, 0, 0, (0, ht [(48, 19, 1)]), by decide +kernel⟩,
   ⟨car (k0 2), 0, 0, 0, 0, by decide +kernel⟩,
   ⟨h0 { ht [(48, 19, 1)] with firstSample := true } (car (k0 2)), 0, 0, 0, 0, 13, [], 0, (0, { ht [(48, 19, 1)] with firstSample := true }),
     by decide +kernel⟩,
   ⟨car (k0 3), 0, 0, 0, 0, 0, [], 0, by decide +kernel⟩,
   ⟨car (k0 0) (rgs [(R.RADIO_LINK_STAT_STATE, 1, 3)]), 0, 0, 0, 0, 0, by decide +kernel⟩,
   ⟨car (k0 0), 0, 0, 0, 0, 13, by decide +kernel⟩⟩

/-- Every hypothesis of DecodersTakeFinishAndFault is met. -/
theorem hyps_met_DecodersTakeFinishAndFault :
  (∃ (s : State) (d : Fin 16) (w : _),
    (let u := s.trackAll;
    u.coreRuns = true ∧ u.decFree d = true ∧ ((u.dec d).resv = none) ∧ ((List.range 16).find? (fun k => u.decFree k && (u.dec k).resv.isNone) = some
      d.val) ∧ u.radioHead = some w)) ∧
  (∃ (s : State) (d : Fin 16) (p : Fin 2),
    (let u := s.trackAll;
    u.coreRuns = true ∧ u.decFree d = true ∧ ((u.dec d).resv = some p.val) ∧ u.ponWaits p = true)) ∧
  (∃ (s : State) (d : Fin 16) (p : Fin 2) (w : _),
    (let u := s.trackAll;
    u.coreRuns = true ∧ u.decFree d = true ∧ ((u.dec d).resv = some p.val) ∧ u.ponWaits p = false ∧ u.inO5 p = false ∧ u.coding.lendEn = true ∧ (∀ k,
      k < 16 → u.decFree k = true → (u.dec k).resv ≠ none) ∧ u.radioHead = some w)) ∧
  (∃ (s : State) (d : Fin 16) (p : Fin 2), s.coreRuns = true ∧ ((s.dec d).work = some (.pon p))) ∧
  (∃ (s : State) (d : Fin 16) (slot : Fin 32) (j : Nat) (c : Nat) (h : Heat) (x : Job), s.coreRuns = true ∧ ((s.dec d).work = some (.radio slot j c))
    ∧ s.heat slot = some h ∧ h.live = true ∧ h.jobs[j]? = some x ∧ x.result = none ∧ jNew x.rec_ = true ∧ x.cwOut.length + 1 ≠ jC x.rec_) ∧
  (∃ (s : State) (d : Fin 16) (w : Work), ((s.dec d).work = some w)) ∧
  (∃ (s : State), s.coreRuns = true ∧ s.coding.enc ≠ []) ∧
  (∃ (s : State) (q : PolarReq) (rest : List PolarReq) (a : Nat × Nat) (b : Nat × Nat) (inp : List Byte) (u : State) (k : Cmd), s.coreRuns = true ∧
    s.coding.polar = q :: rest ∧ TheCmd s q.ring q.cid k ∧ s.handleMem (pIn q.desc) = some a ∧ s.handleMem (pOut q.desc) = some b ∧ s.readMem a.1
    (pInBytes q.desc) = (some inp, u)) :=
  ⟨⟨h0 hj { coding := { again := [.radio 0 0 0] } }, 0, .radio 0 0 0, by decide +kernel⟩,
   ⟨dc 15 { resv := some 0 } (pt { wait := 1 }), 15, 0, by decide +kernel⟩,
   ⟨h0 hj { coding := { again := [.radio 0 0 0], dec := Vector.replicate 16 { resv := some 0 } } }, 15, 0, .radio 0 0 0, by decide +kernel⟩,
   ⟨dc 15 { work := some (.pon 1) }, 15, 1, by decide +kernel⟩,
   ⟨h0 { hj with jobs := [{ rec_ := rb 48 [(36, 3, 1), (32, 0, 20000)] }] } (dc 3 { work := some (.radio 0 0 0) }), 3, 0, 0, 0,
     { hj with jobs := [{ rec_ := rb 48 [(36, 3, 1), (32, 0, 20000)] }] }, { rec_ := rb 48 [(36, 3, 1), (32, 0, 20000)] }, by decide +kernel⟩,
   ⟨dc 3 { work := some (.radio 0 0 0) }, 3, .radio 0 0 0, by decide +kernel⟩,
   ⟨{ coding := { enc := [(0, 0, 0)] } }, by decide +kernel⟩,
   ⟨pol, ⟨0, 7, rb 32 [(8, 0, handleOf 0 32 1), (12, 0, handleOf 0 32 1)]⟩, [], (0x8000000, 4096), (0x8000000, 4096), [], pol, cm 0x45,
     by decide +kernel⟩⟩

/-- Every hypothesis of DownstreamFramesAreCountedAndReassembled is met. -/
theorem hyps_met_DownstreamFramesAreCountedAndReassembled :
  (∃ (s : State) (p : Fin 2), ((s.port p).enabled = true) ∧ s.flag R.PON_STAT_SYNC p = true ∧ ((s.port p).frozen = false)) ∧
  (∃ (s : State) (p : Fin 2), s.flag R.PON_STAT_SYNC p = false) ∧
  (∃ (s : State) (p : Fin 2) (portId : Fin 65536), ((s.port p).enabled = true) ∧ s.flag R.PON_STAT_SYNC p = true ∧ ((s.port p).frozen = false) ∧
    ((s.port p).findEntry false portId = none)) ∧
  (∃ (s : State) (p : Fin 2) (portId : Fin 65536) (key : Fin 4) (e : Nat) (en : XgemEntry), ((s.port p).enabled = true) ∧ s.flag R.PON_STAT_SYNC p =
    true ∧ ((s.port p).frozen = false) ∧ ((s.port p).findEntry false portId = some (e, en)) ∧ key.val = 0 ∧ en.encReq = true) ∧
  (∃ (s : State) (p : Fin 2) (portId : Fin 65536) (key : Fin 4) (e : Nat) (en : XgemEntry), ((s.port p).enabled = true) ∧ s.flag R.PON_STAT_SYNC p =
    true ∧ ((s.port p).frozen = false) ∧ ((s.port p).findEntry false portId = some (e, en)) ∧ key.val ≠ 0 ∧ s.xgemKey p en.bcast key = none) ∧
  (∃ (s : State) (p : Fin 2) (portId : Fin 65536) (key : Fin 4) (e : Nat) (en : XgemEntry), ((s.port p).enabled = true) ∧ s.flag R.PON_STAT_SYNC p =
    true ∧ ((s.port p).frozen = false) ∧ ((s.port p).findEntry false portId = some (e, en)) ∧ key.val ≠ 0 ∧ s.xgemKey p en.bcast key = none) ∧
  (∃ (s : State) (p : Fin 2) (portId : Fin 65536) (key : Fin 4) (e : Nat) (en : XgemEntry) (k : _), ((s.port p).enabled = true) ∧ s.flag
    R.PON_STAT_SYNC p = true ∧ ((s.port p).frozen = false) ∧ ((s.port p).findEntry false portId = some (e, en)) ∧ key.val ≠ 0 ∧ s.xgemKey p en.bcast
    key = some k ∧ en.encReq = false) ∧
  (∃ (s : State) (p : Fin 2) (portId : Fin 65536) (key : Fin 4) (payload : List Byte) (e : Nat) (en : XgemEntry), ((s.port p).enabled = true) ∧
    s.flag R.PON_STAT_SYNC p = true ∧ ((s.port p).frozen = false) ∧ ((s.port p).findEntry false portId = some (e, en)) ∧ key.val = 0 ∧ en.encReq =
    false ∧ (((s.port p).entry e).kind = 0 ∨ ((s.port p).entry e).kind = 1) ∧ s.bonded p e = false ∧ s.holdsOmci p e = false ∧ s.openSdu p e = none ∧
    (let a := s.alloc (portOwner p) ((s.port p).entry e).cls;
    a.status = Sc.ok ∧ payload.length ≤ 2 ^ (a.st.pclass ((s.port p).entry e).cls).size)) ∧
  (∃ (s : State) (p : Fin 2) (e : Fin 256) (b : OpenBlock), s.openBlock p e = some b) :=
  ⟨⟨px {}, 0, by decide +kernel⟩,
   ⟨{}, 0, by decide +kernel⟩,
   ⟨px { valid := true, portId := 5 }, 0, 6, by decide +kernel⟩,
   ⟨px { valid := true, portId := 5, encReq := true }, 0, 5, 0, 9, { valid := true, portId := 5, encReq := true }, by decide +kernel⟩,
   ⟨px { valid := true, portId := 5 }, 0, 5, 1, 9, { valid := true, portId := 5 }, by decide +kernel⟩,
   ⟨px { valid := true, portId := 5 }, 0, 5, 3, 9, { valid := true, portId := 5 }, by decide +kernel⟩,
   ⟨px { valid := true, portId := 65535 }, 0, 65535, 2, 9, { valid := true, portId := 65535 }, natBlock 77, by decide +kernel⟩,
   ⟨px { valid := true, portId := 5, kind := 1 } (pool1 {}), 0, 5, 0, List.replicate 4096 1, 9, { valid := true, portId := 5, kind := 1 },
     by decide +kernel⟩,
   ⟨pt { blocks := [⟨255, [], 0, [], 0⟩] }, 0, 255, ⟨255, [], 0, [], 0⟩, by decide +kernel⟩⟩

/-- Every hypothesis of SynchronisationMovesActivation is met. -/
theorem hyps_met_SynchronisationMovesActivation :
  (∃ (s : State) (p : Fin 2) (row : Fin 2 → Instr), (row = .ponSyncAcquired ∨ row = .ponSyncRegained) ∧ ((s.port p).enabled = true)) ∧
  (∃ (s : State) (p : Fin 2) (row : Fin 2 → Instr), (row = .ponSyncAcquired ∨ row = .ponSyncRegained) ∧ ((s.port p).enabled = true)) ∧
  (∃ (s : State) (p : Fin 2), s.flag R.PON_STAT_SYNC p = true) ∧
  (∃ (s : State) (p : Fin 2), (s.rg R.PON_STAT_OSTATE p = 2 ∨ s.rg R.PON_STAT_OSTATE p = 4) ∧ ((s.port p).to1 ≠ 0) ∧
    (let u := s.since (s.port p).to1 0;
    u.rg R.PON_STAT_OSTATE p = s.rg R.PON_STAT_OSTATE p)) ∧
  (∃ (s : State) (p : Fin 2), (s.rg R.PON_STAT_OSTATE p = 2 ∨ s.rg R.PON_STAT_OSTATE p = 4) ∧ ((s.port p).to1 ≠ 0) ∧
    (let u := s.since (s.port p).to1 0;
    u.rg R.PON_STAT_OSTATE p = s.rg R.PON_STAT_OSTATE p)) ∧
  (∃ (s : State) (p : Fin 2), s.rg R.PON_STAT_OSTATE p = 6 ∧
    (let u := s.since (s.port p).to2 0;
    u.rg R.PON_STAT_OSTATE p = 6)) :=
  ⟨⟨px {}, 0, .ponSyncAcquired, ⟨.inl rfl, by decide +kernel⟩⟩,
   ⟨px {}, 0, .ponSyncRegained, ⟨.inr rfl, by decide +kernel⟩⟩,
   ⟨px {}, 0, by decide +kernel⟩,
   ⟨rgs [(R.PON_STAT_OSTATE, 0, 2)] (pt { to1 := 1 }), 0, by decide +kernel⟩,
   ⟨rgs [(R.PON_STAT_OSTATE, 0, 4)] (pt { to1 := 1 }), 0, by decide +kernel⟩,
   ⟨rgs [(R.PON_STAT_OSTATE, 0, 6)], 0, by decide +kernel⟩⟩

/-- Every hypothesis of BurstsAreFixedSentAndEnded is met. -/
theorem hyps_met_BurstsAreFixedSentAndEnded :
  (∃ (s : State) (p : Fin 2), ((s.port p).enabled = true) ∧ s.rg R.PON_STAT_OSTATE p = 5) ∧
  (∃ (s : State) (p : Fin 2), s.rg R.PON_STAT_OSTATE p ≠ 5) ∧
  (∃ (s : State) (p : Fin 2) (b : Burst), ((s.port p).bursts.find? (fun b => !b.started) = some b) ∧
    (let u := s.reach b.start;
    u.flag R.PON_STAT_LASER p = true ∧ u.rg R.PON_STAT_OSTATE p = 5)) ∧
  (∃ (s : State) (p : Fin 2) (b : Burst), ((s.port p).bursts.find? (fun b => !b.started) = some b) ∧
    (let u := s.reach b.start;
    (u.flag R.PON_STAT_LASER p = false ∨ u.rg R.PON_STAT_OSTATE p ≠ 5))) ∧
  (∃ (s : State) (p : Fin 2) (b : Burst), ((s.port p).bursts.find? (·.started) = some b)) ∧
  (∃ (s : State) (p : Fin 2) (ns : Nat) (b : Burst), ((s.port p).bursts.find? (·.started) = some b) ∧
    (let u := s.reach (b.start + ns);
    ((s.port p).levelAck = true) ∧ u.rg R.OPT_STAT_STATE p = 3)) ∧
  (∃ (s : State) (p : Fin 2), s.rg R.PON_STAT_OSTATE p = 2) ∧
  (∃ (s : State) (p : Fin 2), s.rg R.PON_STAT_OSTATE p = 2 ∧ ((s.port p).snPend = true)) ∧
  (∃ (s : State) (p : Fin 2), s.rg R.PON_STAT_OSTATE p = 4 ∧ s.flag R.PON_STAT_LASER p = true) ∧
  (∃ (s : State) (p : Fin 2), s.rg R.PON_STAT_OSTATE p = 4 ∧ s.flag R.PON_STAT_LASER p = false) :=
  ⟨⟨rgs [(R.PON_STAT_OSTATE, 0, 5)] (px {}), 0, by decide +kernel⟩,
   ⟨rgs [(R.PON_STAT_OSTATE, 0, 4)] (px {}), 0, by decide +kernel⟩,
   ⟨rgs [(R.PON_STAT_OSTATE, 0, 5), (R.PON_STAT_LASER, 0, 1)] (pt { bursts := [bu false] }), 0, bu false, by decide +kernel⟩,
   ⟨rgs [(R.PON_STAT_OSTATE, 0, 5)] (pt { bursts := [bu false] }), 0, bu false, by decide +kernel⟩,
   ⟨pt { bursts := [bu true] }, 0, bu true, by decide +kernel⟩,
   ⟨rgs [(R.OPT_STAT_STATE, 0, 3)] (pt { bursts := [bu true], levelAck := true }), 0, 1, bu true, by decide +kernel⟩,
   ⟨rgs [(R.PON_STAT_OSTATE, 0, 2)], 0, by decide +kernel⟩,
   ⟨rgs [(R.PON_STAT_OSTATE, 0, 2)] (pt { snPend := true }), 0, by decide +kernel⟩,
   ⟨rgs [(R.PON_STAT_OSTATE, 0, 4), (R.PON_STAT_LASER, 0, 1)], 0, by decide +kernel⟩,
   ⟨rgs [(R.PON_STAT_OSTATE, 1, 4)], 1, by decide +kernel⟩⟩

/-- Every hypothesis of PloamDrivesActivation is met. -/
theorem hyps_met_PloamDrivesActivation :
  (∃ (s : State) (p : Fin 2), ((s.port p).enabled = true) ∧ s.warm = false) ∧
  (∃ (s : State) (p : Fin 2) (serial : List Byte) (msg : List Byte), ((s.port p).enabled = true) ∧ s.warm = false ∧
    (let u := s.copyPloam p msg;
    u.rg R.PON_STAT_OSTATE p = 2 ∧ serial = slice (u.port p).rec_ 24 8)) ∧
  (∃ (s : State) (p : Fin 2) (serial : List Byte) (msg : List Byte), ((s.port p).enabled = true) ∧ s.warm = false ∧
    (let u := s.copyPloam p msg;
    (u.rg R.PON_STAT_OSTATE p ≠ 2 ∨ serial ≠ slice (u.port p).rec_ 24 8))) ∧
  (∃ (s : State) (p : Fin 2) (serial : List Byte) (msg : List Byte), ((s.port p).enabled = true) ∧ s.warm = false ∧
    (let u := s.copyPloam p msg;
    (u.rg R.PON_STAT_OSTATE p ≠ 2 ∨ serial ≠ slice (u.port p).rec_ 24 8))) ∧
  (∃ (s : State) (p : Fin 2) (msg : List Byte), ((s.port p).enabled = true) ∧ s.warm = false ∧
    (let u := s.copyPloam p msg;
    u.rg R.PON_STAT_OSTATE p = 4)) ∧
  (∃ (s : State) (p : Fin 2) (msg : List Byte), ((s.port p).enabled = true) ∧ s.warm = false ∧
    (let u := s.copyPloam p msg;
    u.rg R.PON_STAT_OSTATE p = 5)) ∧
  (∃ (s : State) (p : Fin 2) (onu : Fin 1024) (msg : List Byte), ((s.port p).enabled = true) ∧ s.warm = false ∧
    (let u := s.copyPloam p msg;
    2 ≤ u.rg R.PON_STAT_OSTATE p ∧ u.rg R.PON_STAT_OSTATE p ≤ 6 ∧ (onu.val = 1023 ∨ (4 ≤ u.rg R.PON_STAT_OSTATE p ∧ onu.val = u.rg R.PON_STAT_ONU_ID
      p)))) ∧
  (∃ (s : State) (p : Fin 2) (onu : Fin 1024) (msg : List Byte), ((s.port p).enabled = true) ∧ s.warm = false ∧
    (let u := s.copyPloam p msg;
    2 ≤ u.rg R.PON_STAT_OSTATE p ∧ u.rg R.PON_STAT_OSTATE p ≤ 6 ∧ (onu.val = 1023 ∨ (4 ≤ u.rg R.PON_STAT_OSTATE p ∧ onu.val = u.rg R.PON_STAT_ONU_ID
      p)))) ∧
  (∃ (s : State) (p : Fin 2) (serial : Option (List Byte)) (msg : List Byte), ((s.port p).enabled = true) ∧ s.warm = false ∧
    (let u := s.copyPloam p msg;
    (serial = none ∨ serial = some (slice (u.port p).rec_ 24 8)))) ∧
  (∃ (s : State) (p : Fin 2) (serial : Option (List Byte)) (msg : List Byte), ((s.port p).enabled = true) ∧ s.warm = false ∧
    (let u := s.copyPloam p msg;
    (serial = none ∨ serial = some (slice (u.port p).rec_ 24 8)) ∧ u.rg R.PON_STAT_OSTATE p = 7)) ∧
  (∃ (s : State) (p : Fin 2) (index : Fin 4) (onu : Fin 1024) (eqd : BitVec 32) (disable : Bool) (serial : List Byte) (which : Option (List Byte))
    (profile : List Byte) (msg : List Byte) (i : _), i ∈ [Instr.ploamBurstProfile p index profile msg, .ploamAssignOnuId p onu serial msg,
    .ploamRangingTime p eqd msg, .ploamDeactivateOnuId p onu msg, .ploamDisableSerialNumber p disable which msg] ∧ ((s.port p).enabled = false)) :=
  ⟨⟨px {}, 0, by decide +kernel⟩,
   ⟨rgs [(R.PON_STAT_OSTATE, 0, 2)] (px {}), 0, [], [], by decide +kernel⟩,
   ⟨rgs [(R.PON_STAT_OSTATE, 0, 3)] (px {}), 0, [], [], by decide +kernel⟩,
   ⟨rgs [(R.PON_STAT_OSTATE, 0, 2)] (px {}), 0, [1], [], by decide +kernel⟩,
   ⟨rgs [(R.PON_STAT_OSTATE, 0, 4)] (px {}), 0, [], by decide +kernel⟩,
   ⟨rgs [(R.PON_STAT_OSTATE, 0, 5)] (px {}), 0, [], by decide +kernel⟩,
   ⟨rgs [(R.PON_STAT_OSTATE, 0, 2)] (px {}), 0, 1023, [], by decide +kernel⟩,
   ⟨rgs [(R.PON_STAT_OSTATE, 0, 6), (R.PON_STAT_ONU_ID, 0, 5)] (px {}), 0, 5, [], by decide +kernel⟩,
   ⟨px {}, 0, none, [], by decide +kernel⟩,
   ⟨rgs [(R.PON_STAT_OSTATE, 0, 7)] (px {}), 0, some [], [], by decide +kernel⟩,
   ⟨{}, 1, 3, 1023, 0, true, [], none, [], [], Instr.ploamDisableSerialNumber 1 true none [], by decide +kernel⟩⟩

/-- Every hypothesis of PloamRequestsAreAnswered is met. -/
theorem hyps_met_PloamRequestsAreAnswered :
  (∃ (s : State) (p : Fin 2), ((s.port p).enabled = true) ∧ s.warm = false) ∧
  (∃ (s : State) (p : Fin 2) (msg : List Byte), ((s.port p).enabled = true) ∧ s.warm = false ∧
    (let u := s.copyPloam p msg;
    u.psOn p = true ∧ u.rg R.PON_STAT_PM p = 0)) ∧
  (∃ (s : State) (p : Fin 2) (msg : List Byte), ((s.port p).enabled = true) ∧ s.warm = false ∧
    (let u := s.copyPloam p msg;
    u.psOn p = true ∧ u.rg R.PON_STAT_PM p = 1)) ∧
  (∃ (s : State) (p : Fin 2) (msg : List Byte), ((s.port p).enabled = true) ∧ s.warm = false ∧
    (let u := s.copyPloam p msg;
    u.psOn p = true ∧ (u.rg R.PON_STAT_PM p = 2 ∨ u.rg R.PON_STAT_PM p = 3))) ∧
  (∃ (s : State) (p : Fin 2) (msg : List Byte), ((s.port p).enabled = true) ∧ s.warm = false ∧
    (let u := s.copyPloam p msg;
    u.psOn p = true ∧ (u.rg R.PON_STAT_PM p = 2 ∨ u.rg R.PON_STAT_PM p = 3))) ∧
  (∃ (s : State) (p : Fin 2), ((s.port p).enabled = true) ∧ s.warm = true) :=
  ⟨⟨px {}, 0, by decide +kernel⟩,
   ⟨ps 0, 0, [], by decide +kernel⟩,
   ⟨ps 1, 0, [], by decide +kernel⟩,
   ⟨ps 2, 0, [], by decide +kernel⟩,
   ⟨ps 3, 0, [], by decide +kernel⟩,
   ⟨{ px {} with warm := true }, 0, by decide +kernel⟩⟩

/-- Every hypothesis of PowerSavingAndKeySwitch is met. -/
theorem hyps_met_PowerSavingAndKeySwitch :
  (∃ (s : State) (p : Fin 2), s.rg R.PON_STAT_PM p = 1 ∧ s.psOn p = true ∧ s.psCalm p = true ∧ ((s.port p).sleepQ = none) ∧ ((s.port p).bursts.all
    (fun b => b.sleep.isNone) = true)) ∧
  (∃ (s : State) (p : Fin 2), (s.rg R.PON_STAT_PM p ≠ 1 ∨ s.psOn p = false ∨ s.psCalm p = false)) ∧
  (∃ (s : State) (p : Fin 2), (s.rg R.PON_STAT_PM p ≠ 1 ∨ s.psOn p = false ∨ s.psCalm p = false)) ∧
  (∃ (s : State) (p : Fin 2), s.rg R.PON_STAT_PM p = 2) ∧
  (∃ (s : State) (p : Fin 2), s.rg R.PON_STAT_PM p = 3) ∧
  (∃ (s : State) (p : Fin 2), s.rg R.PON_STAT_PM p = 0) ∧
  (∃ (s : State) (p : Fin 2), s.rg R.PON_STAT_PM p ≠ 0) ∧
  (∃ (s : State) (p : Fin 2) (i : Nat) (k : Nat) (at_ : Option Nat), ((s.port p).keyNew = some (i, k, at_)) ∧ (∀ a, at_ = some a → ∃ n, (s.port p).sf
    = some n ∧ a ≤ n)) ∧
  (∃ (s : State) (p : Fin 2) (i : Nat) (k : Nat) (at_ : Option Nat) (a : _) (n : _), ((s.port p).keyNew = some (i, k, at_)) ∧ at_ = some a ∧ ((s.port
    p).sf = some n) ∧ n < a) :=
  ⟨⟨ps 1, 0, by decide +kernel⟩,
   ⟨ps 2, 0, by decide +kernel⟩,
   ⟨rgs [(R.PON_STAT_PM, 0, 1)], 0, by decide +kernel⟩,
   ⟨ps 2, 0, by decide +kernel⟩,
   ⟨ps 3, 0, by decide +kernel⟩,
   ⟨ps 0, 0, by decide +kernel⟩,
   ⟨ps 1, 0, by decide +kernel⟩,
   ⟨pt { keyNew := some (1, 5, some 3), sf := some 3 }, 0, 1, 5, some 3,
     ⟨by decide +kernel, fun a h => ⟨3, by decide +kernel, by simp only [Option.some.injEq] at h; omega⟩⟩⟩,
   ⟨pt { keyNew := some (2, 5, some 3), sf := some 2 }, 0, 2, 5, some 3, 3, 2, by decide +kernel⟩⟩

/-- Every hypothesis of DefectsPersistAndSecondsLatch is met. -/
theorem hyps_met_DefectsPersistAndSecondsLatch :
  (∃ (s : State) (p : Fin 2) (d : Fin 8), d.val < 3 ∧ ((s.port p).mode ≠ 0) ∧ ((s.port p).frozen = false) ∧ ((s.defect p d).st = .clear)) ∧
  (∃ (s : State) (p : Fin 2) (d : Fin 8), d.val < 3 ∧ ((s.port p).mode ≠ 0) ∧ ((s.port p).frozen = false) ∧ ((s.defect p d).st = .entering)) ∧
  (∃ (s : State) (p : Fin 2) (d : Fin 8), d.val < 3 ∧ ((s.port p).mode ≠ 0) ∧ ((s.port p).frozen = false) ∧ ((s.defect p d).st = .declared)) ∧
  (∃ (s : State) (p : Fin 2) (d : Fin 8), d.val < 3 ∧ ((s.port p).mode ≠ 0) ∧ ((s.port p).frozen = false) ∧ ((s.defect p d).st = .leaving)) ∧
  (∃ (s : State) (p : Fin 2) (d : Fin 8), d.val < 3 ∧ ((s.port p).frozen = false) ∧ ((s.defect p d).st = .entering)) ∧
  (∃ (s : State) (p : Fin 2) (d : Fin 8), d.val < 3 ∧ ((s.port p).frozen = false) ∧ ((s.defect p d).st = .leaving)) :=
  ⟨⟨df 2 .clear, 0, 2, by decide +kernel⟩,
   ⟨df 0 .entering, 0, 0, by decide +kernel⟩,
   ⟨df 0 .declared, 0, 0, by decide +kernel⟩,
   ⟨df 2 .leaving, 0, 2, by decide +kernel⟩,
   ⟨df 1 .entering, 0, 1, by decide +kernel⟩,
   ⟨df 1 .leaving, 0, 1, by decide +kernel⟩⟩

/-- Every hypothesis of BondedSequencesAndTributaries is met. -/
theorem hyps_met_BondedSequencesAndTributaries :
  (∃ (s : State) (portId : Fin 65536) (ex : Nat) (h : HeldSdu), ((s.bondPort portId).expect = some ex) ∧ ((s.bondPort portId).nearest ex = some h)) ∧
  (∃ (s : State) (p : Fin 2) (c : Nat), vget s.bond.clearAt p = some c ∧ (s.bndState = 3 ∨ s.bndState = 4) ∧ s.isMember p = false ∧ s.inO5 p = true ∧
    64 ≤ s.bond.count ∧ s.skewNs.natAbs ≤ 40000 ∧ p.val ∉ s.bond.readmit) ∧
  (∃ (s : State) (t : Fin 16), s.flag R.FRT_STAT_EN t = true ∧ ((s.frt t).up = true)) ∧
  (∃ (s : State) (p : Fin 2) (e : Fin 256) (sdu : List Byte) (n : Nat), s.frtOf p e = some n ∧
    (let x := s.frt n;

    (let ok := crc8 (sdu.take 7) == rec8 sdu 7 && recF sdu 5 0 14 == x.n && sdu.length == 8 + x.n && recF sdu 0 0 4 == n && (recF sdu 0 4 1 == 1) == x.slip;
    ok = false))) ∧
  (∃ (s : State) (p : Fin 2) (e : Fin 256) (sdu : List Byte) (n : Nat), s.frtOf p e = some n ∧
    (let x := s.frt n;

    (let ok := crc8 (sdu.take 7) == rec8 sdu 7 && recF sdu 5 0 14 == x.n && sdu.length == 8 + x.n && recF sdu 0 0 4 == n && (recF sdu 0 4 1 == 1) == x.slip;
    ok = true ∧ (x.port ≠ 2 ∨ x.lastSeq ≠ some (rec8 sdu 1))))) :=
  ⟨⟨{ bond := { down := [{ portId := 5, expect := some 1, held := [⟨0, 0, 3, [], 0⟩] }] } }, 5, 1, ⟨0, 0, 3, [], 0⟩, by decide +kernel⟩,
   ⟨rgs [(R.BND_STAT_STATE, 0, 4), (R.PON_STAT_OSTATE, 1, 5)] { bond := { clearAt := Vector.replicate 2 (some 0), count := 64, skews := [-40000] } },
     1, 0, by decide +kernel⟩,
   ⟨frt0 { up := true }, 0, by decide +kernel⟩,
   ⟨frt0 { entry := 255, port := 2 }, 1, 255, [], 0, by decide +kernel⟩,
   ⟨frt0 {}, 0, 0, frtSdu, 0, by decide +kernel⟩⟩

/-- Every hypothesis of OpticsMoveThroughTheirStates is met. -/
theorem hyps_met_OpticsMoveThroughTheirStates :
  (∃ (s : State) (p : Fin 2), s.rg R.OPT_STAT_STATE p = 0) ∧
  (∃ (s : State) (p : Fin 2), s.rg R.OPT_STAT_STATE p = 1) ∧
  (∃ (s : State) (p : Fin 2), s.rg R.OPT_STAT_STATE p = 2) ∧
  (∃ (s : State) (p : Fin 2), s.rg R.OPT_STAT_STATE p = 3) ∧
  (∃ (s : State) (p : Fin 2), s.rg R.OPT_STAT_STATE p ≠ 3) ∧
  (∃ (s : State) (p : Fin 2), ((s.optic p).txHold = true)) ∧
  (∃ (s : State) (p : Fin 2), s.rg R.OPT_STAT_STATE p ≠ 0) ∧
  (∃ (s : State) (p : Fin 2), (s.rg R.OPT_STAT_STATE p = 3 ∨ s.rg R.OPT_STAT_STATE p = 5)) ∧
  (∃ (s : State) (p : Fin 2), (s.rg R.OPT_STAT_STATE p = 3 ∨ s.rg R.OPT_STAT_STATE p = 5) ∧ ((s.optic p).ledgerS ≤ (s.optic p).sinceWrite) ∧
    ((s.optic p).ledger ≠ []) ∧ s.flag R.PWR_RAIL_PWR_FAIL = false ∧ s.flag R.OPT_STAT_LEDGER_RO p = false) :=
  ⟨⟨{}, 1, by decide +kernel⟩,
   ⟨op { rec_ := [] } [(R.OPT_STAT_STATE, 0, 1)], 0, by decide +kernel⟩,
   ⟨op { rec_ := [] } [(R.OPT_STAT_STATE, 0, 2)], 0, by decide +kernel⟩,
   ⟨op { rec_ := [] } [(R.OPT_STAT_STATE, 0, 3)], 0, by decide +kernel⟩,
   ⟨op { rec_ := [] } [(R.OPT_STAT_STATE, 0, 5)], 0, by decide +kernel⟩,
   ⟨op { rec_ := [], txHold := true } [], 0, by decide +kernel⟩,
   ⟨op { rec_ := [] } [(R.OPT_STAT_STATE, 0, 4)], 0, by decide +kernel⟩,
   ⟨op { rec_ := [] } [(R.OPT_STAT_STATE, 0, 5)], 0, by decide +kernel⟩,
   ⟨op { rec_ := opticDefaults, sinceWrite := 3600, ledger := List.replicate 56 0 } [(R.OPT_STAT_STATE, 0, 3)], 0, by decide +kernel⟩⟩

/-- Every hypothesis of KeysAndTheSharedLock is met. -/
theorem hyps_met_KeysAndTheSharedLock :
  (∃ (s : State), s.cipher.holder = none) ∧
  (∃ (s : State) (h : Nat), s.cipher.holder = some h) ∧
  (∃ (s : State) (u : Fin 8), s.cipher.holder = some u.val ∧ s.cipher.jobs.any (·.2.2) = false) ∧
  (∃ (s : State) (u : Fin 8), s.cipher.holder = some u.val ∧ s.cipher.jobs.any (·.2.2) = true) ∧
  (∃ (s : State) (u : Fin 8), s.cipher.holder ≠ some u.val) ∧
  (∃ (s : State) (h : Nat), s.cipher.holder = some h ∧
    (let queued := s.host.cmds.any (fun c => c.user == h && c.opcode == 0x70 && !c.done && c.arg 8 4 2 != 0);
    queued = true)) ∧
  (∃ (s : State) (h : Nat), s.cipher.holder = some h ∧
    (let queued := s.host.cmds.any (fun c => c.user == h && c.opcode == 0x70 && !c.done && c.arg 8 4 2 != 0);
    queued = false)) ∧
  (∃ (s : State) (u : Fin 8) (slot : Fin 16) (len : Fin 2) (usage : Fin 32), s.commitBad u slot len usage = false) ∧
  (∃ (s : State) (u : Fin 8) (slot : Fin 16) (len : Fin 2) (usage : Fin 32), s.commitBad u slot len usage = false) ∧
  (∃ (s : State) (u : Fin 8) (slot : Fin 16) (len : Fin 2) (usage : Fin 32), s.commitBad u slot len usage = true) ∧
  (∃ (s : State) (u : Fin 8) (slot : Fin 16) (len : Fin 2) (usage : Fin 32), s.commitBad u slot len usage = true) ∧
  (∃ (s : State) (u : Fin 8) (slot : Fin 16), s.slotBusy u slot = false ∧ (slot.val < 8 ∨ u = 0)) ∧
  (∃ (s : State) (u : Fin 8) (slot : Fin 16), s.slotBusy u slot = false ∧ (slot.val < 8 ∨ u = 0)) ∧
  (∃ (s : State) (u : Fin 8) (slot : Fin 16), (s.slotBusy u slot = true ∨ (8 ≤ slot.val ∧ u ≠ 0))) ∧
  (∃ (s : State) (u : Fin 8) (slot : Fin 16), (s.slotBusy u slot = true ∨ (8 ≤ slot.val ∧ u ≠ 0))) :=
  ⟨⟨{}, by decide +kernel⟩,
   ⟨lk (some 7) 0, 7, by decide +kernel⟩,
   ⟨lk (some 7) 0, 7, by decide +kernel⟩,
   ⟨{ fl [] with cipher := { holder := some 7, jobs := [(0, 7, true)] } }, 7, by decide +kernel⟩,
   ⟨lk (some 0) 0, 7, by decide +kernel⟩,
   ⟨lk (some 0) 1, 0, by decide +kernel⟩,
   ⟨lk (some 0) 0, 0, by decide +kernel⟩,
   ⟨{}, 7, 7, 1, 16, by decide +kernel⟩,
   ⟨{}, 0, 8, 0, 0, by decide +kernel⟩,
   ⟨{}, 0, 10, 0, 1, by decide +kernel⟩,
   ⟨{}, 0, 0, 0, 16, by decide +kernel⟩,
   ⟨{}, 7, 7, by decide +kernel⟩,
   ⟨{}, 0, 15, by decide +kernel⟩,
   ⟨{}, 1, 8, by decide +kernel⟩,
   ⟨ky none 0, 0, 0, by decide +kernel⟩⟩

/-- Every hypothesis of CipherOperationsRun is met. -/
theorem hyps_met_CipherOperationsRun :
  (∃ (s : State) (ring : Fin 64) (cid : Fin 65536) (c : Cmd), Ready s ring cid 0x70 c ∧ s.rg R.PST_STAT_STATE ≠ 2 ∧ ((started s c).cipherFieldsOk c =
    true) ∧ (c.part = 0 ∨ s.cipher.holder = some c.user)) ∧
  (∃ (s : State) (ring : Fin 64) (cid : Fin 65536) (c : Cmd), Ready s ring cid 0x70 c ∧ s.rg R.PST_STAT_STATE ≠ 2 ∧ ((started s c).cipherFieldsOk c =
    true) ∧ (c.part = 0 ∨ s.cipher.holder = some c.user)) ∧
  (∃ (s : State) (ring : Fin 64) (cid : Fin 65536) (c : Cmd), Ready s ring cid 0x70 c ∧ s.rg R.PST_STAT_STATE ≠ 2 ∧ ((started s c).cipherFieldsOk c =
    true) ∧ c.part ≠ 0 ∧ s.cipher.holder ≠ some c.user) ∧
  (∃ (s : State) (ring : Fin 64) (cid : Fin 65536) (c : Cmd), Ready s ring cid 0x70 c ∧ s.rg R.PST_STAT_STATE ≠ 2 ∧ ((started s c).cipherFieldsOk c =
    false)) ∧
  (∃ (s : State) (ring : Fin 64) (cid : Fin 65536) (c : Cmd) (key : List Nat), s.coreRuns = true ∧ TheCmd s ring cid c ∧ s.cipher.jobs.find? (fun j
    => j.1 == ring.val && j.2.1 == cid.val) = some (ring.val, cid.val, false) ∧ c.part = 0 ∧ c.mode < 4 ∧ s.slotKey c.user c.slot = some key ∧ 0 <
    c.len ∧ 0 < c.paramLen ∧ s.inMem c.csrc c.len = true ∧ s.inMem c.cparam c.paramLen = true ∧ inWindows c.csrc c.len = false ∧ inWindows c.cparam
    c.paramLen = false ∧ s.mem.bad = [] ∧
    (let par := (s.bytes c.cparam c.paramLen).map (·.toNat);

    (let x := newSession c (par.take 16);
    c.lengthOk 0 = true ∧ c.ctrOk x.chain = true ∧
    (let o := (cipherRun key c x ((s.bytes c.csrc c.len).map (·.toNat)) []).1.map (BitVec.ofNat 8);
    s.inMem c.cdst o.length = true)))) ∧
  (∃ (s : State) (ring : Fin 64) (cid : Fin 65536) (c : Cmd) (kek : List Nat), Ready s ring cid 0x71 c ∧ c.user = 0 ∧ c.only [(8, 0, 1), (9, 0, 2),
    (16, 0, 128)] = true ∧ (c.arg 9 0 2 = 1 ∨ c.arg 9 0 2 = 2) ∧ s.slotKey 0 (kekSlot (c.arg 8 0 1)) = some kek) ∧
  (∃ (s : State) (ring : Fin 64) (cid : Fin 65536) (c : Cmd) (kek : List Nat), Ready s ring cid 0x71 c ∧ c.user = 0 ∧ c.only [(8, 0, 1), (9, 0, 2),
    (16, 0, 128)] = true ∧ (c.arg 9 0 2 = 1 ∨ c.arg 9 0 2 = 2) ∧ s.slotKey 0 (kekSlot (c.arg 8 0 1)) = some kek) :=
  ⟨⟨ky none 0, 0, 7, cbc 0, by decide +kernel⟩,
   ⟨ky (some 0) 1, 0, 7, cbc 1, by decide +kernel⟩,
   ⟨ky none 3, 0, 7, cbc 3, by decide +kernel⟩,
   ⟨fl [(cm 0x70 [(8, 0, 7)])], 0, 7, (cm 0x70 [(8, 0, 7)]), by decide +kernel⟩,
   ⟨ky none 0, 0, 7, cbc 0, List.replicate 16 1, by decide +kernel⟩,
   ⟨fl [(cm 0x71 [(9, 0, 1)])] ({ cipher := { keys := [(9, List.replicate 16 1)] } }), 0, 7, (cm 0x71 [(9, 0, 1)]), List.replicate 16 1,
     by decide +kernel⟩,
   ⟨fl [(cm 0x71 [(8, 0, 1), (9, 0, 2)])] ({ cipher := { keys := [(13, List.replicate 16 1)] } }), 0, 7, (cm 0x71 [(8, 0, 1), (9, 0, 2)]),
     List.replicate 16 1, by decide +kernel⟩⟩

/-- Every hypothesis of DoorbellsAndFetch is met. -/
theorem hyps_met_DoorbellsAndFetch :
  (∃ (s : State) (fn : Fin 8) (n : Fin 64) (v : Fin 1024), s.ownPage fn n = true ∧ ((s.ring n).st = .active) ∧ v.val < (s.ring n).sqSize) ∧
  (∃ (s : State) (fn : Fin 8) (n : Fin 64) (v : Fin 1024), s.ownPage fn n = true ∧ ((s.ring n).st = .active) ∧ ((s.ring n).sqSize ≤ v.val)) ∧
  (∃ (s : State) (fn : Fin 8) (n : Fin 64) (v : Fin 1024) (i : _), s.ownPage fn n = false ∧ i ∈ [Instr.sqTailWrite fn n v, .cqHeadWrite fn n v]) ∧
  (∃ (s : State) (fn : Fin 8) (n : Fin 64) (v : Fin 1024) (i : _), s.ownPage fn n = false ∧ i ∈ [Instr.sqTailWrite fn n v, .cqHeadWrite fn n v]) ∧
  (∃ (s : State) (fn : Fin 8) (n : Fin 64) (v : Fin 1024), s.ownPage fn n = true ∧ ((s.ring n).st = .active) ∧
    (let r := s.ring n;

    (let ok := v.val < r.cqSize ∧ (v.val + r.cqSize - r.cqHead) % r.cqSize ≤ (r.cqTail + r.cqSize - r.cqHead) % r.cqSize;
    ok))) ∧
  (∃ (s : State) (fn : Fin 8) (n : Fin 64) (v : Fin 1024), s.ownPage fn n = true ∧ ((s.ring n).st = .active) ∧
    (let r := s.ring n;

    (let ok := v.val < r.cqSize ∧ (v.val + r.cqSize - r.cqHead) % r.cqSize ≤ (r.cqTail + r.cqSize - r.cqHead) % r.cqSize;
    ¬ ok))) ∧
  (∃ (s : State) (fn : Fin 8) (n : Fin 64) (v : Fin 1024), s.ownPage fn n = true ∧ ((s.ring n).st = .active) ∧
    (let r := s.ring n;

    (let ok := v.val < r.cqSize ∧ (v.val + r.cqSize - r.cqHead) % r.cqSize ≤ (r.cqTail + r.cqSize - r.cqHead) % r.cqSize;
    ¬ ok))) ∧
  (∃ (s : State), s.fetchStopped = false ∧ s.nextRing = none) ∧
  (∃ (s : State) (n : Nat) (b : List Byte), s.fetchStopped = false ∧ s.nextRing = some n ∧ b.length = 64 ∧ s.host.cmds.any (fun c => c.ring == n &&
    c.cid == rec16 b 2) = false ∧ rec8 b 0 ∈ opcodes ∧ recF b 1 1 7 = 0 ∧ rec32 b 4 = 0) ∧
  (∃ (s : State) (n : Nat) (b : List Byte), s.fetchStopped = false ∧ s.nextRing = some n ∧ b.length = 64 ∧ s.host.cmds.any (fun c => c.ring == n &&
    c.cid == rec16 b 2) = false ∧ (rec8 b 0 ∉ opcodes ∨ recF b 1 1 7 ≠ 0 ∨ rec32 b 4 ≠ 0)) ∧
  (∃ (s : State) (n : Nat) (b : List Byte), s.fetchStopped = false ∧ s.nextRing = some n ∧ b.length = 64 ∧ s.host.cmds.any (fun c => c.ring == n &&
    c.cid == rec16 b 2) = false ∧ (rec8 b 0 ∉ opcodes ∨ recF b 1 1 7 ≠ 0 ∨ rec32 b 4 ≠ 0)) ∧
  (∃ (s : State) (n : Nat) (tag : Nat), s.fetchStopped = false ∧ s.nextRing = some n ∧ tag < 1024 ∧ s.tagBusy tag = false) :=
  ⟨⟨r5, 1, 5, 3, by decide +kernel⟩,
   ⟨r5, 1, 5, 4, by decide +kernel⟩,
   ⟨r5, 0, 5, 0, Instr.cqHeadWrite 0 5 0, by decide +kernel⟩,
   ⟨r5, 1, 6, 1023, Instr.sqTailWrite 1 6 1023, by decide +kernel⟩,
   ⟨r5, 1, 5, 1, by decide +kernel⟩,
   ⟨r5, 1, 5, 4, by decide +kernel⟩,
   ⟨r5, 1, 5, 2, by decide +kernel⟩,
   ⟨fl [], by decide +kernel⟩,
   ⟨r5, 5, leBytes 64 1, by decide +kernel⟩,
   ⟨r5, 5, leBytes 64 0x15, by decide +kernel⟩,
   ⟨r5, 5, leBytes 64 0x8001, by decide +kernel⟩,
   ⟨r5, 5, 1023, by decide +kernel⟩⟩

/-- Every hypothesis of ReadsTagsAndVectors is met. -/
theorem hyps_met_ReadsTagsAndVectors :
  (∃ (s : State) (tag : Fin 1024), s.host.reads.find? (fun r => r.tag == tag.val && r.until_.isNone) = none) ∧
  (∃ (s : State) (tag : Fin 1024) (bytes : List Byte) (r : HostRead), s.host.reads.find? (fun r => r.tag == tag.val && r.until_.isNone) = some r ∧
    bytes.length ≠ r.len) ∧
  (∃ (s : State) (tag : Fin 1024) (bytes : List Byte) (r : HostRead) (ring : Nat) (cid : Nat) (c : Cmd), s.host.reads.find? (fun r => r.tag ==
    tag.val && r.until_.isNone) = some r ∧ r.for_ = .cmd ring cid ∧ TheCmd s ring cid c ∧ bytes.length = r.len) ∧
  (∃ (s : State) (tag : Fin 1024) (r : HostRead) (ring : Nat) (cid : Nat) (c : Cmd) (status : CplStatus), s.host.reads.find? (fun r => r.tag ==
    tag.val && r.until_.isNone) = some r ∧ r.for_ = .cmd ring cid ∧ TheCmd s ring cid c ∧ status ≠ .ok) ∧
  (∃ (s : State) (tag : Fin 1024) (r : HostRead) (ring : Nat) (cid : Nat) (c : Cmd), s.host.reads.find? (fun r => r.tag == tag.val &&
    r.until_.isNone) = some r ∧ r.for_ = .cmd ring cid ∧ TheCmd s ring cid c) ∧
  (∃ (s : State) (tag : Fin 1024) (r : HostRead) (e : Nat), s.host.reads.find? (fun r => r.tag == tag.val && r.until_.isSome) = some r ∧ r.until_ =
    some e) ∧
  (∃ (s : State) (n : Fin 64), ((s.ring n).st ≠ .absent) ∧ ((s.ringCoal n).2.2 = true) ∧ 0 < (s.ring n).unsig) :=
  ⟨⟨{}, 1023, by decide +kernel⟩,
   ⟨rd (hr (.cmd 0 7)), 1023, [], hr (.cmd 0 7), by decide +kernel⟩,
   ⟨rd (hr (.cmd 0 7)), 1023, [1, 2], hr (.cmd 0 7), 0, 7, cm 1, by decide +kernel⟩,
   ⟨rd (hr (.cmd 0 7)), 1023, hr (.cmd 0 7), 0, 7, cm 1, CplStatus.ur, by decide +kernel⟩,
   ⟨rd (hr (.cmd 0 7)), 1023, hr (.cmd 0 7), 0, 7, cm 1, by decide +kernel⟩,
   ⟨rd (hr (.cmd 0 7) (some 5)), 1023, hr (.cmd 0 7) (some 5), 5, by decide +kernel⟩,
   ⟨r5 { st := .faulted, irqEn := 1, unsig := 1 }, 5, by decide +kernel⟩⟩

/-- Every hypothesis of LinkAndRingZero is met. -/
theorem hyps_met_LinkAndRingZero :
  (∃ (s : State), s.host.linkUp = true) ∧
  (∃ (s : State), s.host.linkUp = false) ∧
  (∃ (s : State), s.flag R.RST_STAT_IN_RESET = false ∧ s.boot.perst = false) ∧
  (∃ (s : State), (s.flag R.RST_STAT_IN_RESET = true ∨ s.boot.perst = true)) ∧
  (∃ (s : State) (fn : Fin 8), s.host.linkUp = true ∧ ((vget s.host.fns fn).bme = false)) ∧
  (∃ (s : State), ((s.ring 0).st = .absent) ∧ s.hqValid = true) ∧
  (∃ (s : State), ((s.ring 0).st = .absent) ∧ s.hqValid = false) ∧
  (∃ (s : State), ((s.ring 0).st ≠ .absent)) ∧
  (∃ (s : State), ((s.ring 0).st = .active ∨ (s.ring 0).st = .faulted)) ∧
  (∃ (s : State), s.pst.bench = true) ∧
  (∃ (s : State), s.host.linkUp = true ∧ s.host.l1 = 0) :=
  ⟨⟨fl [], by decide +kernel⟩,
   ⟨{}, by decide +kernel⟩,
   ⟨{}, by decide +kernel⟩,
   ⟨{ boot := { perst := true } }, by decide +kernel⟩,
   ⟨{ host := { linkUp := true } }, 7, by decide +kernel⟩,
   ⟨rgs [(R.HQ_SIZE_SQ_SIZE, 0, 2), (R.HQ_SIZE_CQ_SIZE, 0, 1024)], by decide +kernel⟩,
   ⟨rgs [(R.HQ_SIZE_SQ_SIZE, 0, 1), (R.HQ_SIZE_CQ_SIZE, 0, 64)], by decide +kernel⟩,
   ⟨fl [], by decide +kernel⟩,
   ⟨fl [], by decide +kernel⟩,
   ⟨{ pst := { bench := true } }, by decide +kernel⟩,
   ⟨fl [], by decide +kernel⟩⟩

/-- Every hypothesis of FunctionResetsClearOneUser is met. -/
theorem hyps_met_FunctionResetsClearOneUser :
  (∃ (s : State) (u : Fin 8), s.resetReaches = true ∧ u ≠ 0 ∧ s.host.vfEn = true) ∧
  (∃ (s : State) (u : Fin 8), s.resetReaches = true ∧ u ≠ 0 ∧ s.host.vfEn = false) ∧
  (∃ (s : State), s.resetReaches = false) ∧
  (∃ (s : State), Inv s ∧ s.resetReaches = true ∧ s.boot.reset = none) ∧
  (∃ (s : State), s.host.vfEn = true) ∧
  (∃ (s : State), s.host.vfEn = false) ∧
  (∃ (s : State) (fn : Fin 8) (t0 : Nat), ((vget s.host.fns fn).downAt = some t0) ∧
    (let k := s.rg R.HQ_CTL_LINK_HOLD;

    (let u := s.since t0 ((if k = 0 then 10 else k) * 10000000);
    u.resetReaches = true ∧ fn ≠ 0))) ∧
  (∃ (s : State) (fn : Fin 8) (t0 : Nat), Inv s ∧ ((vget s.host.fns fn).downAt = some t0) ∧
    (let k := s.rg R.HQ_CTL_LINK_HOLD;

    (let u := s.since t0 ((if k = 0 then 10 else k) * 10000000);
    u.resetReaches = true ∧ fn = 0 ∧ s.boot.reset = none))) ∧
  (∃ (s : State) (fn : Fin 8) (t0 : Nat), ((vget s.host.fns fn).downAt = some t0) ∧
    (let k := s.rg R.HQ_CTL_LINK_HOLD;

    (let u := s.since t0 ((if k = 0 then 10 else k) * 10000000);
    u.resetReaches = false))) :=
  ⟨⟨on [] r5, 7, by decide +kernel⟩,
   ⟨on, 1, by decide +kernel⟩,
   ⟨{}, by decide +kernel⟩,
   ⟨on, inv_of (by decide +kernel) (by decide +kernel), by decide +kernel⟩,
   ⟨r5, by decide +kernel⟩,
   ⟨{}, by decide +kernel⟩,
   ⟨on [] { host := { fns := Vector.replicate 8 { downAt := some 0 } } }, 7, 0, by decide +kernel⟩,
   ⟨on [] { host := { fns := Vector.replicate 8 { downAt := some 0 } } }, 0, 0, inv_of (by decide +kernel) (by decide +kernel), by decide +kernel⟩,
   ⟨{ host := { fns := Vector.replicate 8 { downAt := some 0 } } }, 0, 0, by decide +kernel⟩⟩

/-- Every hypothesis of StartsResetsAndPins is met. -/
theorem hyps_met_StartsResetsAndPins :
  (∃ (s : State), s.rgBit R.PWR_RAIL_OK 0 = true ∧ s.boot.latched = false ∧ s.boot.started.testBit 0 = true) ∧
  (∃ (s : State), s.rgBit R.PWR_RAIL_OK 0 = true ∧ s.boot.latched = false ∧ s.boot.started.testBit 0 = false ∧ s.boot.started.testBit 7 = true) ∧
  (∃ (s : State), s.pst.off = false ∧ s.boot.sysRst = false ∧ s.boot.latched = true) ∧
  (∃ (s : State), s.boot.sysRst = false) ∧
  (∃ (s : State), s.boot.sysRst = true ∧ s.pwr.failStage = 0 ∧ s.pwr.seq = .on ∧ s.rg R.VRC_FLT_STATE = 0 ∧ 4 ≤ s.rg R.VRC_CFG_PH_CNT ∧ s.rg
    R.VRC_CFG_PH_CNT ≤ 12) ∧
  (∃ (s : State), s.boot.sysRst = true ∧ s.pwr.failStage = 0 ∧ s.pwr.seq = .on ∧ s.rg R.VRC_FLT_STATE = 0 ∧ 4 ≤ s.rg R.VRC_CFG_PH_CNT ∧ s.rg
    R.VRC_CFG_PH_CNT ≤ 12) ∧
  (∃ (s : State), s.boot.sysRst = true ∧ s.pwr.failStage = 0 ∧ s.pwr.seq = .off) ∧
  (∃ (s : State), s.pst.off = false ∧ s.boot.perst = false ∧ s.pst.bench = false ∧ s.vcoreOn = true ∧ s.boot.stop = none) ∧
  (∃ (s : State), s.pst.off = false ∧ s.boot.perst = false ∧ s.pst.bench = false ∧ (s.vcoreOn = false ∨ s.boot.stop ≠ none)) ∧
  (∃ (s : State), s.pst.wakeN = false) ∧
  (∃ (s : State), s.pst.wakeN = true) ∧
  (∃ (s : State), Inv s ∧ s.resetReaches = true ∧ s.boot.reset = none) ∧
  (∃ (s : State), s.resetReaches = false) ∧
  (∃ (fn : Fin 8), fn ≠ 0) ∧
  (∃ (s : State), Inv s ∧ s.resetReaches = true ∧ s.boot.reset = none ∧ s.flag R.RST_STAT_IN_RESET = false ∧ s.host.crs = false) ∧
  (∃ (s : State) (t0 : Nat) (k : Nat), s.boot.reset = some (t0, k)) ∧
  (∃ (s : State), s.vcoreOn = true ∧ s.boot.dumpMode = false ∧ (∀ w, s.boot.wdog = some w → w + 1000000000 < s.tk.localNs)) ∧
  (∃ (s : State) (w : _), s.vcoreOn = true ∧ s.boot.dumpMode = false ∧ s.boot.wdog = some w ∧ s.tk.localNs ≤ w + 1000000000 ∧ s.boot.stop = none) ∧
  (∃ (s : State), s.mayBoot = false) ∧
  (∃ (s : State), Inv s ∧ s.mayBoot = true ∧ s.boot.stop = none ∧ s.boot.started = 0 ∧ s.warm = true) ∧
  (∃ (s : State) (r : List Byte), Inv s ∧ s.mayBoot = true ∧ s.boot.stop = none ∧ s.warm = false ∧ (s.boot.started = 1 ∨ s.boot.started = 2) ∧
    s.flashFitted = true ∧ boardOk (fitBytes 512 r) = true) :=
  ⟨⟨rgs [(R.PWR_RAIL_OK, 0, 1)] { boot := { started := 1 } }, by decide +kernel⟩,
   ⟨rgs [(R.PWR_RAIL_OK, 0, 1)] { boot := { started := 128 } }, by decide +kernel⟩,
   ⟨{ boot := { latched := true } }, by decide +kernel⟩,
   ⟨{}, by decide +kernel⟩,
   ⟨rgs [(R.VRC_CFG_PH_CNT, 0, 12)] { boot := { sysRst := true }, pwr := { seq := .on } }, by decide +kernel⟩,
   ⟨rgs [(R.VRC_CFG_PH_CNT, 0, 4)] { boot := { sysRst := true }, pwr := { seq := .on } }, by decide +kernel⟩,
   ⟨{ boot := { sysRst := true } }, by decide +kernel⟩,
   ⟨on, by decide +kernel⟩,
   ⟨{}, by decide +kernel⟩,
   ⟨{}, by decide +kernel⟩,
   ⟨{ pst := { wakeN := true } }, by decide +kernel⟩,
   ⟨on, inv_of (by decide +kernel) (by decide +kernel), by decide +kernel⟩,
   ⟨{}, by decide +kernel⟩,
   ⟨7, by decide +kernel⟩,
   ⟨b0, inv_of (by decide +kernel) (by decide +kernel), by decide +kernel⟩,
   ⟨{ boot := { reset := some (5, 3) } }, 5, 3, by decide +kernel⟩,
   ⟨on, ⟨by decide +kernel, by decide +kernel, fun w h => by cases h⟩⟩,
   ⟨on [] { boot := { wdog := some 0 }, tk := { localNs := 1000000000 } }, 0, by decide +kernel⟩,
   ⟨{}, by decide +kernel⟩,
   ⟨on [] { boot := { latched := true }, warm := true }, inv_of (by decide +kernel) (by decide +kernel), by decide +kernel⟩,
   ⟨on [] { boot := { latched := true, started := 2 } }, board, inv_of (by decide +kernel) (by decide +kernel),
     ⟨by decide +kernel, by decide +kernel, by decide +kernel, by decide +kernel, by decide +kernel, board_ok⟩⟩⟩

/-- Every hypothesis of BykPortsMoveThroughTheirStates is met. -/
theorem hyps_met_BykPortsMoveThroughTheirStates :
  (∃ (s : State) (q : Fin 4), s.rgBit R.BYK_CTL_PORT_EN q = false ∧ s.rg R.BYK_PORT_STATE q = 0) ∧
  (∃ (s : State) (q : Fin 4), s.rgBit R.BYK_CTL_PORT_EN q = true) ∧
  (∃ (s : State) (q : Fin 4), s.rg R.BYK_PORT_STATE q = 6) ∧
  (∃ (s : State) (q : Fin 4), s.rg R.BYK_PORT_STATE q ≠ 6) ∧
  (∃ (s : State) (q : Fin 4), s.rg R.BYK_PORT_STATE q = 1) ∧
  (∃ (s : State) (q : Fin 4), s.rg R.BYK_PORT_STATE q = 1) ∧
  (∃ (s : State) (q : Fin 4), s.rg R.BYK_PORT_STATE q = 2) ∧
  (∃ (s : State) (q : Fin 4), s.portUp q = true) ∧
  (∃ (s : State) (q : Fin 4), s.portUp q = false) ∧
  (∃ (s : State) (q : Fin 4), s.rg R.BYK_PORT_STATE q = 3) :=
  ⟨⟨{}, 3, by decide +kernel⟩,
   ⟨rgs [(R.BYK_CTL_PORT_EN, 0, 8)], 3, by decide +kernel⟩,
   ⟨rgs [(R.BYK_PORT_STATE, 3, 6)], 3, by decide +kernel⟩,
   ⟨{}, 3, by decide +kernel⟩,
   ⟨rgs [(R.BYK_PORT_STATE, 3, 1)], 3, by decide +kernel⟩,
   ⟨rgs [(R.BYK_PORT_STATE, 0, 1)], 0, by decide +kernel⟩,
   ⟨rgs [(R.BYK_PORT_STATE, 3, 2)], 3, by decide +kernel⟩,
   ⟨rgs [(R.BYK_PORT_STATE, 3, 4)], 3, by decide +kernel⟩,
   ⟨rgs [(R.BYK_PORT_STATE, 3, 5)], 3, by decide +kernel⟩,
   ⟨rgs [(R.BYK_PORT_STATE, 3, 3)], 3, by decide +kernel⟩⟩

/-- Every hypothesis of ParcelsAreAcknowledgedOrReplayed is met. -/
theorem hyps_met_ParcelsAreAcknowledgedOrReplayed :
  (∃ (s : State) (q : Fin 4) (unc : Nat), s.portUp q = true ∧ (((s.bport q).unc ++ List.replicate unc s.tk.localNs).countP (fun x => decide
    (s.tk.localNs ≤ x + 1000000)) < 4)) ∧
  (∃ (s : State) (q : Fin 4) (unc : Nat), s.portUp q = true ∧ 4 ≤ ((s.bport q).unc ++ List.replicate unc s.tk.localNs).countP (fun x => decide
    (s.tk.localNs ≤ x + 1000000))) ∧
  (∃ (s : State) (q : Fin 4) (seq : Fin 4096), s.portUp q = true ∧ seq.val = (s.bport q).rx ∧ ((s.bport q).unc = [])) ∧
  (∃ (s : State) (q : Fin 4), s.portUp q = true ∧ 0 < (s.bport q).unacked) :=
  ⟨⟨rgs [(R.BYK_PORT_STATE, 3, 4)], 3, 3, by decide +kernel⟩,
   ⟨rgs [(R.BYK_PORT_STATE, 3, 4)], 3, 4, by decide +kernel⟩,
   ⟨rgs [(R.BYK_PORT_STATE, 3, 4)], 3, 0, by decide +kernel⟩,
   ⟨rgs [(R.BYK_PORT_STATE, 3, 4)] { byk := { ports := Vector.replicate 4 { unacked := 1 } } }, 3, by decide +kernel⟩⟩

/-- Every hypothesis of LaneEntriesWriteTheirResult is met. -/
theorem hyps_met_LaneEntriesWriteTheirResult_1 :
  (∃ (s : State) (n : Fin 8) (upsets : List Nat) (slot : Nat) (v : Nat) (i : Nat) (h : Heat) (e : List Byte) (ts : List (Array Byte)) (w : State),
    AtEntry s n 1 slot v h i e ∧ (((s.upset upsets).bindLane n slot).readTensors h (mmaTensors e) = (some ts, w)) ∧
    (let prev := (vget s.lanes n).acc.find? (fun b => b.heat == slot && b.tensor == eTO e);
    ((vget s.lanes n).tilesUsed + (if prev.isSome then 0 else if eLastK e then tilesOf e else tilesOf e * (eM e * eN e)) ≤ 8))) :=
  ⟨at0 mma1, 0, [], 0, 0, 0, ht [], mma1, (ops mma1 (mmaTensors mma1)).1.getD [], (ops mma1 (mmaTensors mma1)).2,
     ⟨by decide +kernel, pair_eq (by decide +kernel), by decide +kernel⟩⟩

/-- Every hypothesis of LaneEntriesWriteTheirResult is met. -/
theorem hyps_met_LaneEntriesWriteTheirResult_2 :
  (∃ (s : State) (n : Fin 8) (upsets : List Nat) (slot : Nat) (v : Nat) (i : Nat) (h : Heat) (e : List Byte) (ts : List (Array Byte)) (w : State),
    AtEntry s n 1 slot v h i e ∧ (((s.upset upsets).bindLane n slot).readTensors h (mmaTensors e) = (some ts, w)) ∧
    (let prev := (vget s.lanes n).acc.find? (fun b => b.heat == slot && b.tensor == eTO e);
    ((vget s.lanes n).tilesUsed + (if prev.isSome then 0 else if eLastK e then tilesOf e else tilesOf e * (eM e * eN e)) ≤ 8))) :=
  ⟨at0 (en 1), 0, [], 0, 0, 0, ht [], (en 1), (ops (en 1) (mmaTensors (en 1))).1.getD [], (ops (en 1) (mmaTensors (en 1))).2,
     ⟨by decide +kernel, pair_eq (by decide +kernel), by decide +kernel⟩⟩

/-- Every hypothesis of LaneEntriesWriteTheirResult is met. -/
theorem hyps_met_LaneEntriesWriteTheirResult_3 :
  (∃ (s : State) (n : Fin 8) (upsets : List Nat) (slot v i : Nat) (h : Heat) (e : List Byte) (bs : List (Array Byte)) (w : State), AtEntry s n 2 slot
    v h i e ∧ ((s.upset upsets).bindLane n slot).readTensors h (fieldTensors e) = (some bs, w)) :=
  ⟨at0 (en 2), 0, [], 0, 0, 0, ht [], en 2, (ops (en 2) (fieldTensors (en 2))).1.getD [], (ops (en 2) (fieldTensors (en 2))).2, by decide +kernel,
     pair_eq (by decide +kernel)⟩

/-- Every hypothesis of LaneEntriesWriteTheirResult is met. -/
theorem hyps_met_LaneEntriesWriteTheirResult_4 :
  (∃ (s : State) (n : Fin 8) (upsets : List Nat) (slot v i : Nat) (h : Heat) (e : List Byte) (bs : List (Array Byte)) (w : State), AtEntry s n 3 slot
    v h i e ∧ ((s.upset upsets).bindLane n slot).readTensors h (tensorsA e) = (some bs, w)) :=
  ⟨at0 (en 3), 0, [], 0, 0, 0, ht [], en 3, (ops (en 3) (tensorsA (en 3))).1.getD [], (ops (en 3) (tensorsA (en 3))).2, by decide +kernel, pair_eq
     (by decide +kernel)⟩

/-- Every hypothesis of LaneEntriesWriteTheirResult is met. -/
theorem hyps_met_LaneEntriesWriteTheirResult_5 :
  (∃ (s : State) (n : Fin 8) (upsets : List Nat) (slot v i : Nat) (h : Heat) (e : List Byte) (bs : List (Array Byte)) (w : State), AtEntry s n 4 slot
    v h i e ∧ ((s.upset upsets).bindLane n slot).readTensors h (tensorsA e) = (some bs, w)) :=
  ⟨at0 (en 4), 0, [], 0, 0, 0, ht [], en 4, (ops (en 4) (tensorsA (en 4))).1.getD [], (ops (en 4) (tensorsA (en 4))).2, by decide +kernel, pair_eq
     (by decide +kernel)⟩

/-- Every hypothesis of LaneEntriesWriteTheirResult is met. -/
theorem hyps_met_LaneEntriesWriteTheirResult_6 :
  (∃ (s : State) (n : Fin 8) (upsets : List Nat) (slot v i : Nat) (h : Heat) (e : List Byte) (bs : List (Array Byte)) (w : State), AtEntry s n 5 slot
    v h i e ∧ ((s.upset upsets).bindLane n slot).readTensors h (tensorsA e ++ [(ePT e, if ePercol e then 16 * eCols e else 0)]) = (some bs, w)) :=
  ⟨at0 (en 5), 0, [], 0, 0, 0, ht [], en 5, (ops (en 5) (tensorsA (en 5) ++ [(0, 0)])).1.getD [], (ops (en 5) (tensorsA (en 5) ++ [(0, 0)])).2,
     by decide +kernel, pair_eq (by decide +kernel)⟩

/-- Every hypothesis of LaneControlEntriesAndStates is met. -/
theorem hyps_met_LaneControlEntriesAndStates :
  (∃ (s : State) (n : Fin 8) (slot : Nat) (v : Nat) (i : Nat) (a : Nat) (b : Nat) (h : Heat) (e : List Byte), AtEntry s n 6 slot v h i e ∧
    ((h.vl.getD v {}).isHeld = false) ∧ s.entryFree (h.finish != 0) = true ∧ s.xfers = [] ∧
    (let d := (progTemplates (s.imageOf h)).getD (eDesc e) [];
    d.length = 64 ∧ dKind d = 0 ∧ h.resolveRef (rec64 d 0) = some a ∧ h.resolveRef (rec64 d 8) = some b)) ∧
  (∃ (s : State) (n : Fin 8) (slot : Nat) (v : Nat) (i : Nat) (h : Heat) (e : List Byte) (k : Nat) (tok : Token), AtEntry s n 7 slot v h i e ∧ eRel e
    = false ∧ h.tokens.find? (fun p => p.1 == eTok e) = some (k, tok) ∧ tok.final = true ∧ tok.status = Sc.ok) ∧
  (∃ (s : State) (n : Fin 8) (slot : Nat) (v : Nat) (i : Nat) (tp : Nat) (h : Heat) (e : List Byte), AtEntry s n 8 slot v h i e ∧ h.tapOf e = some tp
    ∧ ((h.tap tp).inReady = true)) ∧
  (∃ (s : State) (n : Fin 8) (slot : Nat) (v : Nat) (i : Nat) (tp : Nat) (h : Heat) (e : List Byte), AtEntry s n 9 slot v h i e ∧ h.tapOf e = some tp
    ∧ s.heatXfers slot = []) ∧
  (∃ (s : State) (n : Fin 8) (slot : Nat) (v : Nat) (i : Nat) (h : Heat) (e : List Byte), AtEntry s n 0 slot v h i e) ∧
  (∃ (s : State) (n : Fin 8) (slot : Nat) (h : Heat), s.rg R.LANE_STAT_STATE n = 0 ∧ s.heatList.find? (fun p => p.2.live && p.2.mask.testBit n &&
    (List.range p.2.vl.length).any (fun v => s.laneOf p.2 v == n && (p.2.vl.getD v {}).run == .ready)) = some (slot, h)) ∧
  (∃ (s : State) (n : Fin 8), s.rg R.LANE_STAT_STATE n = 1 ∧ s.flag R.LANE_CTL_IDLE_GATE = true ∧ s.flag R.LANE_STAT_BOUND n = false) ∧
  (∃ (s : State) (n : Fin 8), (s.rg R.LANE_STAT_STATE n = 1 ∨ s.rg R.LANE_STAT_STATE n = 2) ∧ s.flag R.LANE_STAT_BOUND n = false ∧ s.xfers.filter
    (fun x => x.engine == n.val || dKind x.desc == 1) = []) ∧
  (∃ (s : State) (n : Fin 8), (s.rg R.LANE_STAT_STATE n = 1 ∨ s.rg R.LANE_STAT_STATE n = 2) ∧ s.flag R.LANE_STAT_BOUND n = false ∧ s.xfers.filter
    (fun x => x.engine == n.val || dKind x.desc == 1) = []) ∧
  (∃ (s : State) (n : Fin 8), s.rg R.LANE_STAT_STATE n = 3 ∧ s.flag R.LANE_STAT_HELD n = false ∧ s.xfers.filter (fun x => x.engine == n.val || dKind
    x.desc == 1) = []) ∧
  (∃ (s : State) (n : Fin 8), s.flag R.LANE_STAT_BOUND n = false ∧ s.rg R.LANE_STAT_STATE n ≠ 4 ∧ s.xfers.filter (fun x => x.engine == n.val || dKind
    x.desc == 1) = []) ∧
  (∃ (s : State) (n : Fin 8), s.rg R.LANE_STAT_STATE n = 4) :=
  ⟨⟨at0 (en 6) hy [(5, List.replicate 64 0)], 0, 0, 0, 0, 0x8000000, 0x8000000, hy, en 6, by decide +kernel⟩,
   ⟨at0 (en 7) { ht [] with tokens := [(0, ⟨0, 0, 0, 0, true, 0, 0, 0⟩)] }, 0, 0, 0, 0, { ht [] with tokens := [(0, ⟨0, 0, 0, 0, true, 0, 0, 0⟩)] },
     en 7, 0, ⟨0, 0, 0, 0, true, 0, 0, 0⟩, by decide +kernel⟩,
   ⟨at0 (en 8) (ht [] .running [{}] [{ st := .open_, inReady := true }]), 0, 0, 0, 0, 0, ht [] .running [{}] [{ st := .open_, inReady := true }], en
     8, by decide +kernel⟩,
   ⟨at0 (en 9) (ht [] .running [{}] [{ st := .open_ }]), 0, 0, 0, 0, 0, ht [] .running [{}] [{ st := .open_ }], en 9, by decide +kernel⟩,
   ⟨at0 (en 0), 0, 0, 0, 0, ht [], en 0, by decide +kernel⟩,
   ⟨rgs [(R.LANE_STAT_STATE, 0, 0)] (at0 (en 0)), 0, 0, ht [], by decide +kernel⟩,
   ⟨rgs [(R.LANE_STAT_STATE, 7, 1), (R.LANE_CTL_IDLE_GATE, 0, 1)], 7, by decide +kernel⟩,
   ⟨rgs [(R.LANE_STAT_STATE, 7, 2)], 7, by decide +kernel⟩,
   ⟨rgs [(R.LANE_STAT_STATE, 0, 1)], 0, by decide +kernel⟩,
   ⟨rgs [(R.LANE_STAT_STATE, 7, 3)], 7, by decide +kernel⟩,
   ⟨rgs [(R.LANE_STAT_STATE, 7, 3)], 7, by decide +kernel⟩,
   ⟨rgs [(R.LANE_STAT_STATE, 7, 4)], 7, by decide +kernel⟩⟩

/-- Every hypothesis of FencesSignalsAndBarriers is met. -/
theorem hyps_met_FencesSignalsAndBarriers :
  (∃ (s : State) (n : Fin 8) (slot : Nat) (v : Nat) (i : Nat) (h : Heat) (e : List Byte), AtEntry s n 10 slot v h i e ∧ eFn e = 0 ∧ (yScope e = 0 ∨
    s.fenced slot v (yScope e) = true)) ∧
  (∃ (s : State) (n : Fin 8) (slot : Nat) (v : Nat) (i : Nat) (h : Heat) (e : List Byte), AtEntry s n 10 slot v h i e ∧ eFn e = 0 ∧ yScope e ≠ 0 ∧
    s.fenced slot v (yScope e) = false) ∧
  (∃ (s : State) (n : Fin 8) (slot : Nat) (v : Nat) (i : Nat) (a : Nat) (h : Heat) (e : List Byte), AtEntry s n 10 slot v h i e ∧ eFn e = 1 ∧ (yScope
    e = 0 ∨ s.fenced slot v (yScope e) = true) ∧ h.signal e = some a ∧ (yGlobal e = false ∨ yDev e = s.dev) ∧ s.inMem a 8 = true) ∧
  (∃ (s : State) (n : Fin 8) (slot : Nat) (v : Nat) (i : Nat) (a : Nat) (h : Heat) (e : List Byte), AtEntry s n 10 slot v h i e ∧ eFn e = 1 ∧ (yScope
    e = 0 ∨ s.fenced slot v (yScope e) = true) ∧ h.signal e = some a ∧ yGlobal e = true ∧ yDev e ≠ s.dev ∧ s.bykNotReady (yDev e) = false) ∧
  (∃ (s : State) (n : Fin 8) (slot : Nat) (v : Nat) (i : Nat) (a : Nat) (h : Heat) (e : List Byte), AtEntry s n 10 slot v h i e ∧ eFn e = 2 ∧ (yScope
    e = 0 ∨ s.fenced slot v (yScope e) = true) ∧ h.signal e = some a ∧ (yGlobal e = false ∨ yDev e = s.dev) ∧ s.hasBad a 8 = false) ∧
  (∃ (s : State) (n : Fin 8) (slot : Nat) (v : Nat) (i : Nat) (a : Nat) (h : Heat) (e : List Byte), AtEntry s n 10 slot v h i e ∧ eFn e = 2 ∧ (yScope
    e = 0 ∨ s.fenced slot v (yScope e) = true) ∧ h.signal e = some a ∧ yGlobal e = true ∧ yDev e ≠ s.dev ∧ s.bykNotReady (yDev e) = false) ∧
  (∃ (s : State) (n : Fin 8) (slot : Nat) (v : Nat) (i : Nat) (a : Nat) (h : Heat) (e : List Byte), AtEntry s n 10 slot v h i e ∧ eFn e = 3 ∧
    h.signal e = some a ∧ s.hasBad a 8 = false ∧ yValue e ≤ leNat (s.bytes a 8)) ∧
  (∃ (s : State) (n : Fin 8) (slot : Nat) (v : Nat) (i : Nat) (a : Nat) (h : Heat) (e : List Byte), AtEntry s n 10 slot v h i e ∧ eFn e = 3 ∧
    h.signal e = some a ∧ s.hasBad a 8 = false ∧ yValue e ≤ leNat (s.bytes a 8) ∧ ((h.vl.getD v {}).heldFor 11 = true)) ∧
  (∃ (s : State) (n : Fin 8) (slot : Nat) (v : Nat) (i : Nat) (a : Nat) (h : Heat) (e : List Byte), AtEntry s n 10 slot v h i e ∧ eFn e = 3 ∧
    h.signal e = some a ∧ s.hasBad a 8 = false ∧ leNat (s.bytes a 8) < yValue e) ∧
  (∃ (s : State) (n : Fin 8) (slot : Nat) (v : Nat) (i : Nat) (t0 : Nat) (h : Heat) (e : List Byte), AtEntry s n 10 slot v h i e ∧ eFn e = 3 ∧
    ((h.vl.getD v {}).run = .held 11 t0) ∧ h.radio = true) ∧
  (∃ (s : State) (n : Fin 8) (slot : Nat) (v : Nat) (i : Nat) (h : Heat) (e : List Byte), AtEntry s n 10 slot v h i e ∧ eFn e = 4 ∧ (yScope e = 0 ∨
    s.fenced slot v (yScope e) = true) ∧ yDev e = s.dev ∧ s.rg R.SYN_BAR_STATE (yBarrier e) = 0 ∧ 1 < yExpect e ∧ yExpect e < 1024) ∧
  (∃ (s : State) (n : Fin 8) (slot : Nat) (v : Nat) (i : Nat) (h : Heat) (e : List Byte), AtEntry s n 10 slot v h i e ∧ eFn e = 5 ∧ ((h.vl.getD v
    {}).heldFor 12 = false) ∧ (yScope e = 0 ∨ s.fenced slot v (yScope e) = true) ∧ yDev e = s.dev ∧ s.rg R.SYN_BAR_STATE (yBarrier e) = 0 ∧ 1 <
    yExpect e ∧ yExpect e < 1024) ∧
  (∃ (s : State) (n : Fin 8) (slot : Nat) (v : Nat) (i : Nat) (d : Nat) (b : Nat) (h : Heat) (e : List Byte), AtEntry s n 10 slot v h i e ∧ eFn e = 6
    ∧ s.laneOf h v = n.val ∧ ((h.vl.getD v {}).gen = some (d, b, 0))) ∧
  (∃ (s : State) (src : Fin 64) (b : Fin 128) (seq : Nat) (expect : Nat), s.flag R.BYK_CFG_READY = true ∧ seq = seqNext (s.peer src).lastAcc ∧ s.rg
    R.SYN_BAR_STATE b = 1 ∧ s.rg R.SYN_BAR_EXPECT b = expect ∧ expect < 1024 ∧ s.rg R.SYN_BAR_COUNT b + 1 < expect) ∧
  (∃ (s : State) (src : Fin 64) (b : Fin 128) (seq : Nat) (slot : Nat) (i : Nat) (h : Heat) (x : VLane) (e : List Byte), s.flag R.BYK_CFG_READY =
    true ∧ seq = seqNext (s.peer src).lastAcc ∧ s.heatList = [(slot, h)] ∧ h.vl = [x] ∧ x.gen = some (src.val, b.val, 1) ∧ x.heldFor 12 = true ∧
    h.nextEntry (s.imageOf h) 0 = some (i, e)) ∧
  (∃ (s : State) (src : Fin 64) (b : Fin 128) (seq : Nat) (slot : Nat) (i : Nat) (h : Heat) (x : VLane) (e : List Byte), s.flag R.BYK_CFG_READY =
    true ∧ seq = seqNext (s.peer src).lastAcc ∧ s.heatList = [(slot, h)] ∧ h.vl = [x] ∧ x.gen = some (src.val, b.val, 1) ∧ x.heldFor 12 = true ∧
    h.nextEntry (s.imageOf h) 0 = some (i, e) ∧ h.radio = true) ∧
  (∃ (s : State) (d : Fin 64) (b : Fin 128), d.val = s.dev ∧ s.rg R.SYN_BAR_STATE b = 1) ∧
  (∃ (s : State) (b : Fin 128), s.rg R.SYN_BAR_STATE b = 2) :=
  ⟨⟨at0 (en 10), 0, 0, 0, 0, ht [], en 10, by decide +kernel⟩,
   ⟨{ at0 (en 10 [(24, 0, 3)]) with xfers := [xf (de) .moving] }, 0, 0, 0, 0, ht [], en 10 [(24, 0, 3)], by decide +kernel⟩,
   ⟨at0 (en 10 [(4, 4, 1)]) hy, 0, 0, 0, 0, 0x8000000, hy, en 10 [(4, 4, 1)], by decide +kernel⟩,
   ⟨at0 (en 10 [(4, 4, 1), (24, 2, 1), (25, 7, 1)]) hy [] nb, 0, 0, 0, 0, 0x8000000, hy, en 10 [(4, 4, 1), (24, 2, 1), (25, 7, 1)],
     by decide +kernel⟩,
   ⟨at0 (en 10 [(4, 4, 2)]) hy, 0, 0, 0, 0, 0x8000000, hy, en 10 [(4, 4, 2)], by decide +kernel⟩,
   ⟨at0 (en 10 [(4, 4, 2), (24, 2, 1), (25, 7, 1)]) hy [] nb, 0, 0, 0, 0, 0x8000000, hy, en 10 [(4, 4, 2), (24, 2, 1), (25, 7, 1)],
     by decide +kernel⟩,
   ⟨at0 (en 10 [(4, 4, 3)]) hy, 0, 0, 0, 0, 0x8000000, hy, en 10 [(4, 4, 3)], by decide +kernel⟩,
   ⟨at0 (en 10 [(4, 4, 3)]) (hy (.held 11 0)), 0, 0, 0, 0, 0x8000000, hy (.held 11 0), en 10 [(4, 4, 3)], by decide +kernel⟩,
   ⟨at0 (en 10 [(4, 4, 3), (32, 0, 1)]) hy, 0, 0, 0, 0, 0x8000000, hy, en 10 [(4, 4, 3), (32, 0, 1)], by decide +kernel⟩,
   ⟨at0 (en 10 [(4, 4, 3)]) (hy (.held 11 5) [(48, 19, 1)]), 0, 0, 0, 0, 5, hy (.held 11 5) [(48, 19, 1)], en 10 [(4, 4, 3)], by decide +kernel⟩,
   ⟨at0 (en 10 [(4, 4, 4), (26, 0, 1023)]), 0, 0, 0, 0, ht [], en 10 [(4, 4, 4), (26, 0, 1023)], by decide +kernel⟩,
   ⟨at0 (en 10 [(4, 4, 5), (26, 0, 2)]), 0, 0, 0, 0, ht [], en 10 [(4, 4, 5), (26, 0, 2)], by decide +kernel⟩,
   ⟨at0 (en 10 [(4, 4, 6)]) (hy .ready [] (some (1, 3, 0))), 0, 0, 0, 0, 1, 3, hy .ready [] (some (1, 3, 0)), en 10 [(4, 4, 6)], by decide +kernel⟩,
   ⟨nb [(R.SYN_BAR_STATE, 127, 1), (R.SYN_BAR_EXPECT, 127, 3), (R.SYN_BAR_COUNT, 127, 1)], 1, 127, 1, 3, by decide +kernel⟩,
   ⟨at0 (en 10) (hy (.held 12 0) [] (some (1, 3, 1))) [] nb, 1, 3, 1, 0, 0, hy (.held 12 0) [] (some (1, 3, 1)),
     { run := .held 12 0, gen := some (1, 3, 1) }, en 10, by decide +kernel⟩,
   ⟨at0 (en 10) (hy (.held 12 0) [(48, 19, 1)] (some (1, 3, 1))) [] nb, 1, 3, 1, 0, 0, hy (.held 12 0) [(48, 19, 1)] (some (1, 3, 1)),
     { run := .held 12 0, gen := some (1, 3, 1) }, en 10, by decide +kernel⟩,
   ⟨rgs [(R.SYN_BAR_STATE, 127, 1)], 0, 127, by decide +kernel⟩,
   ⟨rgs [(R.SYN_BAR_STATE, 0, 2)], 0, by decide +kernel⟩⟩

/-- Every hypothesis of TransfersMoveAndReport is met. -/
theorem hyps_met_TransfersMoveAndReport :
  (∃ (s : State) (x : Xfer), ((match (s.xfers.filter (fun y => y.st = .queued)).find? (·.reserved) with | some y => some y | none => (s.xfers.filter
    (fun y => y.st = .queued)).head?) = some x) ∧ s.entryFree x.reserved = true ∧ s.xferOk x = true ∧ dKind x.desc = 0 ∧ s.xfer? x.id = some x) ∧
  (∃ (s : State) (x : Xfer), ((match (s.xfers.filter (fun y => y.st = .queued)).find? (·.reserved) with | some y => some y | none => (s.xfers.filter
    (fun y => y.st = .queued)).head?) = some x) ∧ s.entryFree x.reserved = true ∧ s.xferOk x = true ∧ dKind x.desc = 0 ∧ s.xfer? x.id = some x) ∧
  (∃ (s : State) (x : Xfer), s.xfer? x.id = some x ∧ x.st = .admitted ∧ dKind x.desc = 0 ∧ s.mayMove x = true ∧ s.remoteSrc x.desc = false ∧
    s.mem.bad = []) ∧
  (∃ (s : State) (x : Xfer) (slot : Nat) (v : Nat), s.xfer? x.id = some x ∧ s.coreRuns = true ∧ x.st = .moving ∧ x.ended = none ∧ dPair x.desc = true
    ∧ x.chunk + 1 < dChunks x.desc ∧ x.free.getD (x.chunk % 2) true = true ∧ x.issuer = .heat slot v ∧ ((s.heat slot).isSome = true) ∧ x.tokenAddr =
    none ∧ s.remoteSrc x.desc = false ∧ s.foreignSrc x.desc = false ∧ s.foreignDst x.desc = false ∧ dMirror x.desc = false ∧ s.mem.bad = [] ∧
    (let o := chunkOffs x.desc x.chunk;

    (let bs := (o.1.flatMap (fun (k : Int) => s.bytes (((dSrc x.desc % 2 ^ 46 : Nat) : Int) + k).toNat (dWidth x.desc))).take (dChunkBytes x.desc);

    (let a := dDst x.desc % 2 ^ 46 + x.chunk % 2 * dPairOff x.desc;
    s.inMem a bs.length = true)))) ∧
  (∃ (s : State) (x : Xfer) (slot : Nat) (v : Nat), s.xfer? x.id = some x ∧ s.coreRuns = true ∧ x.st = .moving ∧ x.ended = none ∧ dPair x.desc =
    false ∧ dKind x.desc = 0 ∧ x.issuer = .heat slot v ∧ ((s.heat slot).isSome = true) ∧ x.tokenAddr = none ∧ s.remoteSrc x.desc = false ∧
    s.foreignSrc x.desc = false ∧ s.foreignDst x.desc = false ∧ dMirror x.desc = false ∧ x.acks = 0 ∧ x.ackFail = 0 ∧ s.mem.bad = [] ∧
    (let bs := ((offsOf x.desc 5).flatMap (fun (k : Int) => s.bytes (((dSrc x.desc % 2 ^ 46 : Nat) : Int) + k).toNat (dWidth x.desc))).take (dTotal x.desc);

    (let a := dDst x.desc % 2 ^ 46;
    s.inMem a bs.length = true ∧ a < windowBase))) :=
  ⟨⟨xs (xf (de [(56, 2, 1)]) .queued (.cmd 0 7)), xf (de [(56, 2, 1)]) .queued (.cmd 0 7), by decide +kernel⟩,
   ⟨xs { xf (de [(56, 2, 1)]) .queued (.cmd 0 7) with reserved := true }, { xf (de [(56, 2, 1)]) .queued (.cmd 0 7) with reserved := true },
     by decide +kernel⟩,
   ⟨xs (xf de .admitted), xf de .admitted, by decide +kernel⟩,
   ⟨xs (xf (de [(56, 11, 1), (60, 0, 64), (20, 0, 1)]) .moving), xf (de [(56, 11, 1), (60, 0, 64), (20, 0, 1)]) .moving, 0, 0, by decide +kernel⟩,
   ⟨xs (xf de .moving), xf de .moving, 0, 0, by decide +kernel⟩⟩

/-- Every hypothesis of BatonChainsReachEveryMember is met. -/
theorem hyps_met_BatonChainsReachEveryMember :
  (∃ (s : State) (x : Xfer), s.xfer? x.id = some x ∧ x.st = .admitted ∧ dKind x.desc = 1 ∧ s.rg R.BATON_STAT_ACTIVE < 4 ∧ (∀ n, n < 8 →
    x.members.testBit n = true → s.rg R.LANE_STAT_STATE n = 1 ∨ s.rg R.LANE_STAT_STATE n = 2) ∧ s.mayMove x = true ∧ s.remoteSrc x.desc = false) ∧
  (∃ (s : State) (x : Xfer) (slot : Nat) (v : Nat), s.xfer? x.id = some x ∧ s.coreRuns = true ∧ x.st = .moving ∧ dKind x.desc = 1 ∧ x.relayWait =
    false ∧ x.inbound = [] ∧ x.issuer = .heat slot v ∧ ((s.heat slot).isSome = true) ∧ x.tokenAddr = none ∧ x.running = true ∧ s.remoteSrc x.desc =
    false ∧ s.foreignSrc x.desc = false ∧ dMirror x.desc = false ∧ dRelayEn x.desc = false ∧ s.mem.bad = [] ∧ x.failed = 0 ∧ x.members = dMembers
    x.desc ∧
    (let bs := (offsOf x.desc 5).flatMap (fun (k : Int) => s.bytes (((dSrc x.desc % 2 ^ 46 : Nat) : Int) + k).toNat (dWidth x.desc));
    dDst x.desc % 2 ^ 24 + bs.length ≤ 2 ^ 24)) :=
  ⟨⟨xs { xf (de [(56, 0, 1), (60, 0, 1)]) .admitted with members := 1 } (ht []) (rgs [(R.LANE_STAT_STATE, 0, 1)]),
     { xf (de [(56, 0, 1), (60, 0, 1)]) .admitted with members := 1 }, by decide +kernel⟩,
   ⟨xs { xf (rb 64 [(0, 0, 0x8000000), (56, 0, 1), (60, 0, 1)]) .moving with members := 1, running := true },
     { xf (rb 64 [(0, 0, 0x8000000), (56, 0, 1), (60, 0, 1)]) .moving with members := 1, running := true }, 0, 0, by decide +kernel⟩⟩

/-- Every hypothesis of RemoteAccessesAreServed is met. -/
theorem hyps_met_RemoteAccessesAreServed :
  (∃ (s : State) (src : Fin 64) (q : Nat), s.route src = some q) ∧
  (∃ (s : State) (src : Fin 64) (xid : Fin 65536) (r : RemoteRead), r ∈ s.byk.reads ∧ r.xid = xid ∧ r.dev = src ∧ r.got = none ∧ (∀ y ∈ s.byk.reads,
    y.xid = xid.val → y.dev = src.val → y.got = none → y = r)) ∧
  (∃ (s : State) (src : Fin 64) (seq : Nat) (epoch : Fin 65536) (addr : Nat), epoch.val = s.epoch ∧ s.flag R.BYK_CFG_READY = true ∧ seq = seqNext
    (s.peer src).lastAcc ∧ s.inMem addr 8 = true ∧ addr % 8 = 0 ∧ s.mem.bad.filter (touchesWord addr 8) = []) ∧
  (∃ (s : State) (src : Fin 64) (seq : Nat) (epoch : Fin 65536) (addr : Nat), epoch.val = s.epoch ∧ s.flag R.BYK_CFG_READY = true ∧ seq = seqNext
    (s.peer src).lastAcc ∧ s.inMem addr 8 = true ∧ addr % 8 = 0 ∧ s.mem.bad.filter (touchesWord addr 8) = []) ∧
  (∃ (s : State) (src : Fin 64) (seq : Nat), (∀ o ∈ (s.peer src).ops, o.seq ≠ seq)) ∧
  (∃ (s : State) (src : Fin 64) (seq : Nat) (o : _), ((s.peer src).ops.find? (fun o => o.seq == seq) = some o) ∧ o.for_ = .nobody ∧ ((s.peer
    src).waiting = [])) :=
  ⟨⟨nb, 1, 1, by decide +kernel⟩,
   ⟨{ byk := { reads := [{ xid := 5, dev := 1, xfer := 0, addr := 0, len := 4 }] } }, 1, 5, { xid := 5, dev := 1, xfer := 0, addr := 0, len := 4 },
     by decide +kernel⟩,
   ⟨nb, 1, 1, 0, 0x8000000, by decide +kernel⟩,
   ⟨nb [] { lastAcc := 2 ^ 32 - 1 }, 1, 1, 0, 0, by decide +kernel⟩,
   ⟨nb, 1, 5, by decide +kernel⟩,
   ⟨nb [] { ops := [{ seq := 5, op := 3, addr := 0, data := [], for_ := .nobody }] }, 1, 5,
     { seq := 5, op := 3, addr := 0, data := [], for_ := .nobody }, by decide +kernel⟩⟩

/-- Every hypothesis of ResynchronisationAndRelays is met. -/
theorem hyps_met_ResynchronisationAndRelays :
  (∃ (s : State) (src : Fin 64) (epoch : Fin 65536) (q : Nat), s.route src = some q ∧ epoch.val ≠ s.epoch) ∧
  (∃ (s : State) (src : Fin 64) (epoch : Fin 65536) (q : Nat), s.route src = some q ∧ epoch.val = s.epoch ∧ ((s.peer src).ops = [])) ∧
  (∃ (s : State) (src : Fin 64), ((s.peer src).resync = true) ∧ ((s.peer src).waiting = []) ∧ (∀ o ∈ (s.peer src).ops, o.for_ = .nobody)) ∧
  (∃ (s : State) (src : Fin 64), ((s.peer src).resync = false)) ∧
  (∃ (s : State) (src : Fin 64) (epoch : Fin 65536) (last : Nat), epoch.val = s.epoch ∧ seqAfter last (s.peer src).lastAcc = true) ∧
  (∃ (s : State) (src : Fin 64) (epoch : Fin 65536) (last : Nat), (epoch.val ≠ s.epoch ∨ seqAfter last (s.peer src).lastAcc = false)) ∧
  (∃ (s : State) (src : Fin 64) (epoch : Fin 65536) (last : Nat), (epoch.val ≠ s.epoch ∨ seqAfter last (s.peer src).lastAcc = false)) ∧
  (∃ (s : State) (d : Fin 64), ((s.peer d).lost = none)) ∧
  (∃ (s : State) (d : Fin 64) (t0 : _), ((s.peer d).lost = some t0)) ∧
  (∃ (s : State) (src : Fin 64) (seq : Nat) (epoch : Fin 65536) (hop : Nat) (x : Xfer) (h : List Byte), epoch.val = s.epoch ∧ s.flag R.BYK_CFG_READY
    = true ∧ seq = seqNext (s.peer src).lastAcc ∧ x ∈ s.xfers ∧ x.relayWait = true ∧ x.hop + 1 = hop ∧ ((s.relayOf x)[x.hop]? = some h) ∧ recF h 0 0
    6 = src ∧ (∀ y ∈ s.xfers, y.relayWait = true → dRelayPlan y.desc = dRelayPlan x.desc → y = x)) :=
  ⟨⟨nb, 1, 1, 1, by decide +kernel⟩,
   ⟨nb [(R.BYK_STAT_EPOCH, 0, 65535)], 1, 65535, 1, by decide +kernel⟩,
   ⟨nb [] { resync := true, ops := [{ seq := 5, op := 3, addr := 0, data := [], for_ := .nobody }] }, 1, by decide +kernel⟩,
   ⟨nb, 1, by decide +kernel⟩,
   ⟨nb, 1, 0, 1, by decide +kernel⟩,
   ⟨nb, 1, 1, 5, by decide +kernel⟩,
   ⟨nb [] { lastAcc := 5 }, 1, 0, 5, by decide +kernel⟩,
   ⟨nb, 1, by decide +kernel⟩,
   ⟨nb [] { lost := some 3 }, 1, 3, by decide +kernel⟩,
   ⟨nb [] {} { xs { xf (de) .moving (.relay 1 9) with relayWait := true } with progs := [relayProg] }, 1, 1, 0, 1,
     { xf (de) .moving (.relay 1 9) with relayWait := true }, [1, 1, 0, 0], by decide +kernel⟩⟩

/-- Every hypothesis of BlocksAndRelaysArrive is met. -/
theorem hyps_met_BlocksAndRelaysArrive :
  (∃ (s : State) (src : Fin 64) (seq : Nat) (epoch : Fin 65536) (hdr : List Byte), epoch.val = s.epoch ∧ s.flag R.BYK_CFG_READY = true ∧ seq =
    seqNext (s.peer src).lastAcc ∧
    (let h := fitBytes 16 hdr;
    recF h 12 0 24 = 0 ∧ s.blockPeer src (recF h 1 0 2) = none)) ∧
  (∃ (s : State) (src : Fin 64) (seq : Nat) (epoch : Fin 65536) (hdr : List Byte) (data : List Byte) (b : RxBlock) (st : Nat) (bufs : List Nat) (w :
    State), epoch.val = s.epoch ∧ s.flag R.BYK_CFG_READY = true ∧ seq = seqNext (s.peer src).lastAcc ∧
    (let h := fitBytes 16 hdr;
    ((recF h 12 0 24 = 0 ∧ b.hdr = h.take 12 ∧ b.got = 0 ∧ b.bufs = [] ∧ b.cls = s.rg R.BYK_CFG_RX_CLASS ∧ s.blockPeer src (recF h 1 0 2) = some
      (b.pon, b.entry)) ∨ (recF h 12 0 24 ≠ 0 ∧ (s.peer src).blk = some b ∧ b.hdr = h.take 12 ∧ b.got = recF h 12 0 24)) ∧ s.allocN 45 b.cls (ceilDiv
      (b.got + data.length) (2 ^ (s.pclass b.cls).size) - b.bufs.length) [] = (st, bufs, w))) ∧
  (∃ (s : State), s.rg R.PST_STAT_STATE = 2) ∧
  (∃ (s : State) (prog : Nat), s.rg R.PST_STAT_STATE ≠ 2 ∧ (s.prog? prog = none ∨ s.flag R.BYK_CFG_READY = false)) ∧
  (∃ (s : State) (prog : Nat), s.rg R.PST_STAT_STATE ≠ 2 ∧ (s.prog? prog = none ∨ s.flag R.BYK_CFG_READY = false)) ∧
  (∃ (s : State) (plan : Nat) (hop : Nat) (prog : Nat) (desc : List Byte) (data : List Byte) (p : Prog) (r : List Byte) (d : _), s.rg
    R.PST_STAT_STATE ≠ 2 ∧ s.prog? prog = some p ∧ p.ready = true ∧ s.flag R.BYK_CFG_READY = true ∧ (((relayPlans p.image).getD plan [])[hop - 1]? =
    some r) ∧ (∀ y ∈ s.xfers, y.id < s.xferNext) ∧ d = setRelay (fitBytes 64 desc) (rec8 r 1) (recF r 2 0 3) (recF r 3 0 1 == 0) ∧ dTotal d ≤
    data.length) :=
  ⟨⟨nb, 1, 1, 0, [], by decide +kernel⟩,
   ⟨bp, 1, 1, 0, rb 16 [(1, 0, 2)], [5], ⟨(rb 16 [(1, 0, 2)]).take 12, 0, [], 0, 0, 9⟩, (bp.allocN 45 0 1 []).1, (bp.allocN 45 0 1 []).2.1,
     (bp.allocN 45 0 1 []).2.2, ⟨by decide +kernel, by decide +kernel, by decide +kernel, .inl (by decide +kernel), bp_alloc⟩⟩,
   ⟨rgs [(R.PST_STAT_STATE, 0, 2)], by decide +kernel⟩,
   ⟨nb, 9, by decide +kernel⟩,
   ⟨{ progs := [relayProg] }, 9, by decide +kernel⟩,
   ⟨nb [] {} { progs := [relayProg] }, 0, 1, 9, de, [0], relayProg, [1, 1, 0, 0], setRelay (fitBytes 64 de) 1 0 true, by decide +kernel⟩⟩

/-- Every hypothesis of FramesAndTimeCrossTheLink is met. -/
theorem hyps_met_FramesAndTimeCrossTheLink :
  (∃ (s : State) (q : Fin 4) (ch : Fin 16) (n : Nat), s.portUp q = true ∧ ((List.range 16).find? (fun n => s.flag R.BYK_ISO_EN n && s.rg
    R.BYK_ISO_DIR n == 1 && s.rg R.BYK_ISO_PORT n == q.val && s.rg R.BYK_ISO_PEER_CH n == ch.val) = some n)) ∧
  (∃ (s : State) (n : Fin 16) (sfn : Fin 1024) (subframe : Fin 10) (slot : Fin 8) (sym : Fin 14) (r : _) (u : _), s.flag R.BYK_ISO_EN n = true ∧ s.rg
    R.BYK_ISO_DIR n = 1 ∧ ((s.carrier (s.rg R.BYK_ISO_CARRIER n)).active = true) ∧ 2 ≤ s.symCode (s.rg R.BYK_ISO_CARRIER n) sfn subframe slot sym ∧ r
    = (s.carrier (s.rg R.BYK_ISO_CARRIER n)).rec_ ∧ u = s.reach (s.slotAt r sfn subframe slot s.tk.ns + symNs (cScs r) (14 * slot + sym + 1) - symNs
    (cScs r) (14 * slot))) ∧
  (∃ (s : State) (q : Fin 4), s.rgBit R.BYK_CTL_TIME_OFFER q = true ∧ s.portUp q = true ∧ s.flag R.TK_STAT_EPOCH_VALID = true ∧ s.byk.hops < 16 ∧
    s.rg R.TK_STAT_SRC ≠ 4) ∧
  (∃ (s : State) (q : Fin 4), s.portUp q = true ∧ s.rg R.TK_CTL_BYK_PORT = q) ∧
  (∃ (s : State) (q : Fin 4), s.portUp q = true) ∧
  (∃ (s : State) (q : Fin 4) (e : Nat), s.portUp q = true ∧ s.rg R.TK_CTL_BYK_PORT = q ∧ ((s.bport q).masterEpoch = some e) ∧ s.rg R.TK_STAT_SRC ≠ 4) ∧
  (∃ (s : State) (q : Fin 4) (e : Nat), s.portUp q = true ∧ s.rg R.TK_CTL_BYK_PORT = q ∧ ((s.bport q).masterEpoch = some e) ∧ s.rg R.TK_STAT_SRC = 4
    ∧ s.byk.hops = (s.bport q).hops + 1 ∧ ((s.bport q).samples.length = 15)) :=
  ⟨⟨nb [(R.BYK_ISO_EN, 15, 1), (R.BYK_ISO_DIR, 15, 1), (R.BYK_ISO_PORT, 15, 1), (R.BYK_ISO_PEER_CH, 15, 3)], 1, 3, 15, by decide +kernel⟩,
   ⟨car (k0 2) (rgs [(R.BYK_ISO_EN, 15, 1), (R.BYK_ISO_DIR, 15, 1)]), 15, 0, 0, 0, 13, (k0 2).rec_, (car (k0 2) (rgs [(R.BYK_ISO_EN, 15, 1),
     (R.BYK_ISO_DIR, 15, 1)])).reach ((car (k0 2) (rgs [(R.BYK_ISO_EN, 15, 1), (R.BYK_ISO_DIR, 15, 1)])).slotAt (k0 2).rec_ 0 0 0 0 + symNs 1 14 -
     symNs 1 0), ⟨by decide +kernel, by decide +kernel, by decide +kernel, by decide +kernel, rfl, rfl⟩⟩,
   ⟨nb [(R.BYK_CTL_TIME_OFFER, 0, 2), (R.TK_STAT_EPOCH_VALID, 0, 1)] {} { byk := { hops := 15 } }, 1, by decide +kernel⟩,
   ⟨nb [(R.TK_CTL_BYK_PORT, 0, 1)], 1, by decide +kernel⟩,
   ⟨nb, 1, by decide +kernel⟩,
   ⟨nb [(R.TK_CTL_BYK_PORT, 0, 1)] {} { byk := { ports := Vector.replicate 4 { masterEpoch := some 3 } } }, 1, 3, by decide +kernel⟩,
   ⟨nb [(R.TK_CTL_BYK_PORT, 0, 1), (R.TK_STAT_SRC, 0, 4)] {} { byk := { hops := 1, ports := Vector.replicate 4 { masterEpoch := some 3, samples := List.replicate 15 0 } } },
     1, 3, by decide +kernel⟩⟩

/-- Every hypothesis of RailsRiseAndFall is met. -/
theorem hyps_met_RailsRiseAndFall :
  (∃ (s : State) (r : Nat), s.pwr.seq = .raising r ∧ r < 4 ∧ s.boot.sysRst = false) ∧
  (∃ (s : State), s.pwr.seq = .raising 4 ∧ s.boot.sysRst = false ∧ s.boot.latched = true ∧ 4 ≤ s.rg R.VRC_CFG_PH_CNT ∧ s.rg R.VRC_CFG_PH_CNT ≤ 12) ∧
  (∃ (s : State), s.pwr.seq = .raising 4 ∧ s.boot.sysRst = false ∧ s.boot.latched = false) ∧
  (∃ (s : State) (r : Nat), s.pwr.seq = .raising r ∧ s.boot.sysRst = true) ∧
  (∃ (s : State) (r : Nat), s.pwr.seq = .raising r ∧ r < 5) ∧
  (∃ (s : State), s.pwr.seq = .waiting) ∧
  (∃ (s : State) (r : Nat), s.pwr.seq = .lowering ∧ r ≤ 4 ∧ s.pwr.en.testBit r = true ∧ (∀ k, r < k → k ≤ 4 → s.pwr.en.testBit k = false)) ∧
  (∃ (s : State) (r : Nat), s.pwr.seq = .lowering ∧ r ≤ 4 ∧ s.pwr.en.testBit r = true ∧ (∀ k, r < k → k ≤ 4 → s.pwr.en.testBit k = false)) ∧
  (∃ (s : State) (r : Fin 6), s.rgBit R.PWR_RAIL_OK r = true) ∧
  (∃ (s : State) (r : Fin 6), s.rgBit R.PWR_RAIL_OK r = false) ∧
  (∃ (s : State), s.vcoreOn = true) ∧
  (∃ (s : State), s.rg R.VRC_FLT_STATE = 1) ∧
  (∃ (s : State), s.rg R.VRC_FLT_STATE ≠ 1) :=
  ⟨⟨{ pwr := { seq := .raising 3 } }, 3, by decide +kernel⟩,
   ⟨rgs [(R.VRC_CFG_PH_CNT, 0, 12)] { pwr := { seq := .raising 4 }, boot := { latched := true } }, by decide +kernel⟩,
   ⟨{ pwr := { seq := .raising 4 } }, by decide +kernel⟩,
   ⟨{ pwr := { seq := .raising 0 }, boot := { sysRst := true } }, 0, by decide +kernel⟩,
   ⟨{ pwr := { seq := .raising 4 } }, 4, by decide +kernel⟩,
   ⟨{ pwr := { seq := .waiting } }, by decide +kernel⟩,
   ⟨{ pwr := { seq := .lowering, en := 31 } }, 4, ⟨by decide +kernel, by decide +kernel, by decide +kernel, fun k h h' => by omega⟩⟩,
   ⟨{ pwr := { seq := .lowering, en := 1 } }, 0,
     ⟨by decide +kernel, by decide +kernel, by decide +kernel, fun k h h' => (by decide +kernel : ∀ k : Fin 5, 0 < k.val → Nat.testBit 1 k = false) ⟨k, by omega⟩ h⟩⟩,
   ⟨rgs [(R.PWR_RAIL_OK, 0, 32)], 5, by decide +kernel⟩,
   ⟨{}, 0, by decide +kernel⟩,
   ⟨on, by decide +kernel⟩,
   ⟨rgs [(R.VRC_FLT_STATE, 0, 1)], by decide +kernel⟩,
   ⟨on, by decide +kernel⟩⟩

/-- Every hypothesis of PhasesDroopsAndHolds is met. -/
theorem hyps_met_PhasesDroopsAndHolds :
  (∃ (s : State) (n : Fin 12), Inv s ∧ s.vcoreOn = true ∧ s.rg R.VRC_PH_PST n = 0) ∧
  (∃ (s : State), Inv s ∧ s.vcoreOn = true) ∧
  (∃ (s : State) (n : Fin 12), s.vcoreOn = true ∧ s.rg R.VRC_PH_PST n = 0 ∧ s.rgBit R.VRC_FLT_SENSE_FB n = false) ∧
  (∃ (s : State) (n : Fin 12), s.vcoreOn = true ∧ s.flag R.VRC_CFG_SHED_EN = true ∧ s.flag R.PACER_STAT_KICK = false ∧ s.rg R.VRC_PH_PST n = 0 ∧ (∀
    m, n < m → m < 12 → s.rg R.VRC_PH_PST m ≠ 0) ∧ s.minPhases < (List.range 12).countP (fun m => s.rg R.VRC_PH_PST m == 0)) ∧
  (∃ (s : State) (n : Fin 12), s.vcoreOn = true ∧ s.flag R.VRC_CFG_SHED_EN = true ∧ s.rg R.VRC_PH_PST n = 1 ∧ (∀ m, m < n → s.rg R.VRC_PH_PST m ≠ 1)) ∧
  (∃ (s : State) (n : Fin 12), s.vcoreOn = true ∧ s.rg R.VRC_PH_PST n = 0 ∧ s.flag R.FLT_STAT_FROZEN = false) ∧
  (∃ (s : State), s.vcoreOn = true ∧ s.flag R.PACER_STAT_BRAKE_LEVEL = false) ∧
  (∃ (s : State), s.rgBit R.PACER_STAT_BRAKE_CAUSE 2 = true) ∧
  (∃ (s : State), s.vcoreOn = true ∧ s.pwr.hold = none) ∧
  (∃ (s : State) (t0 : Nat), s.pwr.hold = some t0 ∧ s.boot.stop = none) ∧
  (∃ (s : State) (t0 : Nat), Inv s ∧ s.pwr.hold = some t0 ∧ s.vcoreOn = true ∧ s.boot.stop = none) ∧
  (∃ (s : State), Inv s ∧ s.rg R.VRC_FLT_STATE = 4 ∧ s.rg R.PACER_STAT_BRAKE_LEVEL = 3 ∧ s.rgBit R.PACER_STAT_BRAKE_CAUSE 0 = true ∧ s.boot.stop =
    none) :=
  ⟨⟨on [(R.VRC_PH_PST, 11, 0)], 11, inv_of (by decide +kernel) (by decide +kernel), by decide +kernel⟩,
   ⟨on, inv_of (by decide +kernel) (by decide +kernel), by decide +kernel⟩,
   ⟨on [(R.VRC_PH_PST, 11, 0)], 11, by decide +kernel⟩,
   ⟨on ([(R.VRC_CFG_SHED_EN, 0, 1), (R.VRC_PH_PST, 0, 0), (R.VRC_PH_PST, 1, 0), (R.VRC_PH_PST, 2, 0), (R.VRC_PH_PST, 3, 0), (R.VRC_PH_PST, 4, 0),
     (R.VRC_PH_PST, 5, 0), (R.VRC_PH_PST, 6, 0), (R.VRC_PH_PST, 7, 0), (R.VRC_PH_PST, 8, 0), (R.VRC_PH_PST, 9, 0), (R.VRC_PH_PST, 10, 0),
     (R.VRC_PH_PST, 11, 0)]), 11, by decide +kernel⟩,
   ⟨on [(R.VRC_CFG_SHED_EN, 0, 1), (R.VRC_PH_PST, 0, 1)], 0, by decide +kernel⟩,
   ⟨on [(R.VRC_PH_PST, 11, 0)], 11, by decide +kernel⟩,
   ⟨on, by decide +kernel⟩,
   ⟨rgs [(R.PACER_STAT_BRAKE_CAUSE, 0, 4)], by decide +kernel⟩,
   ⟨on, by decide +kernel⟩,
   ⟨{ pwr := { hold := some 0 } }, 0, by decide +kernel⟩,
   ⟨on [] { pwr := { hold := some 0 } }, 0, inv_of (by decide +kernel) (by decide +kernel), by decide +kernel⟩,
   ⟨rgs [(R.VRC_FLT_STATE, 0, 4), (R.PACER_STAT_BRAKE_LEVEL, 0, 3), (R.PACER_STAT_BRAKE_CAUSE, 0, 1)], inv_of (by decide +kernel)
     (by decide +kernel), by decide +kernel⟩⟩

/-- Every hypothesis of PowerFailureTimeline is met. -/
theorem hyps_met_PowerFailureTimeline :
  (∃ (s : State), Inv s ∧ s.pst.off = false ∧ s.pwr.failStage = 0) ∧
  (∃ (s : State), s.pwr.failStage ≠ 0) ∧
  (∃ (s : State), Inv s ∧ s.pwr.failStage = 1) ∧
  (∃ (s : State), Inv s ∧ s.pwr.failStage = 2) ∧
  (∃ (s : State), s.pwr.failStage = 3) ∧
  (∃ (s : State), s.pwr.failStage = 4 ∧ s.pwr.seq = .off) ∧
  (∃ (s : State), s.pwr.failStage = 4 ∧ s.pwr.seq ≠ .off) :=
  ⟨⟨{}, inv_of (by decide +kernel) (by decide +kernel), by decide +kernel⟩,
   ⟨{ pwr := { failStage := 1 } }, by decide +kernel⟩,
   ⟨{ pwr := { failStage := 1 } }, inv_of (by decide +kernel) (by decide +kernel), by decide +kernel⟩,
   ⟨{ pwr := { failStage := 2 } }, inv_of (by decide +kernel) (by decide +kernel), by decide +kernel⟩,
   ⟨{ pwr := { failStage := 3 } }, by decide +kernel⟩,
   ⟨{ pwr := { failStage := 4 } }, by decide +kernel⟩,
   ⟨{ pwr := { failStage := 4, seq := .on } }, by decide +kernel⟩⟩

/-- Every hypothesis of FatalStopsCommitAndDump is met. -/
theorem hyps_met_FatalStopsCommitAndDump :
  (∃ (s : State), s.vcoreOn = true ∧ s.boot.stop = none) ∧
  (∃ (s : State), s.boot.stop ≠ none) ∧
  (∃ (s : State), s.vcoreOn = true ∧ s.boot.stop = none ∧ (s.pwr.seq ≠ .on ∨ s.boot.up = false ∨ (s.pwr.failStage < 3 ∧ s.flag R.FLT_STAT_BB_ARMED =
    true))) ∧
  (∃ (s : State) (b : BbWrite), s.boot.bb = some b ∧ b.slot < 2 ∧ s.boot.stop = none) ∧
  (∃ (s : State) (x : Stop), s.boot.stop = some x ∧ x.cause = 1 ∧ x.dumped = false ∧ x.committed = false) ∧
  (∃ (s : State) (x : Stop), s.boot.stop = some x ∧ x.answered = true ∧ x.dumped = false ∧ x.committed = false) ∧
  (∃ (s : State) (x : Stop), s.boot.stop = some x ∧ x.answered = true ∧ x.dumped = false ∧ x.committed = true ∧ s.pwr.seq = .on) :=
  ⟨⟨on, by decide +kernel⟩,
   ⟨bt { cause := 1, at_ := 0, tk := 0 }, by decide +kernel⟩,
   ⟨on, by decide +kernel⟩,
   ⟨{ boot := { bb := some ⟨1, [], []⟩ } }, ⟨1, [], []⟩, by decide +kernel⟩,
   ⟨bt { cause := 1, at_ := 0, tk := 0 }, { cause := 1, at_ := 0, tk := 0 }, by decide +kernel⟩,
   ⟨bt { cause := 2, at_ := 0, tk := 0, answered := true }, { cause := 2, at_ := 0, tk := 0, answered := true }, by decide +kernel⟩,
   ⟨bt { cause := 2, at_ := 0, tk := 0, answered := true, committed := true },
     { cause := 2, at_ := 0, tk := 0, answered := true, committed := true }, by decide +kernel⟩⟩

/-- Every hypothesis of PowerStatesAreEnteredAndLeft is met. -/
theorem hyps_met_PowerStatesAreEnteredAndLeft :
  (∃ (s : State) (ring : Fin 64) (cid : Fin 65536) (c : Cmd), Ready s ring cid 0x88 c ∧ c.only [(8, 0, 2)] = true ∧ s.pst.req = none ∧ c.user = 0) ∧
  (∃ (s : State) (ring : Fin 64) (cid : Fin 65536) (c : Cmd), Ready s ring cid 0x88 c ∧ c.only [(8, 0, 2)] = true ∧ s.pst.req = none ∧ c.user = 0) ∧
  (∃ (s : State) (tgt : Nat) (ring : Nat) (cid : Nat) (c : Cmd), Inv s ∧ s.pst.req = some (tgt, ring, cid) ∧ tgt ≤ 1 ∧ TheCmd s ring cid c) ∧
  (∃ (s : State) (tgt : Nat) (ring : Nat) (cid : Nat) (c : Cmd), Inv s ∧ s.pst.req = some (tgt, ring, cid) ∧ tgt ≤ 1 ∧ TheCmd s ring cid c) ∧
  (∃ (s : State) (ring : Nat) (cid : Nat) (c : Cmd), Inv s ∧ s.pst.req = some (2, ring, cid) ∧ TheCmd s ring cid c) ∧
  (∃ (s : State) (ring : Nat) (cid : Nat), s.pst.req = some (3, ring, cid)) ∧
  (∃ (s : State), Inv s ∧ s.rg R.PST_STAT_STATE = 2 ∧ s.flag R.PST_STAT_WAKE_PEND = true ∧ s.flag R.PST_STAT_ENTRY_PEND = false ∧ s.pst.bench = false
    ∧ s.pst.restFrom ≤ 1) ∧
  (∃ (s : State), s.pst.bench = true ∧ s.rg R.VRC_FLT_STATE = 0 ∧ s.flag R.PST_STAT_WAKE_PEND = true ∧ s.pwr.failStage = 0 ∧ 4 ≤ s.rg
    R.VRC_CFG_PH_CNT ∧ s.rg R.VRC_CFG_PH_CNT ≤ 12) :=
  ⟨⟨fl [(cm 0x88 [(8, 0, 3)])], 0, 7, (cm 0x88 [(8, 0, 3)]), by decide +kernel⟩,
   ⟨fl [(cm 0x88 [(8, 0, 0)])], 0, 7, (cm 0x88 [(8, 0, 0)]), by decide +kernel⟩,
   ⟨pe 0, 0, 0, 7, cm 0x88, inv_of (by decide +kernel) (by decide +kernel), by decide +kernel⟩,
   ⟨pe 1, 1, 0, 7, cm 0x88, inv_of (by decide +kernel) (by decide +kernel), by decide +kernel⟩,
   ⟨pe 2, 0, 7, cm 0x88, inv_of (by decide +kernel) (by decide +kernel), by decide +kernel⟩,
   ⟨pe 3, 0, 7, by decide +kernel⟩,
   ⟨rgs [(R.PST_STAT_STATE, 0, 2), (R.PST_STAT_WAKE_PEND, 0, 1)] { pst := { restFrom := 1 } }, inv_of (by decide +kernel) (by decide +kernel),
     by decide +kernel⟩,
   ⟨rgs [(R.PST_STAT_WAKE_PEND, 0, 1), (R.VRC_CFG_PH_CNT, 0, 4)] { pst := { bench := true } }, by decide +kernel⟩⟩

/-- Every hypothesis of WakeSourcesAndTheSmi is met. -/
theorem hyps_met_WakeSourcesAndTheSmi :
  (∃ (s : State), s.rgBit R.PST_CTL_WAKE_MASK 0 = false) ∧
  (∃ (s : State), s.rgBit R.PST_CTL_WAKE_MASK 0 = true ∧ (s.rg R.PST_STAT_STATE = 2 ∨ s.pst.bench = true) ∧ s.flag R.PST_STAT_ENTRY_PEND = false) ∧
  (∃ (s : State), s.rgBit R.PST_CTL_WAKE_MASK 0 = true ∧ (s.rg R.PST_STAT_STATE = 2 ∨ s.pst.bench = true) ∧ s.flag R.PST_STAT_ENTRY_PEND = false) ∧
  (∃ (s : State) (tgt : Nat) (ring : Nat) (cid : Nat) (c : Cmd), s.rgBit R.PST_CTL_WAKE_MASK 0 = true ∧ s.flag R.PST_STAT_ENTRY_PEND = true ∧
    s.pst.req = some (tgt, ring, cid) ∧ 2 ≤ tgt ∧ TheCmd s ring cid c) ∧
  (∃ (s : State), s.rgBit R.PST_CTL_WAKE_MASK 1 = true ∧ (s.rg R.PST_STAT_STATE = 2 ∨ s.pst.bench = true) ∧ s.flag R.PST_STAT_ENTRY_PEND = false ∧
    s.pst.wakeN = true) ∧
  (∃ (s : State), s.rgBit R.PST_CTL_WAKE_MASK 1 = true ∧ (s.rg R.PST_STAT_STATE = 2 ∨ s.pst.bench = true) ∧ s.flag R.PST_STAT_ENTRY_PEND = false ∧
    s.pst.wakeN = false) ∧
  (∃ (s : State), s.host.l1 = 3) ∧
  (∃ (s : State), s.host.l1 ≠ 3 ∧ s.pst.bench = false ∧ s.flag R.PST_STAT_ENTRY_PEND = false) ∧
  (∃ (s : State), Inv s ∧ s.rg R.WAKE_AT_AT = 0) ∧
  (∃ (s : State), Inv s ∧ s.rg R.WAKE_AT_AT ≠ 0) ∧
  (∃ (s : State) (len : Byte) (data : List Byte), (s.smiUp = false ∨ data.length ≠ len.toNat)) ∧
  (∃ (s : State) (len : Byte) (data : List Byte), (s.smiUp = false ∨ data.length ≠ len.toNat)) ∧
  (∃ (s : State) (len : Byte) (data : List Byte), s.smiUp = true ∧ data.length = len.toNat) ∧
  (∃ (s : State), s.smiUp = true) ∧
  (∃ (s : State) (d : List Byte), s.smiUp = true ∧ s.pst.smiCmd = some (1, d)) ∧
  (∃ (s : State) (d : List Byte), s.smiUp = true ∧ s.pst.smiCmd = some (2, d)) ∧
  (∃ (s : State) (d : List Byte), s.smiUp = true ∧ s.pst.smiCmd = some (3, d)) ∧
  (∃ (s : State) (d : List Byte), s.smiUp = true ∧ s.pst.smiCmd = some (4, d)) :=
  ⟨⟨rgs [(R.PST_CTL_WAKE_MASK, 0, 0)], by decide +kernel⟩,
   ⟨rgs [(R.PST_CTL_WAKE_MASK, 0, 1), (R.PST_STAT_STATE, 0, 2)], by decide +kernel⟩,
   ⟨rgs [(R.PST_CTL_WAKE_MASK, 0, 1)] { pst := { bench := true } }, by decide +kernel⟩,
   ⟨pe 3 [(R.PST_CTL_WAKE_MASK, 0, 1), (R.PST_STAT_ENTRY_PEND, 0, 1)], 3, 0, 7, cm 0x88, by decide +kernel⟩,
   ⟨rgs [(R.PST_CTL_WAKE_MASK, 0, 2), (R.PST_STAT_STATE, 0, 2)] { pst := { wakeN := true } }, by decide +kernel⟩,
   ⟨rgs [(R.PST_CTL_WAKE_MASK, 0, 2), (R.PST_STAT_STATE, 0, 2)], by decide +kernel⟩,
   ⟨{ host := { l1 := 3 } }, by decide +kernel⟩,
   ⟨{}, by decide +kernel⟩,
   ⟨{}, inv_of (by decide +kernel) (by decide +kernel), by decide +kernel⟩,
   ⟨rgs [(R.WAKE_AT_AT, 0, 5)], inv_of (by decide +kernel) (by decide +kernel), by decide +kernel⟩,
   ⟨{}, 0, [], by decide +kernel⟩,
   ⟨{ boot := { up := true } }, 1, [], by decide +kernel⟩,
   ⟨{ boot := { up := true } }, 1, [5], by decide +kernel⟩,
   ⟨{ boot := { up := true } }, by decide +kernel⟩,
   ⟨{ boot := { up := true }, pst := { smiCmd := some (1, []) } }, [], by decide +kernel⟩,
   ⟨{ boot := { up := true }, pst := { smiCmd := some (2, []) } }, [], by decide +kernel⟩,
   ⟨{ boot := { up := true }, pst := { smiCmd := some (3, [0]) } }, [0], by decide +kernel⟩,
   ⟨{ boot := { up := true }, pst := { smiCmd := some (4, [0, 0, 0, 0]) } }, [0, 0, 0, 0], by decide +kernel⟩⟩

/-- Every hypothesis of RegistersTakeTheirValues is met. -/
theorem hyps_met_RegistersTakeTheirValues :
  (∃ (s : State) (fn : Fin 8) (off : Fin 65536) (wide : Bool), (s.bar0Up fn = false ∨ s.seesOff fn off = false ∨ off.val % (if wide then 8 else 4) ≠
    0)) ∧
  (∃ (s : State) (fn : Fin 8) (off : Fin 65536) (wide : Bool), (s.bar0Up fn = false ∨ s.seesOff fn off = false ∨ off.val % (if wide then 8 else 4) ≠
    0)) ∧
  (∃ (fn : Fin 8) (off : Fin 65536), fn ≠ 0 ∧ 0x18 ≤ off.val ∧ (off.val < 0x400 ∨ 0x418 ≤ off.val) ∧ (off.val < 0x8004 ∨ 0x8100 ≤ off.val)) ∧
  (∃ (fn : Fin 8) (off : Fin 65536), fn ≠ 0 ∧ 0x18 ≤ off.val ∧ (off.val < 0x400 ∨ 0x418 ≤ off.val) ∧ (off.val < 0x8004 ∨ 0x8100 ≤ off.val)) ∧
  (∃ (s : State), Inv s ∧ s.bar0Up 0 = true ∧ s.flag R.RST_STAT_IN_RESET = false) ∧
  (∃ (s : State) (v : BitVec 64), Inv s ∧ s.bar0Up 0 = true ∧ s.flag R.RST_STAT_IN_RESET = false ∧
    (let w := v.toNat % 2 ^ 32;
    s.heatList ≠ [] ∧ w.testBit 0 ≠ s.flag R.PACER_CTL_EN ∧ s.rg R.PACER_CTL_EN < 2)) ∧
  (∃ (s : State), Inv s ∧ s.bar0Up 0 = true ∧ s.flag R.RST_STAT_IN_RESET = false) ∧
  (∃ (s : State) (fn : Fin 8) (off : Fin 65536), (s.bar0Up fn = false ∨ off.val % 4 ≠ 0)) ∧
  (∃ (s : State) (fn : Fin 8) (off : Fin 65536), (s.bar0Up fn = false ∨ off.val % 4 ≠ 0)) ∧
  (∃ (s : State), s.bar0Up 0 = true ∧ s.flag R.RST_STAT_IN_RESET = false ∧ s.rg R.RES_RACE_US < 2 ^ 64) ∧
  (∃ (s : State) (h : _), s.bar0Up 0 = true ∧ s.flag R.RST_STAT_IN_RESET = false ∧ s.rg R.RES_RACE_US < 2 ^ 64 ∧ Store.get (2 ^ 32) s.latched 0x1310
    = h ∧ h ≠ 2 ^ 32) ∧
  (∃ (s : State) (v : Fin 128), s.bar0Up 0 = true ∧ s.flag R.RST_STAT_IN_RESET = false ∧
    (let p := vget s.host.fns 0;
    (v.val ≤ 1 ∨ (66 ≤ v.val ∧ v.val ≤ 71)) ∧ p.msixEn = true ∧ p.fnMask = false ∧ p.mask.testBit v = false ∧ s.host.linkUp = true ∧ p.bme = true)) ∧
  (∃ (s : State) (v : Fin 128), s.bar0Up 0 = true ∧ s.flag R.RST_STAT_IN_RESET = false ∧
    (let p := vget s.host.fns 0;
    (v.val ≤ 1 ∨ (66 ≤ v.val ∧ v.val ≤ 71)) ∧ p.msixEn = true ∧ p.fnMask = false ∧ p.mask.testBit v = false ∧ s.host.linkUp = true ∧ p.bme = true)) ∧
  (∃ (s : State) (v : Fin 128), s.bar0Up 0 = true ∧ s.flag R.RST_STAT_IN_RESET = false ∧
    (let p := vget s.host.fns 0;
    (v.val ≤ 1 ∨ (66 ≤ v.val ∧ v.val ≤ 71)) ∧ p.msixEn = true ∧ p.fnMask = false ∧ p.mask.testBit v = false ∧ s.host.linkUp = true ∧ p.bme = true)) ∧
  (∃ (s : State) (v : Fin 128), s.bar0Up 0 = true ∧ s.flag R.RST_STAT_IN_RESET = false ∧
    (let p := vget s.host.fns 0;
    (v.val ≤ 1 ∨ (66 ≤ v.val ∧ v.val ≤ 71)) ∧ p.msixEn = true ∧ (p.fnMask = true ∨ p.mask.testBit v = true))) ∧
  (∃ (s : State) (v : Fin 128), s.bar0Up 0 = true ∧ s.flag R.RST_STAT_IN_RESET = false ∧ 72 ≤ v.val) ∧
  (∃ (s : State), s.bar0Up 0 = true ∧ s.flag R.RST_STAT_IN_RESET = false ∧
    (let p := vget s.host.fns 0;
    p.msixEn = false)) ∧
  (∃ (s : State), s.bar0Up 0 = true ∧ s.flag R.RST_STAT_IN_RESET = false) :=
  ⟨⟨{}, 0, 0, false, by decide +kernel⟩,
   ⟨b0, 0, 0x1304, true, by decide +kernel⟩,
   ⟨7, 0x18, by decide +kernel⟩,
   ⟨1, 0x8100, by decide +kernel⟩,
   ⟨b0, inv_of (by decide +kernel) (by decide +kernel), by decide +kernel⟩,
   ⟨b0 [] (h0 (ht []) (fl [])), 0, inv_of (by decide +kernel) (by decide +kernel), by decide +kernel⟩,
   ⟨b0, inv_of (by decide +kernel) (by decide +kernel), by decide +kernel⟩,
   ⟨{}, 0, 0, by decide +kernel⟩,
   ⟨b0, 0, 2, by decide +kernel⟩,
   ⟨b0, by decide +kernel⟩,
   ⟨{ b0 with latched := [(0x1310, 5)] }, 5, by decide +kernel⟩,
   ⟨b0, 1, by decide +kernel⟩,
   ⟨b0, 66, by decide +kernel⟩,
   ⟨b0, 71, by decide +kernel⟩,
   ⟨b0 [] { host := { fns := Vector.replicate 8 { msixEn := true } } }, 0, by decide +kernel⟩,
   ⟨b0, 72, by decide +kernel⟩,
   ⟨b0 [] {}, by decide +kernel⟩,
   ⟨b0, by decide +kernel⟩⟩

/-- Every hypothesis of CompletionsReachTheirRing is met. -/
theorem hyps_met_CompletionsReachTheirRing :
  (∃ (s : State) (ring : Fin 64) (cid : Fin 65536) (d : HostData) (txf : Bool) (ok : Bool) (p : _), p ∈ commandRows ring cid d txf ok ∧ (s.cmd? ring
    cid = none ∨ s.boot.stop ≠ none ∨ s.warm = true ∨ (∃ c, s.cmd? ring cid = some c ∧ (c.opcode ≠ p.1 ∨ c.started = true ∨ s.mayStart c = false)))) ∧
  (∃ (s : State) (ring : Fin 64) (cid : Fin 65536) (d : HostData) (txf : Bool) (ok : Bool) (p : _), p ∈ commandRows ring cid d txf ok ∧ (s.cmd? ring
    cid = none ∨ s.boot.stop ≠ none ∨ s.warm = true ∨ (∃ c, s.cmd? ring cid = some c ∧ (c.opcode ≠ p.1 ∨ c.started = true ∨ s.mayStart c = false)))) ∧
  (∃ (w : State) (c : Cmd), TheCmd w c.ring c.cid c ∧ c.ring < 64 ∧ ((w.ring c.ring).st = .active) ∧ ((w.ring c.ring).full = false) ∧ ((w.ring
    c.ring).waiting = []) ∧ w.host.linkUp = true ∧ ((vget w.host.fns (w.ring c.ring).owner).bme = true)) ∧
  (∃ (w : State) (c : Cmd), TheCmd w c.ring c.cid c ∧ c.ring < 64 ∧ ((w.ring c.ring).st ≠ .absent) ∧ ((w.ring c.ring).full = true ∨ (w.ring
    c.ring).waiting ≠ [])) :=
  ⟨⟨{}, 0, 7, .returned, false, true, (0x01, .identify 0 7), ⟨by decide +kernel, .inl (by decide +kernel)⟩⟩,
   ⟨fl [cm 2], 0, 7, .returned, false, true, (0x01, .identify 0 7),
     ⟨by decide +kernel, .inr (.inr (.inr ⟨cm 2, by decide +kernel, by decide +kernel⟩))⟩⟩,
   ⟨fl [cm 1], cm 1, by decide +kernel⟩,
   ⟨{ fl [cm 1] with host := { (fl [cm 1]).host with rings := Vector.replicate 64 { st := .active, cqSize := 2, cqTail := 1 } } }, cm 1,
     by decide +kernel⟩⟩

/-- Every hypothesis of AdminCommands is met. -/
theorem hyps_met_AdminCommands :
  (∃ (s : State) (ring : Fin 64) (cid : Fin 65536) (c : Cmd), Ready s ring cid 0x01 c ∧ c.only [(8, 0, 64), (16, 0, 1)] = true ∧ c.arg 16 0 1 = 1) ∧
  (∃ (s : State) (ring : Fin 64) (cid : Fin 65536) (c : Cmd), Ready s ring cid 0x01 c ∧ c.only [(8, 0, 64), (16, 0, 1)] = true ∧ c.arg 16 0 1 = 0 ∧
    c.arg 8 0 64 < 2 ^ 46 ∧ s.canReach c.user (c.arg 8 0 64) 256 true = true) ∧
  (∃ (s : State) (ring : Fin 64) (cid : Fin 65536) (c : Cmd), Ready s ring cid 0x01 c ∧ c.only [(8, 0, 64), (16, 0, 1)] = false) ∧
  (∃ (s : State) (ring : Fin 64) (cid : Fin 65536) (c : Cmd), Ready s ring cid 0x14 c ∧ c.only [(8, 0, 64), (16, 0, 1)] = true ∧ c.arg 16 0 1 = 1) ∧
  (∃ (s : State) (ring : Fin 64) (cid : Fin 65536) (c : Cmd), Ready s ring cid 0x02 c ∧ c.only [(8, 0, 16), (12, 0, 32)] = true ∧ c.arg 8 0 16 = 1) ∧
  (∃ (s : State) (ring : Fin 64) (cid : Fin 65536) (c : Cmd), Ready s ring cid 0x02 c ∧ c.only [(8, 0, 16), (12, 0, 32)] = true ∧ c.arg 8 0 16 = 2) ∧
  (∃ (s : State) (ring : Fin 64) (cid : Fin 65536) (c : Cmd), Ready s ring cid 0x02 c ∧ c.only [(8, 0, 16), (12, 0, 32)] = true ∧ c.arg 8 0 16 = 3) ∧
  (∃ (s : State) (ring : Fin 64) (cid : Fin 65536) (c : Cmd), Ready s ring cid 0x02 c ∧ c.only [(8, 0, 16), (12, 0, 32)] = true ∧ c.arg 8 0 16 = 4) ∧
  (∃ (s : State) (ring : Fin 64) (cid : Fin 65536) (c : Cmd), Ready s ring cid 0x02 c ∧ c.only [(8, 0, 16), (12, 0, 32)] = true ∧ (c.arg 8 0 16 = 0 ∨
    4 < c.arg 8 0 16)) ∧
  (∃ (s : State) (ring : Fin 64) (cid : Fin 65536) (c : Cmd), Ready s ring cid 0x02 c ∧ c.only [(8, 0, 16), (12, 0, 32)] = true ∧ (c.arg 8 0 16 = 0 ∨
    4 < c.arg 8 0 16)) ∧
  (∃ (s : State) (cid : Fin 65536) (c : Cmd), Ready s 0 cid 0x03 c ∧ c.only [(8, 0, 16), (12, 0, 32)] = true ∧ c.arg 8 0 16 = 1 ∧ c.arg 12 0 32 < 2) ∧
  (∃ (s : State) (cid : Fin 65536) (c : Cmd), Ready s 0 cid 0x03 c ∧ c.only [(8, 0, 16), (12, 0, 32)] = true ∧ c.arg 8 0 16 = 2 ∧ c.arg 12 0 32 < 2) ∧
  (∃ (s : State) (cid : Fin 65536) (c : Cmd), Ready s 0 cid 0x03 c ∧ c.only [(8, 0, 16), (12, 0, 32)] = true ∧ c.arg 8 0 16 = 3 ∧ c.arg 12 0 32 <
    256) ∧
  (∃ (s : State) (cid : Fin 65536) (c : Cmd), Ready s 0 cid 0x03 c ∧ c.only [(8, 0, 16), (12, 0, 32)] = true ∧ c.arg 8 0 16 = 4 ∧ c.arg 12 0 32 < 2) ∧
  (∃ (s : State) (cid : Fin 65536) (c : Cmd), Ready s 0 cid 0x03 c ∧ c.only [(8, 0, 16), (12, 0, 32)] = true ∧ (c.arg 8 0 16 = 0 ∨ 4 < c.arg 8 0 16 ∨
    (c.arg 8 0 16 ≠ 3 ∧ 2 ≤ c.arg 12 0 32) ∨ 256 ≤ c.arg 12 0 32)) ∧
  (∃ (s : State) (cid : Fin 65536) (c : Cmd), Ready s 0 cid 0x03 c ∧ c.only [(8, 0, 16), (12, 0, 32)] = true ∧ (c.arg 8 0 16 = 0 ∨ 4 < c.arg 8 0 16 ∨
    (c.arg 8 0 16 ≠ 3 ∧ 2 ≤ c.arg 12 0 32) ∨ 256 ≤ c.arg 12 0 32)) ∧
  (∃ (s : State) (cid : Fin 65536) (c : Cmd), Ready s 0 cid 0x03 c ∧ c.only [(8, 0, 16), (12, 0, 32)] = true ∧ (c.arg 8 0 16 = 0 ∨ 4 < c.arg 8 0 16 ∨
    (c.arg 8 0 16 ≠ 3 ∧ 2 ≤ c.arg 12 0 32) ∨ 256 ≤ c.arg 12 0 32)) ∧
  (∃ (s : State) (ring : Fin 64) (cid : Fin 65536) (c : Cmd), ring ≠ 0 ∧ Ready s ring cid 0x03 c ∧ c.only [(8, 0, 16), (12, 0, 32)] = true ∧ 1 ≤
    c.arg 8 0 16 ∧ c.arg 8 0 16 ≤ 4 ∧ c.arg 12 0 32 < 2) ∧
  (∃ (s : State) (cid : Fin 65536) (c : Cmd) (n : Fin 64), Ready s 0 cid 0x04 c ∧ c.arg 8 0 6 = n ∧ n ≠ 0 ∧ c.only [(8, 0, 6), (9, 0, 4), (10, 0, 8),
    (12, 0, 16), (14, 0, 16), (16, 0, 64), (24, 0, 64), (32, 0, 16), (34, 0, 16)] = true ∧ (n = 1 → c.arg 9 0 3 = 0) ∧ 1 ≤ c.arg 10 0 8 ∧ c.arg 12 0
    16 ≤ 1000 ∧ c.arg 24 0 64 % 4096 = 0 ∧ 2 ≤ c.arg 34 0 16 ∧ c.arg 34 0 16 ≤ 1024 ∧ ((c.arg 16 0 64 = 0 ∧ c.arg 32 0 16 = 0 ∧ c.arg 14 0 16 = 0) ∨
    (c.arg 16 0 64 ≠ 0 ∧ c.arg 16 0 64 % 4096 = 0 ∧ 2 ≤ c.arg 32 0 16 ∧ c.arg 32 0 16 ≤ 1024 ∧ 1 ≤ c.arg 14 0 16 ∧ c.arg 14 0 16 < c.arg 32 0 16)) ∧
    ((s.ring n).st = .absent)) ∧
  (∃ (s : State) (cid : Fin 65536) (c : Cmd) (n : Fin 64), Ready s 0 cid 0x04 c ∧ c.arg 8 0 6 = n ∧ n ≠ 0 ∧ c.only [(8, 0, 6), (9, 0, 4), (10, 0, 8),
    (12, 0, 16), (14, 0, 16), (16, 0, 64), (24, 0, 64), (32, 0, 16), (34, 0, 16)] = true ∧ (n = 1 → c.arg 9 0 3 = 0) ∧ 1 ≤ c.arg 10 0 8 ∧ c.arg 12 0
    16 ≤ 1000 ∧ c.arg 24 0 64 % 4096 = 0 ∧ 2 ≤ c.arg 34 0 16 ∧ c.arg 34 0 16 ≤ 1024 ∧ ((c.arg 16 0 64 = 0 ∧ c.arg 32 0 16 = 0 ∧ c.arg 14 0 16 = 0) ∨
    (c.arg 16 0 64 ≠ 0 ∧ c.arg 16 0 64 % 4096 = 0 ∧ 2 ≤ c.arg 32 0 16 ∧ c.arg 32 0 16 ≤ 1024 ∧ 1 ≤ c.arg 14 0 16 ∧ c.arg 14 0 16 < c.arg 32 0 16)) ∧
    ((s.ring n).st = .absent)) ∧
  (∃ (s : State) (cid : Fin 65536) (c : Cmd) (n : Fin 64), Ready s 0 cid 0x04 c ∧ c.arg 8 0 6 = n ∧ n ≠ 0 ∧ c.only [(8, 0, 6), (9, 0, 4), (10, 0, 8),
    (12, 0, 16), (14, 0, 16), (16, 0, 64), (24, 0, 64), (32, 0, 16), (34, 0, 16)] = true ∧ (n = 1 → c.arg 9 0 3 = 0) ∧ 1 ≤ c.arg 10 0 8 ∧ c.arg 12 0
    16 ≤ 1000 ∧ c.arg 24 0 64 % 4096 = 0 ∧ 2 ≤ c.arg 34 0 16 ∧ c.arg 34 0 16 ≤ 1024 ∧ ((c.arg 16 0 64 = 0 ∧ c.arg 32 0 16 = 0 ∧ c.arg 14 0 16 = 0) ∨
    (c.arg 16 0 64 ≠ 0 ∧ c.arg 16 0 64 % 4096 = 0 ∧ 2 ≤ c.arg 32 0 16 ∧ c.arg 32 0 16 ≤ 1024 ∧ 1 ≤ c.arg 14 0 16 ∧ c.arg 14 0 16 < c.arg 32 0 16)) ∧
    ((s.ring n).st ≠ .absent) ∧ ((s.ring n).owner = c.arg 9 0 3) ∧ ((s.ring n).sqBase = c.arg 16 0 64) ∧ ((s.ring n).sqSize = c.arg 32 0 16) ∧
    ((s.ring n).cqBase = c.arg 24 0 64) ∧ ((s.ring n).cqSize = c.arg 34 0 16) ∧ ((s.ring n).maxInflight = c.arg 14 0 16)) ∧
  (∃ (s : State) (cid : Fin 65536) (c : Cmd) (n : Fin 64), Ready s 0 cid 0x04 c ∧ c.arg 8 0 6 = n ∧ n ≠ 0 ∧ c.only [(8, 0, 6), (9, 0, 4), (10, 0, 8),
    (12, 0, 16), (14, 0, 16), (16, 0, 64), (24, 0, 64), (32, 0, 16), (34, 0, 16)] = true ∧ (n = 1 → c.arg 9 0 3 = 0) ∧ 1 ≤ c.arg 10 0 8 ∧ c.arg 12 0
    16 ≤ 1000 ∧ c.arg 24 0 64 % 4096 = 0 ∧ 2 ≤ c.arg 34 0 16 ∧ c.arg 34 0 16 ≤ 1024 ∧ ((c.arg 16 0 64 = 0 ∧ c.arg 32 0 16 = 0 ∧ c.arg 14 0 16 = 0) ∨
    (c.arg 16 0 64 ≠ 0 ∧ c.arg 16 0 64 % 4096 = 0 ∧ 2 ≤ c.arg 32 0 16 ∧ c.arg 32 0 16 ≤ 1024 ∧ 1 ≤ c.arg 14 0 16 ∧ c.arg 14 0 16 < c.arg 32 0 16)) ∧
    ((s.ring n).st ≠ .absent) ∧ ((s.ring n).owner ≠ c.arg 9 0 3)) ∧
  (∃ (s : State) (cid : Fin 65536) (c : Cmd) (n : Fin 64), Ready s 0 cid 0x05 c ∧ c.only [(8, 0, 6)] = true ∧ c.arg 8 0 6 = n ∧ n ≠ 0 ∧ ((s.ring
    n).st = .absent)) ∧
  (∃ (s : State) (cid : Fin 65536) (c : Cmd) (n : Fin 64), Ready s 0 cid 0x05 c ∧ c.only [(8, 0, 6)] = true ∧ c.arg 8 0 6 = n ∧ n ≠ 0 ∧ ((s.ring
    n).st ≠ .absent) ∧ s.ringNamed n = true) ∧
  (∃ (s : State) (cid : Fin 65536) (c : Cmd) (n : Fin 64), Ready s 0 cid 0x05 c ∧ c.only [(8, 0, 6)] = true ∧ c.arg 8 0 6 = n ∧ n ≠ 0 ∧ ((s.ring
    n).st = .active) ∧ s.ringNamed n = false ∧ s.host.cmds.any (fun d => d.ring == n.val) = true) ∧
  (∃ (s : State) (cid : Fin 65536) (c : Cmd) (n : Fin 64), Ready s 0 cid 0x05 c ∧ c.only [(8, 0, 6)] = true ∧ c.arg 8 0 6 = n ∧ n ≠ 0 ∧ ((s.ring
    n).st = .active) ∧ s.ringNamed n = false ∧ ((s.ring n).waiting = []) ∧ ((s.ring n).deleters = []) ∧ s.host.cmds.any (fun d => d.ring == n.val) =
    false) ∧
  (∃ (s : State) (ring : Fin 64) (cid : Fin 65536) (c : Cmd), ring ≠ 0 ∧ Ready s ring cid 0x04 c) ∧
  (∃ (s : State) (ring : Fin 64) (cid : Fin 65536) (c : Cmd), ring ≠ 0 ∧ Ready s ring cid 0x05 c) :=
  ⟨⟨fl [(cm 0x01 [(16, 0, 1), (8, 0, 0xFFFFFFFFFFFFFFFF)])], 0, 7, (cm 0x01 [(16, 0, 1), (8, 0, 0xFFFFFFFFFFFFFFFF)]), by decide +kernel⟩,
   ⟨fl [(cm 0x01 [(8, 0, 0x8000000)])], 0, 7, (cm 0x01 [(8, 0, 0x8000000)]), by decide +kernel⟩,
   ⟨fl [(cm 0x01 [(16, 1, 1)])], 0, 7, (cm 0x01 [(16, 1, 1)]), by decide +kernel⟩,
   ⟨fl [(cm 0x14 [(16, 0, 1)])], 0, 7, (cm 0x14 [(16, 0, 1)]), by decide +kernel⟩,
   ⟨fl [(cm 0x02 [(8, 0, 1)])], 0, 7, (cm 0x02 [(8, 0, 1)]), by decide +kernel⟩,
   ⟨fl [(cm 0x02 [(8, 0, 2)])], 0, 7, (cm 0x02 [(8, 0, 2)]), by decide +kernel⟩,
   ⟨fl [(cm 0x02 [(8, 0, 3)])], 0, 7, (cm 0x02 [(8, 0, 3)]), by decide +kernel⟩,
   ⟨fl [(cm 0x02 [(8, 0, 4)])], 0, 7, (cm 0x02 [(8, 0, 4)]), by decide +kernel⟩,
   ⟨fl [(cm 0x02 [])], 0, 7, (cm 0x02 []), by decide +kernel⟩,
   ⟨fl [(cm 0x02 [(8, 0, 5)])], 0, 7, (cm 0x02 [(8, 0, 5)]), by decide +kernel⟩,
   ⟨fl [(cm 0x03 [(8, 0, 1), (12, 0, 1)])], 7, (cm 0x03 [(8, 0, 1), (12, 0, 1)]), by decide +kernel⟩,
   ⟨fl [(cm 0x03 [(8, 0, 2), (12, 0, 1)])], 7, (cm 0x03 [(8, 0, 2), (12, 0, 1)]), by decide +kernel⟩,
   ⟨fl [(cm 0x03 [(8, 0, 3), (12, 0, 255)])], 7, (cm 0x03 [(8, 0, 3), (12, 0, 255)]), by decide +kernel⟩,
   ⟨fl [(cm 0x03 [(8, 0, 4), (12, 0, 1)])], 7, (cm 0x03 [(8, 0, 4), (12, 0, 1)]), by decide +kernel⟩,
   ⟨fl [(cm 0x03 [(8, 0, 5)])], 7, (cm 0x03 [(8, 0, 5)]), by decide +kernel⟩,
   ⟨fl [(cm 0x03 [(8, 0, 1), (12, 0, 2)])], 7, (cm 0x03 [(8, 0, 1), (12, 0, 2)]), by decide +kernel⟩,
   ⟨fl [(cm 0x03 [(8, 0, 3), (12, 0, 256)])], 7, (cm 0x03 [(8, 0, 3), (12, 0, 256)]), by decide +kernel⟩,
   ⟨fl [(cm 0x03 [(8, 0, 4), (12, 0, 1)] 1 5)], 5, 7, (cm 0x03 [(8, 0, 4), (12, 0, 1)] 1 5), by decide +kernel⟩,
   ⟨fl [(cm 0x04 [(8, 0, 63), (9, 0, 7), (10, 0, 1), (12, 0, 1000), (24, 0, 4096), (34, 0, 1024), (16, 0, 8192), (32, 0, 2), (14, 0, 1)])], 7, (cm
     0x04 [(8, 0, 63), (9, 0, 7), (10, 0, 1), (12, 0, 1000), (24, 0, 4096), (34, 0, 1024), (16, 0, 8192), (32, 0, 2), (14, 0, 1)]), 63,
     by decide +kernel⟩,
   ⟨fl [(cm 0x04 [(8, 0, 1), (10, 0, 255), (34, 0, 2)])], 7, (cm 0x04 [(8, 0, 1), (10, 0, 255), (34, 0, 2)]), 1, by decide +kernel⟩,
   ⟨r5c [cm 0x04 [(8, 0, 5), (9, 0, 1), (10, 0, 1), (24, 0, 4096), (34, 0, 2)]], 7, cm 0x04 [(8, 0, 5), (9, 0, 1), (10, 0, 1), (24, 0, 4096), (34, 0,
     2)], 5, by decide +kernel⟩,
   ⟨r5c [cm 0x04 [(8, 0, 5), (9, 0, 2), (10, 0, 1), (24, 0, 4096), (34, 0, 2)]], 7, cm 0x04 [(8, 0, 5), (9, 0, 2), (10, 0, 1), (24, 0, 4096), (34, 0,
     2)], 5, by decide +kernel⟩,
   ⟨fl [(cm 0x05 [(8, 0, 63)])], 7, (cm 0x05 [(8, 0, 63)]), 63, by decide +kernel⟩,
   ⟨{ r5c [cm 0x05 [(8, 0, 5)]] with ports := vset (Vector.replicate 2 {}) 0 { xgem := [(0, { valid := true, ring := 5 })] } }, 7, cm 0x05 [(8, 0,
     5)], 5, by decide +kernel⟩,
   ⟨r5c [cm 0x05 [(8, 0, 5)], cm 1 [] 1 5], 7, cm 0x05 [(8, 0, 5)], 5, by decide +kernel⟩,
   ⟨r5c [cm 0x05 [(8, 0, 5)]], 7, cm 0x05 [(8, 0, 5)], 5, by decide +kernel⟩,
   ⟨fl [(cm 0x04 [] 1 5)], 5, 7, (cm 0x04 [] 1 5), by decide +kernel⟩,
   ⟨fl [(cm 0x05 [] 1 63)], 63, 7, (cm 0x05 [] 1 63), by decide +kernel⟩⟩

/-- Every hypothesis of WindowAndPoolCommands is met. -/
theorem hyps_met_WindowAndPoolCommands :
  (∃ (s : State) (ring : Fin 64) (cid : Fin 65536) (c : Cmd) (m : Mapping), Ready s ring cid 0x06 c ∧ c.user < 8 ∧ c.only [(8, 0, 64), (16, 0, 33),
    (24, 0, 32), (28, 0, 2)] = true ∧ m = ⟨c.arg 16 0 33, c.arg 24 0 32 * 4096, c.arg 8 0 64, c.arg 28 0 1 == 1, c.arg 28 1 1 == 1⟩ ∧ m.bus % 4096 =
    0 ∧ m.off % 4096 = 0 ∧ 1 ≤ c.arg 24 0 32 ∧ c.arg 24 0 32 ≤ 262144 ∧ m.off + m.len ≤ 2 ^ 33 ∧ (m.rd = true ∨ m.wr = true) ∧ m ∈ vget s.host.maps
    c.user ∧ (∀ x ∈ vget s.host.maps c.user, x = m ∨ x.off + x.len ≤ m.off ∨ m.off + m.len ≤ x.off)) ∧
  (∃ (s : State) (ring : Fin 64) (cid : Fin 65536) (c : Cmd) (m : Mapping), Ready s ring cid 0x06 c ∧ c.user < 8 ∧ c.only [(8, 0, 64), (16, 0, 33),
    (24, 0, 32), (28, 0, 2)] = true ∧ m = ⟨c.arg 16 0 33, c.arg 24 0 32 * 4096, c.arg 8 0 64, c.arg 28 0 1 == 1, c.arg 28 1 1 == 1⟩ ∧ m.bus % 4096 =
    0 ∧ m.off % 4096 = 0 ∧ 1 ≤ c.arg 24 0 32 ∧ c.arg 24 0 32 ≤ 262144 ∧ m.off + m.len ≤ 2 ^ 33 ∧ (m.rd = true ∨ m.wr = true) ∧ (∀ x ∈ vget
    s.host.maps c.user, x.off + x.len ≤ m.off ∨ m.off + m.len ≤ x.off) ∧ m ∉ vget s.host.maps c.user ∧ 512 ≤ (vget s.host.maps c.user).length) ∧
  (∃ (s : State) (ring : Fin 64) (cid : Fin 65536) (c : Cmd) (m : Mapping), Ready s ring cid 0x06 c ∧ c.user < 8 ∧ c.only [(8, 0, 64), (16, 0, 33),
    (24, 0, 32), (28, 0, 2)] = true ∧ m = ⟨c.arg 16 0 33, c.arg 24 0 32 * 4096, c.arg 8 0 64, c.arg 28 0 1 == 1, c.arg 28 1 1 == 1⟩ ∧ m.bus % 4096 =
    0 ∧ m.off % 4096 = 0 ∧ 1 ≤ c.arg 24 0 32 ∧ c.arg 24 0 32 ≤ 262144 ∧ m.off + m.len ≤ 2 ^ 33 ∧ (m.rd = true ∨ m.wr = true) ∧ (∀ x ∈ vget
    s.host.maps c.user, x.off + x.len ≤ m.off ∨ m.off + m.len ≤ x.off) ∧ m ∉ vget s.host.maps c.user ∧ ((vget s.host.maps c.user).length < 512)) ∧
  (∃ (s : State) (ring : Fin 64) (cid : Fin 65536) (c : Cmd) (m : Mapping), Ready s ring cid 0x06 c ∧ c.user < 8 ∧ c.only [(8, 0, 64), (16, 0, 33),
    (24, 0, 32), (28, 0, 2)] = true ∧ m = ⟨c.arg 16 0 33, c.arg 24 0 32 * 4096, c.arg 8 0 64, c.arg 28 0 1 == 1, c.arg 28 1 1 == 1⟩ ∧ m.bus % 4096 =
    0 ∧ m.off % 4096 = 0 ∧ 1 ≤ c.arg 24 0 32 ∧ c.arg 24 0 32 ≤ 262144 ∧ m.off + m.len ≤ 2 ^ 33 ∧ (m.rd = true ∨ m.wr = true) ∧ (∀ x ∈ vget
    s.host.maps c.user, x.off + x.len ≤ m.off ∨ m.off + m.len ≤ x.off) ∧ m ∉ vget s.host.maps c.user ∧ ((vget s.host.maps c.user).length < 512)) ∧
  (∃ (s : State) (ring : Fin 64) (cid : Fin 65536) (c : Cmd) (m : Mapping), Ready s ring cid 0x06 c ∧ c.user < 8 ∧ c.only [(8, 0, 64), (16, 0, 33),
    (24, 0, 32), (28, 0, 2)] = true ∧ m = ⟨c.arg 16 0 33, c.arg 24 0 32 * 4096, c.arg 8 0 64, c.arg 28 0 1 == 1, c.arg 28 1 1 == 1⟩ ∧ m.bus % 4096 =
    0 ∧ m.off % 4096 = 0 ∧ 1 ≤ c.arg 24 0 32 ∧ c.arg 24 0 32 ≤ 262144 ∧ m.off + m.len ≤ 2 ^ 33 ∧ (m.rd = true ∨ m.wr = true) ∧ (∃ x ∈ vget
    s.host.maps c.user, x ≠ m ∧ m.off < x.off + x.len ∧ x.off < m.off + m.len)) ∧
  (∃ (s : State) (ring : Fin 64) (cid : Fin 65536) (c : Cmd), Ready s ring cid 0x07 c ∧ c.user < 8 ∧ c.only [(16, 0, 33)] = true ∧ (∀ x ∈ vget
    s.host.maps c.user, x.off ≠ c.arg 16 0 33)) ∧
  (∃ (s : State) (ring : Fin 64) (cid : Fin 65536) (c : Cmd) (m : _), Ready s ring cid 0x07 c ∧ c.user < 8 ∧ c.only [(16, 0, 33)] = true ∧ m ∈ vget
    s.host.maps c.user ∧ m.off = c.arg 16 0 33 ∧ s.xfers = [] ∧ s.heatList = []) ∧
  (∃ (s : State) (ring : Fin 64) (cid : Fin 65536) (c : Cmd) (k : Fin 32) (x : PoolClass), Ready s ring cid 0x08 c ∧ c.only [(8, 0, 5), (9, 0, 8),
    (10, 0, 2), (12, 0, 18), (16, 0, 19), (20, 0, 32), (24, 0, 46)] = true ∧ c.arg 8 0 5 = k ∧ ((s.pclass k).conf = false) ∧ x.conf = true ∧ x.size =
    c.arg 9 0 8 ∧ x.refcount = (c.arg 10 0 1 == 1) ∧ x.firstCome = (c.arg 10 1 1 == 1) ∧ x.first = c.arg 12 0 18 ∧ x.count = c.arg 16 0 19 ∧ x.base =
    c.arg 24 0 46 ∧ x.lowWater = c.arg 20 0 32 ∧ x.user = c.user ∧ x.quota = List.replicate 16 0 ∧ x.armed = true ∧ x.free = (List.range x.count).map
    (fun i => x.first + i) ∧ s.classOk k c.user x = true) ∧
  (∃ (s : State) (ring : Fin 64) (cid : Fin 65536) (c : Cmd) (k : Fin 32), Ready s ring cid 0x08 c ∧ c.only [(8, 0, 5), (9, 0, 8), (10, 0, 2), (12,
    0, 18), (16, 0, 19), (20, 0, 32), (24, 0, 46)] = true ∧ c.arg 8 0 5 = k ∧ ((s.pclass k).conf = true) ∧ ((s.pclass k).size = c.arg 9 0 8) ∧
    ((s.pclass k).refcount = (c.arg 10 0 1 == 1)) ∧ ((s.pclass k).firstCome = (c.arg 10 1 1 == 1)) ∧ ((s.pclass k).first = c.arg 12 0 18) ∧
    ((s.pclass k).count = c.arg 16 0 19) ∧ ((s.pclass k).base = c.arg 24 0 46) ∧ c.arg 20 0 32 ≤ c.arg 16 0 19 ∧ (c.user = 0 ∨ c.user = (s.pclass
    k).user)) ∧
  (∃ (s : State) (ring : Fin 64) (cid : Fin 65536) (c : Cmd) (k : Fin 32), Ready s ring cid 0x08 c ∧ c.only [(8, 0, 5), (9, 0, 8), (10, 0, 2), (12,
    0, 18), (16, 0, 19), (20, 0, 32), (24, 0, 46)] = true ∧ c.arg 8 0 5 = k ∧ ((s.pclass k).conf = true) ∧ ((s.pclass k).size = c.arg 9 0 8) ∧
    ((s.pclass k).refcount = (c.arg 10 0 1 == 1)) ∧ ((s.pclass k).firstCome = (c.arg 10 1 1 == 1)) ∧ ((s.pclass k).first = c.arg 12 0 18) ∧
    ((s.pclass k).count = c.arg 16 0 19) ∧ ((s.pclass k).base = c.arg 24 0 46) ∧ c.arg 20 0 32 ≤ c.arg 16 0 19 ∧ c.user ≠ 0 ∧ c.user ≠ (s.pclass
    k).user) ∧
  (∃ (s : State) (ring : Fin 64) (cid : Fin 65536) (c : Cmd) (k : Fin 32) (q : List Nat), Ready s ring cid 0x09 c ∧ c.arg 8 0 8 = k ∧ c.only ([(8, 0,
    8), (9, 0, 8), (10, 0, 8)] ++ (List.range (min (c.arg 10 0 8) 12)).map (fun i => (16 + 4 * i, 0, 32))) = true ∧ ((s.pclass k).conf = true) ∧ 1 ≤
    c.arg 10 0 8 ∧ c.arg 10 0 8 ≤ 12 ∧ c.arg 9 0 8 + c.arg 10 0 8 ≤ 16 ∧ ((s.pclass k).firstCome = false) ∧ ((s.pclass k).quota.length = 16) ∧
    q.length = 16 ∧ (∀ g, g < 16 → q.getD g 0 = if c.arg 9 0 8 ≤ g ∧ g < c.arg 9 0 8 + c.arg 10 0 8 then c.arg (16 + 4 * (g - c.arg 9 0 8)) 0 32 else
    (s.pclass k).quota.getD g 0) ∧ q.sum ≤ (s.pclass k).count ∧ (c.user = 0 ∨ c.user = (s.pclass k).user)) ∧
  (∃ (s : State) (ring : Fin 64) (cid : Fin 65536) (c : Cmd) (k : Fin 32) (q : List Nat), Ready s ring cid 0x09 c ∧ c.arg 8 0 8 = k ∧ c.only ([(8, 0,
    8), (9, 0, 8), (10, 0, 8)] ++ (List.range (min (c.arg 10 0 8) 12)).map (fun i => (16 + 4 * i, 0, 32))) = true ∧ ((s.pclass k).conf = true) ∧ 1 ≤
    c.arg 10 0 8 ∧ c.arg 10 0 8 ≤ 12 ∧ c.arg 9 0 8 + c.arg 10 0 8 ≤ 16 ∧ ((s.pclass k).firstCome = false) ∧ ((s.pclass k).quota.length = 16) ∧
    q.length = 16 ∧ (∀ g, g < 16 → q.getD g 0 = if c.arg 9 0 8 ≤ g ∧ g < c.arg 9 0 8 + c.arg 10 0 8 then c.arg (16 + 4 * (g - c.arg 9 0 8)) 0 32 else
    (s.pclass k).quota.getD g 0) ∧ q.sum ≤ (s.pclass k).count ∧ c.user ≠ 0 ∧ c.user ≠ (s.pclass k).user) ∧
  (∃ (s : State) (ring : Fin 64) (cid : Fin 65536) (c : Cmd) (k : Fin 32) (q : List Nat), Ready s ring cid 0x09 c ∧ c.arg 8 0 8 = k ∧ c.only ([(8, 0,
    8), (9, 0, 8), (10, 0, 8)] ++ (List.range (min (c.arg 10 0 8) 12)).map (fun i => (16 + 4 * i, 0, 32))) = true ∧ ((s.pclass k).conf = true) ∧ 1 ≤
    c.arg 10 0 8 ∧ c.arg 10 0 8 ≤ 12 ∧ c.arg 9 0 8 + c.arg 10 0 8 ≤ 16 ∧ ((s.pclass k).firstCome = false) ∧ ((s.pclass k).quota.length = 16) ∧
    q.length = 16 ∧ (∀ g, g < 16 → q.getD g 0 = if c.arg 9 0 8 ≤ g ∧ g < c.arg 9 0 8 + c.arg 10 0 8 then c.arg (16 + 4 * (g - c.arg 9 0 8)) 0 32 else
    (s.pclass k).quota.getD g 0) ∧ ((s.pclass k).count < q.sum)) ∧
  (∃ (s : State) (ring : Fin 64) (cid : Fin 65536) (c : Cmd) (a : Ans), Ready s ring cid 0x0B c ∧ c.only [(8, 0, 8), (9, 0, 5), (10, 0, 6), (11, 0,
    1), (12, 0, 32), (16, 0, 64)] = true ∧ c.arg 8 0 8 = 0 ∧ c.arg 10 0 6 = 0 ∧ c.arg 11 0 1 = 0 ∧ c.arg 12 0 32 = 0 ∧ c.arg 16 0 64 = 0 ∧ a =
    (started s c).alloc (32 + c.user) (c.arg 9 0 5)) ∧
  (∃ (s : State) (ring : Fin 64) (cid : Fin 65536) (c : Cmd) (a : Ans), Ready s ring cid 0x0B c ∧ c.only [(8, 0, 8), (9, 0, 5), (10, 0, 6), (11, 0,
    1), (12, 0, 32), (16, 0, 64)] = true ∧ c.arg 8 0 8 = 1 ∧ c.arg 9 0 5 = 0 ∧ c.arg 10 0 6 = 0 ∧ c.arg 11 0 1 = 0 ∧ c.arg 16 0 64 = 0 ∧ a = (started
    s c).pfree (32 + c.user) (c.arg 12 0 32)) ∧
  (∃ (s : State) (ring : Fin 64) (cid : Fin 65536) (c : Cmd) (a : Ans), Ready s ring cid 0x0B c ∧ c.only [(8, 0, 8), (9, 0, 5), (10, 0, 6), (11, 0,
    1), (12, 0, 32), (16, 0, 64)] = true ∧ c.arg 8 0 8 = 2 ∧ c.arg 9 0 5 = 0 ∧ c.arg 11 0 1 = 0 ∧ c.arg 16 0 64 = 0 ∧ a = (started s c).pgive (32 +
    c.user) (c.arg 12 0 32) (c.arg 10 0 6)) ∧
  (∃ (s : State) (ring : Fin 64) (cid : Fin 65536) (c : Cmd) (a : Ans), Ready s ring cid 0x0B c ∧ c.only [(8, 0, 8), (9, 0, 5), (10, 0, 6), (11, 0,
    1), (12, 0, 32), (16, 0, 64)] = true ∧ c.arg 8 0 8 = 3 ∧ c.arg 9 0 5 = 0 ∧ c.arg 10 0 6 = 0 ∧ c.arg 11 0 1 = 0 ∧ c.arg 16 0 64 = 0 ∧ a = (started
    s c).pref (c.arg 12 0 32)) ∧
  (∃ (s : State) (ring : Fin 64) (cid : Fin 65536) (c : Cmd) (a : Ans), Ready s ring cid 0x0B c ∧ c.only [(8, 0, 8), (9, 0, 5), (10, 0, 6), (11, 0,
    1), (12, 0, 32), (16, 0, 64)] = true ∧ c.arg 8 0 8 = 4 ∧ c.arg 9 0 5 = 0 ∧ c.arg 10 0 6 = 0 ∧ c.arg 11 0 1 = 0 ∧ c.arg 16 0 64 = 0 ∧ a = (started
    s c).punref (32 + c.user) (c.arg 12 0 32)) ∧
  (∃ (s : State) (ring : Fin 64) (cid : Fin 65536) (c : Cmd), Ready s ring cid 0x0B c ∧ c.only [(8, 0, 8), (9, 0, 5), (10, 0, 6), (11, 0, 1), (12, 0,
    32), (16, 0, 64)] = true ∧ c.arg 8 0 8 = 5 ∧ c.arg 9 0 5 = 0 ∧ c.arg 10 0 6 = 0 ∧ c.arg 11 0 1 = 1 ∧ (((started s c).pquery (c.arg 12 0 32)).1 =
    Sc.ok)) ∧
  (∃ (s : State) (ring : Fin 64) (cid : Fin 65536) (c : Cmd), Ready s ring cid 0x0B c ∧ c.only [(8, 0, 8), (9, 0, 5), (10, 0, 6), (11, 0, 1), (12, 0,
    32), (16, 0, 64)] = true ∧ 5 < c.arg 8 0 8) :=
  ⟨⟨mp [⟨0, 4096, 0, true, false⟩] (fl [cm 0x06 [(24, 0, 1), (28, 0, 1)]]), 0, 7, cm 0x06 [(24, 0, 1), (28, 0, 1)], ⟨0, 4096, 0, true, false⟩,
     by decide +kernel⟩,
   ⟨mp ((List.range 512).map (fun i => ⟨4096 * (i + 1), 4096, 0, true, false⟩)) (fl [cm 0x06 [(24, 0, 1), (28, 0, 2)]]), 0, 7, cm 0x06 [(24, 0, 1),
     (28, 0, 2)], ⟨0, 4096, 0, false, true⟩, by decide +kernel⟩,
   ⟨mp [⟨4096, 4096, 0, true, false⟩] (fl [cm 0x06 [(24, 0, 1), (28, 0, 3)]]), 0, 7, cm 0x06 [(24, 0, 1), (28, 0, 3)], ⟨0, 4096, 0, true, true⟩,
     by decide +kernel⟩,
   ⟨fl [(cm 0x06 [(16, 0, 0x1C0000000), (24, 0, 262144), (28, 0, 3)])], 0, 7, (cm 0x06 [(16, 0, 0x1C0000000), (24, 0, 262144), (28, 0, 3)]),
     ⟨0x1C0000000, 0x40000000, 0, true, true⟩, by decide +kernel⟩,
   ⟨mp [⟨0, 4096, 0, true, false⟩] (fl [cm 0x06 [(24, 0, 2), (28, 0, 1)]]), 0, 7, cm 0x06 [(24, 0, 2), (28, 0, 1)], ⟨0, 8192, 0, true, false⟩,
     by decide +kernel⟩,
   ⟨mp [⟨4096, 4096, 0, true, false⟩] (fl [cm 0x07]), 0, 7, cm 0x07, by decide +kernel⟩,
   ⟨mp [⟨4096, 4096, 0, true, false⟩] (fl [cm 0x07 [(16, 0, 4096)]]), 0, 7, cm 0x07 [(16, 0, 4096)], ⟨4096, 4096, 0, true, false⟩, by decide +kernel⟩,
   ⟨fl [(cm 0x08 [(8, 0, 31), (9, 0, 12), (10, 0, 1), (12, 0, 8), (16, 0, 2), (24, 0, 0x8000000)])], 0, 7, (cm 0x08 [(8, 0, 31), (9, 0, 12), (10, 0,
     1), (12, 0, 8), (16, 0, 2), (24, 0, 0x8000000)]), 31,
     { conf := true, size := 12, refcount := true, first := 8, count := 2, base := 0x8000000, quota := List.replicate 16 0, free := [8, 9] },
     by decide +kernel⟩,
   ⟨pc (cm 0x08 [(9, 0, 12), (16, 0, 4), (20, 0, 4), (24, 0, 0x8000000)]), 0, 7, cm 0x08 [(9, 0, 12), (16, 0, 4), (20, 0, 4), (24, 0, 0x8000000)], 0,
     by decide +kernel⟩,
   ⟨pc (cm 0x08 [(9, 0, 12), (16, 0, 4), (24, 0, 0x8000000)] 1), 0, 7, cm 0x08 [(9, 0, 12), (16, 0, 4), (24, 0, 0x8000000)] 1, 0, by decide +kernel⟩,
   ⟨fl [cm 0x09 [(9, 0, 4), (10, 0, 12), (16, 0, 4)]] (pool1 {} { conf := true, count := 4, quota := List.replicate 16 0 }), 0, 7, cm 0x09 [(9, 0,
     4), (10, 0, 12), (16, 0, 4)], 0, [0, 0, 0, 0, 4, 0, 0, 0, 0, 0, 0, 0, 0, 0, 0, 0], by decide +kernel⟩,
   ⟨fl [cm 0x09 [(9, 0, 15), (10, 0, 1), (16, 0, 4)] 1] (pool1 {} { conf := true, count := 4, quota := List.replicate 16 0 }), 0, 7, cm 0x09 [(9, 0,
     15), (10, 0, 1), (16, 0, 4)] 1, 0, [0, 0, 0, 0, 0, 0, 0, 0, 0, 0, 0, 0, 0, 0, 0, 4], by decide +kernel⟩,
   ⟨fl [cm 0x09 [(10, 0, 1), (16, 0, 5)]] (pool1 {} { conf := true, count := 4, quota := List.replicate 16 0 }), 0, 7, cm 0x09 [(10, 0, 1), (16, 0,
     5)], 0, [5, 0, 0, 0, 0, 0, 0, 0, 0, 0, 0, 0, 0, 0, 0, 0], by decide +kernel⟩,
   ⟨pc (cm 0x0B), 0, 7, cm 0x0B, (started (pc (cm 0x0B)) (cm 0x0B)).alloc (32 + (cm 0x0B).user) ((cm 0x0B).arg 9 0 5),
     ⟨by decide +kernel, by decide +kernel, by decide +kernel, by decide +kernel, by decide +kernel, by decide +kernel, by decide +kernel, rfl⟩⟩,
   ⟨pc (cm 0x0B [(8, 0, 1)]), 0, 7, cm 0x0B [(8, 0, 1)], (started (pc (cm 0x0B [(8, 0, 1)])) (cm 0x0B [(8, 0, 1)])).pfree (32 + (cm 0x0B [(8, 0,
     1)]).user) ((cm 0x0B [(8, 0, 1)]).arg 12 0 32),
     ⟨by decide +kernel, by decide +kernel, by decide +kernel, by decide +kernel, by decide +kernel, by decide +kernel, by decide +kernel, rfl⟩⟩,
   ⟨pc (cm 0x0B [(8, 0, 2), (10, 0, 46)]), 0, 7, cm 0x0B [(8, 0, 2), (10, 0, 46)], (started (pc (cm 0x0B [(8, 0, 2), (10, 0, 46)])) (cm 0x0B [(8, 0,
     2), (10, 0, 46)])).pgive (32 + (cm 0x0B [(8, 0, 2), (10, 0, 46)]).user) ((cm 0x0B [(8, 0, 2), (10, 0, 46)]).arg 12 0 32) ((cm 0x0B [(8, 0, 2),
     (10, 0, 46)]).arg 10 0 6),
     ⟨by decide +kernel, by decide +kernel, by decide +kernel, by decide +kernel, by decide +kernel, by decide +kernel, rfl⟩⟩,
   ⟨pc (cm 0x0B [(8, 0, 3)]), 0, 7, cm 0x0B [(8, 0, 3)], (started (pc (cm 0x0B [(8, 0, 3)])) (cm 0x0B [(8, 0, 3)])).pref ((cm 0x0B [(8, 0, 3)]).arg
     12 0 32),
     ⟨by decide +kernel, by decide +kernel, by decide +kernel, by decide +kernel, by decide +kernel, by decide +kernel, by decide +kernel, rfl⟩⟩,
   ⟨pc (cm 0x0B [(8, 0, 4)]), 0, 7, cm 0x0B [(8, 0, 4)], (started (pc (cm 0x0B [(8, 0, 4)])) (cm 0x0B [(8, 0, 4)])).punref (32 + (cm 0x0B [(8, 0,
     4)]).user) ((cm 0x0B [(8, 0, 4)]).arg 12 0 32),
     ⟨by decide +kernel, by decide +kernel, by decide +kernel, by decide +kernel, by decide +kernel, by decide +kernel, by decide +kernel, rfl⟩⟩,
   ⟨pc (cm 0x0B [(8, 0, 5), (11, 0, 1), (12, 0, 0x01000000)]) { st := .owned, owner := 32 }, 0, 7, cm 0x0B [(8, 0, 5), (11, 0, 1), (12, 0,
     0x01000000)], by decide +kernel⟩,
   ⟨fl [(cm 0x0B [(8, 0, 6)])], 0, 7, (cm 0x0B [(8, 0, 6)]), by decide +kernel⟩⟩

/-- Every hypothesis of StepRunsTheFrontCommand is met. -/
theorem hyps_met_StepRunsTheFrontCommand :
  (∃ (s : State) (c : Instr) (rest : List Instr), s.pending = c :: rest) ∧
  (∃ (s : State), s.pending = [] ∧ s.rgBit R.PWR_RAIL_OK 4 = false) ∧
  (∃ (s : State), s.pending = [] ∧ s.rgBit R.PWR_RAIL_OK 4 = true) :=
  ⟨⟨{ pending := [.coldStart, .vaonLoss] }, .coldStart, [.vaonLoss], by decide +kernel⟩,
   ⟨{}, by decide +kernel⟩,
   ⟨rgs [(R.PWR_RAIL_OK, 0, 16)], by decide +kernel⟩⟩

/-- Every hypothesis of PoolClassDelete is met. -/
theorem hyps_met_PoolClassDelete :
  (∃ (s : State) (ring : Fin 64) (cid : Fin 65536) (c : Cmd) (k : Fin 32), Ready s ring cid 0x0A c ∧ c.only [(8, 0, 8)] = true ∧ c.arg 8 0 8 = k ∧
    ((s.pclass k).conf = false)) ∧
  (∃ (s : State) (ring : Fin 64) (cid : Fin 65536) (c : Cmd) (k : Fin 32), Ready s ring cid 0x0A c ∧ c.only [(8, 0, 8)] = true ∧ c.arg 8 0 8 = k ∧
    ((s.pclass k).conf = true) ∧ s.classUsed k = true) ∧
  (∃ (s : State) (ring : Fin 64) (cid : Fin 65536) (c : Cmd) (k : Fin 32), Ready s ring cid 0x0A c ∧ c.only [(8, 0, 8)] = true ∧ c.arg 8 0 8 = k ∧
    ((s.pclass k).conf = true) ∧ s.classUsed k = false ∧ (c.user = 0 ∨ c.user = (s.pclass k).user)) :=
  ⟨⟨fl [(cm 0x0A [(8, 0, 31)])], 0, 7, (cm 0x0A [(8, 0, 31)]), 31, by decide +kernel⟩,
   ⟨pc (cm 0x0A) { st := .owned }, 0, 7, cm 0x0A, 0, by decide +kernel⟩,
   ⟨{ fl [cm 0x0A] with pool := { classes := vset (Vector.replicate 32 {}) 0 { conf := true, count := 4, free := [0, 1, 2, 3] } } }, 0, 7, cm 0x0A,
     0, by decide +kernel⟩⟩

/-- Every hypothesis of PonWakeAndStatus is met. -/
theorem hyps_met_PonWakeAndStatus :
  (∃ (s : State) (ring : Fin 64) (cid : Fin 65536) (c : Cmd) (p : Fin 2), Ready s ring cid 0x53 c ∧ c.arg 8 0 1 = p ∧ c.only [(8, 0, 1)] = true ∧
    c.user ≠ 0) ∧
  (∃ (s : State) (ring : Fin 64) (cid : Fin 65536) (c : Cmd) (p : Fin 2), Ready s ring cid 0x53 c ∧ c.arg 8 0 1 = p ∧ c.only [(8, 0, 1)] = true ∧
    c.user = 0 ∧ s.rg R.PON_STAT_PM p = 0) ∧
  (∃ (s : State) (ring : Fin 64) (cid : Fin 65536) (c : Cmd) (p : Fin 2), Ready s ring cid 0x53 c ∧ c.arg 8 0 1 = p ∧ c.only [(8, 0, 1)] = true ∧
    c.user = 0 ∧ s.rg R.PON_STAT_PM p ≠ 0) ∧
  (∃ (s : State) (ring : Fin 64) (cid : Fin 65536) (c : Cmd) (p : Fin 2), Ready s ring cid 0x54 c ∧ c.arg 8 0 1 = p ∧ c.arg 9 0 1 = 1 ∧ c.only [(8,
    0, 1), (9, 0, 1), (16, 0, 64)] = true ∧ c.user ≠ 0) ∧
  (∃ (s : State) (ring : Fin 64) (cid : Fin 65536) (c : Cmd) (p : Fin 2), Ready s ring cid 0x54 c ∧ c.arg 8 0 1 = p ∧ c.arg 9 0 1 = 1 ∧ c.only [(8,
    0, 1), (9, 0, 1), (16, 0, 64)] = true ∧ c.user = 0) :=
  ⟨⟨fl [(cm 0x53 [(8, 0, 1)] 1)], 0, 7, (cm 0x53 [(8, 0, 1)] 1), 1, by decide +kernel⟩,
   ⟨fl [(cm 0x53 [(8, 0, 1)])], 0, 7, (cm 0x53 [(8, 0, 1)]), 1, by decide +kernel⟩,
   ⟨fl [(cm 0x53 [])] (ps 3), 0, 7, (cm 0x53 []), 0, by decide +kernel⟩,
   ⟨fl [(cm 0x54 [(8, 0, 1), (9, 0, 1)] 7)], 0, 7, (cm 0x54 [(8, 0, 1), (9, 0, 1)] 7), 1, by decide +kernel⟩,
   ⟨fl [(cm 0x54 [(9, 0, 1)])], 0, 7, (cm 0x54 [(9, 0, 1)]), 0, by decide +kernel⟩⟩

/-- Every hypothesis of RadioCommands is met. -/
theorem hyps_met_RadioCommands :
  (∃ (s : State) (ring : Fin 64) (cid : Fin 65536) (c : Cmd) (n : Fin 4), Ready s ring cid 0x40 c ∧ c.arg 8 0 2 = n ∧ c.only [(8, 0, 2), (9, 0, 2),
    (16, 0, 64)] = true ∧ c.arg 9 1 1 = 1 ∧ ((s.carrier n).active = true ∨ (s.carrier n).pend ≠ none)) ∧
  (∃ (s : State) (ring : Fin 64) (cid : Fin 65536) (c : Cmd) (n : Fin 4), Ready s ring cid 0x40 c ∧ c.arg 8 0 2 = n ∧ c.only [(8, 0, 2), (9, 0, 2),
    (16, 0, 64)] = true ∧ c.arg 9 1 1 = 1 ∧ ((s.carrier n).active = true ∨ (s.carrier n).pend ≠ none)) ∧
  (∃ (s : State) (ring : Fin 64) (cid : Fin 65536) (c : Cmd) (n : Fin 4), Ready s ring cid 0x40 c ∧ c.arg 8 0 2 = n ∧ c.only [(8, 0, 2), (9, 0, 2),
    (16, 0, 64)] = true ∧ c.arg 9 1 1 = 1 ∧ ((s.carrier n).active = false) ∧ ((s.carrier n).pend = none) ∧ c.user ≠ 0) ∧
  (∃ (s : State) (ring : Fin 64) (cid : Fin 65536) (c : Cmd) (n : Fin 4), Ready s ring cid 0x40 c ∧ c.arg 8 0 2 = n ∧ c.only [(8, 0, 2), (9, 0, 2),
    (16, 0, 64)] = true ∧ c.arg 9 1 1 = 1 ∧ ((s.carrier n).active = false) ∧ ((s.carrier n).pend = none) ∧ c.user = 0) ∧
  (∃ (s : State) (ring : Fin 64) (cid : Fin 65536) (c : Cmd) (n : Fin 4) (b : List Byte), Ready s ring cid 0x40 c ∧ c.arg 8 0 2 = n ∧ c.only [(8, 0,
    2), (9, 0, 2), (16, 0, 64)] = true ∧ c.arg 9 1 1 = 0 ∧ c.arg 9 0 1 = 1 ∧ s.host.linkUp = true ∧ ((vget s.host.fns c.user).bme = true) ∧ b.length
    = 64 ∧ s.carrierOk n b = false) ∧
  (∃ (s : State) (ring : Fin 64) (cid : Fin 65536) (c : Cmd) (n : Fin 4) (b : List Byte) (same : Bool), Ready s ring cid 0x40 c ∧ c.arg 8 0 2 = n ∧
    c.only [(8, 0, 2), (9, 0, 2), (16, 0, 64)] = true ∧ c.arg 9 1 1 = 0 ∧ c.arg 9 0 1 = 1 ∧ s.host.linkUp = true ∧ ((vget s.host.fns c.user).bme =
    true) ∧ b.length = 64 ∧ s.carrierOk n b = true ∧ same = ((s.carrier n).conf && carrierStatic (s.carrier n).rec_ == carrierStatic b) ∧ ((s.carrier
    n).active = true ∨ (∃ r k, (s.carrier n).pend = some (r, k, true))) ∧ same = false) ∧
  (∃ (s : State) (ring : Fin 64) (cid : Fin 65536) (c : Cmd) (n : Fin 4) (b : List Byte) (same : Bool), Ready s ring cid 0x40 c ∧ c.arg 8 0 2 = n ∧
    c.only [(8, 0, 2), (9, 0, 2), (16, 0, 64)] = true ∧ c.arg 9 1 1 = 0 ∧ c.arg 9 0 1 = 1 ∧ s.host.linkUp = true ∧ ((vget s.host.fns c.user).bme =
    true) ∧ b.length = 64 ∧ s.carrierOk n b = true ∧ same = ((s.carrier n).conf && carrierStatic (s.carrier n).rec_ == carrierStatic b) ∧ ((s.carrier
    n).active = true ∨ (∃ r k, (s.carrier n).pend = some (r, k, true))) ∧ same = false) ∧
  (∃ (s : State) (ring : Fin 64) (cid : Fin 65536) (c : Cmd) (n : Fin 4) (b : List Byte) (same : Bool), Ready s ring cid 0x40 c ∧ c.arg 8 0 2 = n ∧
    c.only [(8, 0, 2), (9, 0, 2), (16, 0, 64)] = true ∧ c.arg 9 1 1 = 0 ∧ c.arg 9 0 1 = 1 ∧ s.host.linkUp = true ∧ ((vget s.host.fns c.user).bme =
    true) ∧ b.length = 64 ∧ s.carrierOk n b = true ∧ same = ((s.carrier n).conf && carrierStatic (s.carrier n).rec_ == carrierStatic b) ∧ (same =
    true ∨ ((s.carrier n).active = false ∧ (s.carrier n).pend = none)) ∧ c.user ≠ 0) ∧
  (∃ (s : State) (ring : Fin 64) (cid : Fin 65536) (c : Cmd) (n : Fin 4) (b : List Byte) (same : Bool), Ready s ring cid 0x40 c ∧ c.arg 8 0 2 = n ∧
    c.only [(8, 0, 2), (9, 0, 2), (16, 0, 64)] = true ∧ c.arg 9 1 1 = 0 ∧ c.arg 9 0 1 = 1 ∧ s.host.linkUp = true ∧ ((vget s.host.fns c.user).bme =
    true) ∧ b.length = 64 ∧ s.carrierOk n b = true ∧ same = ((s.carrier n).conf && carrierStatic (s.carrier n).rec_ == carrierStatic b) ∧ (same =
    true ∨ ((s.carrier n).active = false ∧ (s.carrier n).pend = none)) ∧ c.user = 0) ∧
  (∃ (s : State) (ring : Fin 64) (cid : Fin 65536) (c : Cmd) (n : Fin 4) (b : List Byte) (same : Bool), Ready s ring cid 0x40 c ∧ c.arg 8 0 2 = n ∧
    c.only [(8, 0, 2), (9, 0, 2), (16, 0, 64)] = true ∧ c.arg 9 1 1 = 0 ∧ c.arg 9 0 1 = 1 ∧ s.host.linkUp = true ∧ ((vget s.host.fns c.user).bme =
    true) ∧ b.length = 64 ∧ s.carrierOk n b = true ∧ same = ((s.carrier n).conf && carrierStatic (s.carrier n).rec_ == carrierStatic b) ∧ (same =
    true ∨ ((s.carrier n).active = false ∧ (s.carrier n).pend = none)) ∧ c.user = 0) ∧
  (∃ (s : State) (ring : Fin 64) (cid : Fin 65536) (c : Cmd) (n : Fin 4) (on : Bool), Ready s ring cid 0x41 c ∧ c.arg 8 0 2 = n ∧ c.only [(8, 0, 2),
    (9, 0, 1)] = true ∧ on = (c.arg 9 0 1 == 1) ∧ s.rg R.PST_STAT_STATE ≠ 2 ∧ ((s.carrier n).conf = false)) ∧
  (∃ (s : State) (ring : Fin 64) (cid : Fin 65536) (c : Cmd) (n : Fin 4) (on : Bool), Ready s ring cid 0x41 c ∧ c.arg 8 0 2 = n ∧ c.only [(8, 0, 2),
    (9, 0, 1)] = true ∧ on = (c.arg 9 0 1 == 1) ∧ s.rg R.PST_STAT_STATE ≠ 2 ∧ ((s.carrier n).conf = true) ∧ (on = true → s.sysrefFits (s.carrier
    n).rec_ = true) ∧ ((s.carrier n).pend ≠ none)) ∧
  (∃ (s : State) (ring : Fin 64) (cid : Fin 65536) (c : Cmd) (n : Fin 4) (on : Bool), Ready s ring cid 0x41 c ∧ c.arg 8 0 2 = n ∧ c.only [(8, 0, 2),
    (9, 0, 1)] = true ∧ on = (c.arg 9 0 1 == 1) ∧ s.rg R.PST_STAT_STATE ≠ 2 ∧ ((s.carrier n).conf = true) ∧ (on = true → s.sysrefFits (s.carrier
    n).rec_ = true) ∧ ((s.carrier n).pend = none) ∧ c.user ≠ 0) ∧
  (∃ (s : State) (ring : Fin 64) (cid : Fin 65536) (c : Cmd) (n : Fin 4) (on : Bool), Ready s ring cid 0x41 c ∧ c.arg 8 0 2 = n ∧ c.only [(8, 0, 2),
    (9, 0, 1)] = true ∧ on = (c.arg 9 0 1 == 1) ∧ s.rg R.PST_STAT_STATE ≠ 2 ∧ ((s.carrier n).conf = true) ∧ (on = true → s.sysrefFits (s.carrier
    n).rec_ = true) ∧ ((s.carrier n).pend = none) ∧ c.user = 0 ∧ ((s.carrier n).active = on)) ∧
  (∃ (s : State) (ring : Fin 64) (cid : Fin 65536) (c : Cmd) (n : Fin 4) (on : Bool), Ready s ring cid 0x41 c ∧ c.arg 8 0 2 = n ∧ c.only [(8, 0, 2),
    (9, 0, 1)] = true ∧ on = (c.arg 9 0 1 == 1) ∧ s.rg R.PST_STAT_STATE ≠ 2 ∧ ((s.carrier n).conf = true) ∧ (on = true → s.sysrefFits (s.carrier
    n).rec_ = true) ∧ ((s.carrier n).pend = none) ∧ c.user = 0 ∧ ((s.carrier n).active = on)) ∧
  (∃ (s : State) (ring : Fin 64) (cid : Fin 65536) (c : Cmd) (n : Fin 4) (on : Bool), Ready s ring cid 0x41 c ∧ c.arg 8 0 2 = n ∧ c.only [(8, 0, 2),
    (9, 0, 1)] = true ∧ on = (c.arg 9 0 1 == 1) ∧ s.rg R.PST_STAT_STATE ≠ 2 ∧ ((s.carrier n).conf = true) ∧ (on = true → s.sysrefFits (s.carrier
    n).rec_ = true) ∧ ((s.carrier n).pend = none) ∧ c.user = 0 ∧ ((s.carrier n).active ≠ on)) ∧
  (∃ (s : State) (ring : Fin 64) (cid : Fin 65536) (c : Cmd) (n : Fin 4) (on : Bool), Ready s ring cid 0x41 c ∧ c.arg 8 0 2 = n ∧ c.only [(8, 0, 2),
    (9, 0, 1)] = true ∧ on = (c.arg 9 0 1 == 1) ∧ s.rg R.PST_STAT_STATE ≠ 2 ∧ ((s.carrier n).conf = true) ∧ (on = true → s.sysrefFits (s.carrier
    n).rec_ = true) ∧ ((s.carrier n).pend = none) ∧ c.user = 0 ∧ ((s.carrier n).active ≠ on)) ∧
  (∃ (s : State) (ring : Fin 64) (cid : Fin 65536) (c : Cmd) (k : Fin 4) (b : List Byte), Ready s ring cid 0x42 c ∧ c.arg 8 0 8 = k ∧ c.only [(8, 0,
    8), (9, 0, 1), (10, 0, 8), (11, 0, 8), (16, 0, 64)] = true ∧ c.arg 10 0 8 ≤ 159 ∧ 1 ≤ c.arg 11 0 8 ∧ c.arg 11 0 8 ≤ 160 ∧ c.arg 9 0 1 = 1 ∧
    s.host.linkUp = true ∧ ((vget s.host.fns c.user).bme = true) ∧ b.length = 4 * c.arg 11 0 8 ∧ ((s.carrier k).conf = false ∨ cPeriod (s.carrier
    k).rec_ < c.arg 10 0 8 + c.arg 11 0 8)) ∧
  (∃ (s : State) (ring : Fin 64) (cid : Fin 65536) (c : Cmd) (k : Fin 4) (b : List Byte), Ready s ring cid 0x42 c ∧ c.arg 8 0 8 = k ∧ c.only [(8, 0,
    8), (9, 0, 1), (10, 0, 8), (11, 0, 8), (16, 0, 64)] = true ∧ c.arg 10 0 8 ≤ 159 ∧ 1 ≤ c.arg 11 0 8 ∧ c.arg 11 0 8 ≤ 160 ∧ c.arg 9 0 1 = 1 ∧
    s.host.linkUp = true ∧ ((vget s.host.fns c.user).bme = true) ∧ b.length = 4 * c.arg 11 0 8 ∧ ((s.carrier k).conf = true) ∧ c.arg 10 0 8 + c.arg
    11 0 8 ≤ cPeriod (s.carrier k).rec_ ∧ (∃ i, i < c.arg 11 0 8 ∧ 2 ^ 28 ≤ rec32 b (4 * i))) ∧
  (∃ (s : State) (ring : Fin 64) (cid : Fin 65536) (c : Cmd) (k : Fin 4) (b : List Byte), Ready s ring cid 0x42 c ∧ c.arg 8 0 8 = k ∧ c.only [(8, 0,
    8), (9, 0, 1), (10, 0, 8), (11, 0, 8), (16, 0, 64)] = true ∧ c.arg 10 0 8 ≤ 159 ∧ 1 ≤ c.arg 11 0 8 ∧ c.arg 11 0 8 ≤ 160 ∧ c.arg 9 0 1 = 1 ∧
    s.host.linkUp = true ∧ ((vget s.host.fns c.user).bme = true) ∧ b.length = 4 * c.arg 11 0 8 ∧ ((s.carrier k).conf = true) ∧ c.arg 10 0 8 + c.arg
    11 0 8 ≤ cPeriod (s.carrier k).rec_ ∧ (∀ i, i < c.arg 11 0 8 → rec32 b (4 * i) < 2 ^ 28) ∧ c.user = 0 ∧ ((s.carrier k).active = false) ∧
    ((s.carrier k).tab.length = 160) ∧ c.arg 10 0 8 + c.arg 11 0 8 ≤ 160) ∧
  (∃ (s : State) (ring : Fin 64) (cid : Fin 65536) (c : Cmd) (k : Fin 4) (b : List Byte), Ready s ring cid 0x42 c ∧ c.arg 8 0 8 = k ∧ c.only [(8, 0,
    8), (9, 0, 1), (10, 0, 8), (11, 0, 8), (16, 0, 64)] = true ∧ c.arg 10 0 8 ≤ 159 ∧ 1 ≤ c.arg 11 0 8 ∧ c.arg 11 0 8 ≤ 160 ∧ c.arg 9 0 1 = 1 ∧
    s.host.linkUp = true ∧ ((vget s.host.fns c.user).bme = true) ∧ b.length = 4 * c.arg 11 0 8 ∧ ((s.carrier k).conf = true) ∧ c.arg 10 0 8 + c.arg
    11 0 8 ≤ cPeriod (s.carrier k).rec_ ∧ (∀ i, i < c.arg 11 0 8 → rec32 b (4 * i) < 2 ^ 28) ∧ c.user = 0 ∧ ((s.carrier k).active = true)) ∧
  (∃ (s : State) (ring : Fin 64) (cid : Fin 65536) (c : Cmd) (p : Fin 8) (a : AgcCfg), Ready s ring cid 0x43 c ∧ c.arg 8 0 3 = p ∧ c.only [(8, 0, 6),
    (9, 0, 8), (10, 0, 8), (11, 0, 8), (12, 0, 8), (13, 0, 8), (14, 0, 8), (15, 0, 2), (16, 0, 16)] = true ∧ a.en = (c.arg 8 3 1 == 1) ∧ a.step = [1,
    2, 4, 6].getD (c.arg 8 4 2) 0 ∧ a.hi = sext (c.arg 9 0 8) 8 ∧ a.lo = sext (c.arg 10 0 8) 8 ∧ a.relN = c.arg 11 0 8 ∧ a.atkMax = c.arg 12 0 8 ∧
    a.manual = c.arg 13 0 4 ∧ a.ini = c.arg 13 4 4 ∧ a.ed = sext (c.arg 14 0 8) 8 ∧ a.edWin = c.arg 15 0 2 ∧ a.lat = c.arg 16 0 16 ∧ (a.hi ≤ a.lo ∨
    a.hi < -12 ∨ 0 < a.hi ∨ a.relN = 0 ∨ 64 < a.relN ∨ a.atkMax = 0 ∨ 15 < a.atkMax ∨ 1000 < a.lat)) ∧
  (∃ (s : State) (ring : Fin 64) (cid : Fin 65536) (c : Cmd) (p : Fin 8) (a : AgcCfg) (k : _), Ready s ring cid 0x43 c ∧ c.arg 8 0 3 = p ∧ c.only
    [(8, 0, 6), (9, 0, 8), (10, 0, 8), (11, 0, 8), (12, 0, 8), (13, 0, 8), (14, 0, 8), (15, 0, 2), (16, 0, 16)] = true ∧ a.en = (c.arg 8 3 1 == 1) ∧
    a.step = [1, 2, 4, 6].getD (c.arg 8 4 2) 0 ∧ a.hi = sext (c.arg 9 0 8) 8 ∧ a.lo = sext (c.arg 10 0 8) 8 ∧ a.relN = c.arg 11 0 8 ∧ a.atkMax =
    c.arg 12 0 8 ∧ a.manual = c.arg 13 0 4 ∧ a.ini = c.arg 13 4 4 ∧ a.ed = sext (c.arg 14 0 8) 8 ∧ a.edWin = c.arg 15 0 2 ∧ a.lat = c.arg 16 0 16 ∧
    -12 ≤ a.hi ∧ a.hi ≤ 0 ∧ -40 ≤ a.lo ∧ a.lo ≤ -6 ∧ a.lo < a.hi ∧ 1 ≤ a.relN ∧ a.relN ≤ 64 ∧ 1 ≤ a.atkMax ∧ a.atkMax ≤ 15 ∧ -60 ≤ a.ed ∧ a.ed ≤ 0 ∧
    a.lat ≤ 1000 ∧ s.pairOwner p = some k ∧ ((s.carrier k).active = true) ∧ (a.lat ≠ (s.agcOf p).cfg.lat ∨ a.ini ≠ (s.agcOf p).cfg.ini)) ∧
  (∃ (s : State) (ring : Fin 64) (cid : Fin 65536) (c : Cmd) (p : Fin 8) (a : AgcCfg) (k : _), Ready s ring cid 0x43 c ∧ c.arg 8 0 3 = p ∧ c.only
    [(8, 0, 6), (9, 0, 8), (10, 0, 8), (11, 0, 8), (12, 0, 8), (13, 0, 8), (14, 0, 8), (15, 0, 2), (16, 0, 16)] = true ∧ a.en = (c.arg 8 3 1 == 1) ∧
    a.step = [1, 2, 4, 6].getD (c.arg 8 4 2) 0 ∧ a.hi = sext (c.arg 9 0 8) 8 ∧ a.lo = sext (c.arg 10 0 8) 8 ∧ a.relN = c.arg 11 0 8 ∧ a.atkMax =
    c.arg 12 0 8 ∧ a.manual = c.arg 13 0 4 ∧ a.ini = c.arg 13 4 4 ∧ a.ed = sext (c.arg 14 0 8) 8 ∧ a.edWin = c.arg 15 0 2 ∧ a.lat = c.arg 16 0 16 ∧
    -12 ≤ a.hi ∧ a.hi ≤ 0 ∧ -40 ≤ a.lo ∧ a.lo ≤ -6 ∧ a.lo < a.hi ∧ 1 ≤ a.relN ∧ a.relN ≤ 64 ∧ 1 ≤ a.atkMax ∧ a.atkMax ≤ 15 ∧ -60 ≤ a.ed ∧ a.ed ≤ 0 ∧
    a.lat ≤ 1000 ∧ s.pairOwner p = some k ∧ ((s.carrier k).active = true) ∧ a.lat = (s.agcOf p).cfg.lat ∧ a.ini = (s.agcOf p).cfg.ini ∧ c.user = 0) ∧
  (∃ (s : State) (ring : Fin 64) (cid : Fin 65536) (c : Cmd) (p : Fin 8) (a : AgcCfg), Ready s ring cid 0x43 c ∧ c.arg 8 0 3 = p ∧ c.only [(8, 0, 6),
    (9, 0, 8), (10, 0, 8), (11, 0, 8), (12, 0, 8), (13, 0, 8), (14, 0, 8), (15, 0, 2), (16, 0, 16)] = true ∧ a.en = (c.arg 8 3 1 == 1) ∧ a.step = [1,
    2, 4, 6].getD (c.arg 8 4 2) 0 ∧ a.hi = sext (c.arg 9 0 8) 8 ∧ a.lo = sext (c.arg 10 0 8) 8 ∧ a.relN = c.arg 11 0 8 ∧ a.atkMax = c.arg 12 0 8 ∧
    a.manual = c.arg 13 0 4 ∧ a.ini = c.arg 13 4 4 ∧ a.ed = sext (c.arg 14 0 8) 8 ∧ a.edWin = c.arg 15 0 2 ∧ a.lat = c.arg 16 0 16 ∧ -12 ≤ a.hi ∧
    a.hi ≤ 0 ∧ -40 ≤ a.lo ∧ a.lo ≤ -6 ∧ a.lo < a.hi ∧ 1 ≤ a.relN ∧ a.relN ≤ 64 ∧ 1 ≤ a.atkMax ∧ a.atkMax ≤ 15 ∧ -60 ≤ a.ed ∧ a.ed ≤ 0 ∧ a.lat ≤ 1000
    ∧ s.pairOwner p = none ∧ c.user = 0) ∧
  (∃ (s : State) (ring : Fin 64) (cid : Fin 65536) (c : Cmd), Ready s ring cid 0x44 c ∧ c.only [(8, 0, 8), (9, 0, 2)] = true ∧ 4 ≤ c.arg 8 0 8) ∧
  (∃ (s : State) (ring : Fin 64) (cid : Fin 65536) (c : Cmd) (k : Fin 4), Ready s ring cid 0x44 c ∧ c.only [(8, 0, 8), (9, 0, 2)] = true ∧ c.arg 8 0
    8 = k ∧ ((s.carrier k).active = false)) ∧
  (∃ (s : State) (ring : Fin 64) (cid : Fin 65536) (c : Cmd) (k : Fin 4), Ready s ring cid 0x44 c ∧ c.only [(8, 0, 8), (9, 0, 2)] = true ∧ c.arg 8 0
    8 = k ∧ ((s.carrier k).active = true) ∧ c.user ≠ 0) ∧
  (∃ (s : State) (ring : Fin 64) (cid : Fin 65536) (c : Cmd) (k : Fin 4), Ready s ring cid 0x44 c ∧ c.only [(8, 0, 8), (9, 0, 2)] = true ∧ c.arg 8 0
    8 = k ∧ ((s.carrier k).active = true) ∧ c.user = 0) ∧
  (∃ (s : State) (ring : Fin 64) (cid : Fin 65536) (c : Cmd) (r : List Byte), Ready s ring cid 0x45 c ∧ s.rg R.PST_STAT_STATE ≠ 2 ∧ c.only [(8, 0,
    256)] = true ∧ r = slice c.args 0 32 ∧ polarOk r = true ∧ s.bufFits c.user (pIn r) (pInBytes r) false = true ∧ s.bufFits c.user (pOut r)
    (pOutBytes r) true = true) ∧
  (∃ (s : State) (ring : Fin 64) (cid : Fin 65536) (c : Cmd) (r : List Byte), Ready s ring cid 0x45 c ∧ s.rg R.PST_STAT_STATE ≠ 2 ∧ c.only [(8, 0,
    256)] = true ∧ r = slice c.args 0 32 ∧ (polarOk r = false ∨ s.bufFits c.user (pIn r) (pInBytes r) false = false ∨ s.bufFits c.user (pOut r)
    (pOutBytes r) true = false)) :=
  ⟨⟨fl [(cm 0x40 [(9, 1, 1)])] ((car { active := true })), 0, 7, (cm 0x40 [(9, 1, 1)]), 0, by decide +kernel⟩,
   ⟨fl [(cm 0x40 [(9, 1, 1)])] ((car { pend := some (1, 7, true) })), 0, 7, (cm 0x40 [(9, 1, 1)]), 0, by decide +kernel⟩,
   ⟨fl [(cm 0x40 [(9, 1, 1)] 1)], 0, 7, (cm 0x40 [(9, 1, 1)] 1), 0, by decide +kernel⟩,
   ⟨fl [(cm 0x40 [(8, 0, 3), (9, 1, 1)])], 0, 7, (cm 0x40 [(8, 0, 3), (9, 1, 1)]), 3, by decide +kernel⟩,
   ⟨fl [(cm 0x40 [(9, 0, 1), (16, 0, 4096)])], 0, 7, (cm 0x40 [(9, 0, 1), (16, 0, 4096)]), 0, List.replicate 64 0, by decide +kernel⟩,
   ⟨fl [(cm 0x40 kc)] ((car { conf := true, active := true, rec_ := rb 64 [(0, 0, 1)] } (pool1 {}))), 0, 7, (cm 0x40 kc), 0, kr,
     (((fl [(cm 0x40 kc)] ((car { conf := true, active := true, rec_ := rb 64 [(0, 0, 1)] } (pool1 {})))).carrier (0)).conf && carrierStatic ((fl [(cm 0x40 kc)] ((car { conf := true, active := true, rec_ := rb 64 [(0, 0, 1)] } (pool1 {})))).carrier (0)).rec_ == carrierStatic (kr)),
     ⟨by decide +kernel, by decide +kernel, by decide +kernel, by decide +kernel, by decide +kernel, by decide +kernel, by decide +kernel, by decide +kernel, by decide +kernel, rfl, .inl (by decide +kernel), by decide +kernel⟩⟩,
   ⟨fl [(cm 0x40 kc)] ((car { pend := some (1, 7, true) } (pool1 {}))), 0, 7, (cm 0x40 kc), 0, kr,
     (((fl [(cm 0x40 kc)] ((car { pend := some (1, 7, true) } (pool1 {})))).carrier (0)).conf && carrierStatic ((fl [(cm 0x40 kc)] ((car { pend := some (1, 7, true) } (pool1 {})))).carrier (0)).rec_ == carrierStatic (kr)),
     ⟨by decide +kernel, by decide +kernel, by decide +kernel, by decide +kernel, by decide +kernel, by decide +kernel, by decide +kernel, by decide +kernel, by decide +kernel, rfl, .inr ⟨1, 7, by decide +kernel⟩, by decide +kernel⟩⟩,
   ⟨fl [(cm 0x40 kc 1)] ((pool1 {})), 0, 7, (cm 0x40 kc 1), 0, kr,
     (((fl [(cm 0x40 kc 1)] ((pool1 {}))).carrier (0)).conf && carrierStatic ((fl [(cm 0x40 kc 1)] ((pool1 {}))).carrier (0)).rec_ == carrierStatic (kr)),
     ⟨by decide +kernel, by decide +kernel, by decide +kernel, by decide +kernel, by decide +kernel, by decide +kernel, by decide +kernel, by decide +kernel, by decide +kernel, rfl, by decide +kernel, by decide +kernel⟩⟩,
   ⟨fl [(cm 0x40 kc)] ((pool1 {})), 0, 7, (cm 0x40 kc), 0, kr,
     (((fl [(cm 0x40 kc)] ((pool1 {}))).carrier (0)).conf && carrierStatic ((fl [(cm 0x40 kc)] ((pool1 {}))).carrier (0)).rec_ == carrierStatic (kr)),
     ⟨by decide +kernel, by decide +kernel, by decide +kernel, by decide +kernel, by decide +kernel, by decide +kernel, by decide +kernel, by decide +kernel, by decide +kernel, rfl, by decide +kernel, by decide +kernel⟩⟩,
   ⟨fl [(cm 0x40 kc)] ((car { conf := true, active := true, rec_ := kr } (pool1 {}))), 0, 7, (cm 0x40 kc), 0, kr,
     (((fl [(cm 0x40 kc)] ((car { conf := true, active := true, rec_ := kr } (pool1 {})))).carrier (0)).conf && carrierStatic ((fl [(cm 0x40 kc)] ((car { conf := true, active := true, rec_ := kr } (pool1 {})))).carrier (0)).rec_ == carrierStatic (kr)),
     ⟨by decide +kernel, by decide +kernel, by decide +kernel, by decide +kernel, by decide +kernel, by decide +kernel, by decide +kernel, by decide +kernel, by decide +kernel, rfl, by decide +kernel, by decide +kernel⟩⟩,
   ⟨fl [(cm 0x41 [(8, 0, 3), (9, 0, 1)])], 0, 7, (cm 0x41 [(8, 0, 3), (9, 0, 1)]), 3, true, by decide +kernel⟩,
   ⟨fl [(cm 0x41 [(9, 0, 1)])] ((car { conf := true, rec_ := kr, pend := some (0, 8, true) })), 0, 7, (cm 0x41 [(9, 0, 1)]), 0, true,
     by decide +kernel⟩,
   ⟨fl [(cm 0x41 [(9, 0, 1)] 1)] ((car { conf := true, rec_ := kr })), 0, 7, (cm 0x41 [(9, 0, 1)] 1), 0, true, by decide +kernel⟩,
   ⟨fl [(cm 0x41 [(9, 0, 1)])] ((car { conf := true, rec_ := kr, active := true })), 0, 7, (cm 0x41 [(9, 0, 1)]), 0, true, by decide +kernel⟩,
   ⟨fl [(cm 0x41 [])] ((car { conf := true, rec_ := kr })), 0, 7, (cm 0x41 []), 0, false, by decide +kernel⟩,
   ⟨fl [(cm 0x41 [(9, 0, 1)])] ((car { conf := true, rec_ := kr })), 0, 7, (cm 0x41 [(9, 0, 1)]), 0, true, by decide +kernel⟩,
   ⟨fl [(cm 0x41 [])] ((car { conf := true, rec_ := kr, active := true })), 0, 7, (cm 0x41 []), 0, false, by decide +kernel⟩,
   ⟨fl [(cm 0x42 [(9, 0, 1), (10, 0, 159), (11, 0, 1), (16, 0, 4096)])] ((car { conf := true, rec_ := kr })), 0, 7, (cm 0x42 [(9, 0, 1), (10, 0,
     159), (11, 0, 1), (16, 0, 4096)]), 0, [0, 0, 0, 0], by decide +kernel⟩,
   ⟨fl [(cm 0x42 [(9, 0, 1), (11, 0, 1), (16, 0, 4096)])] ((car { conf := true, rec_ := kr })), 0, 7, (cm 0x42 [(9, 0, 1), (11, 0, 1), (16, 0,
     4096)]), 0, [0, 0, 0, 16],
     ⟨by decide +kernel, by decide +kernel, by decide +kernel, by decide +kernel, by decide +kernel, by decide +kernel, by decide +kernel, by decide +kernel, by decide +kernel, by decide +kernel, by decide +kernel, by decide +kernel, 0, by decide +kernel⟩⟩,
   ⟨fl [(cm 0x42 [(9, 0, 1), (10, 0, 9), (11, 0, 1), (16, 0, 4096)])] ((car { conf := true, rec_ := kr, tab := List.replicate 160 0 })), 0, 7, (cm
     0x42 [(9, 0, 1), (10, 0, 9), (11, 0, 1), (16, 0, 4096)]), 0, [255, 255, 255, 15],
     ⟨by decide +kernel, by decide +kernel, by decide +kernel, by decide +kernel, by decide +kernel, by decide +kernel, by decide +kernel, by decide +kernel, by decide +kernel, by decide +kernel, by decide +kernel, by decide +kernel, fun i h => (by decide +kernel : ∀ i : Fin 1, rec32 [255, 255, 255, 15] (4 * i.val) < 2 ^ 28) ⟨i, h⟩, by decide +kernel⟩⟩,
   ⟨fl [(cm 0x42 [(9, 0, 1), (10, 0, 9), (11, 0, 1), (16, 0, 4096)])] ((car { conf := true, rec_ := kr, active := true })), 0, 7, (cm 0x42 [(9, 0,
     1), (10, 0, 9), (11, 0, 1), (16, 0, 4096)]), 0, [255, 255, 255, 15],
     ⟨by decide +kernel, by decide +kernel, by decide +kernel, by decide +kernel, by decide +kernel, by decide +kernel, by decide +kernel, by decide +kernel, by decide +kernel, by decide +kernel, by decide +kernel, by decide +kernel, fun i h => (by decide +kernel : ∀ i : Fin 1, rec32 [255, 255, 255, 15] (4 * i.val) < 2 ^ 28) ⟨i, h⟩, by decide +kernel⟩⟩,
   ⟨fl [(cm 0x43 (ag 1001))], 0, 7, (cm 0x43 (ag 1001)), 0, agr 1001, by decide +kernel⟩,
   ⟨fl [(cm 0x43 (ag 100))] ((car { conf := true, active := true, rec_ := rb 64 [(4, 0, 2)] })), 0, 7, (cm 0x43 (ag 100)), 0, agr 100, 0,
     by decide +kernel⟩,
   ⟨fl [(cm 0x43 (ag 0))] ((car { conf := true, active := true, rec_ := rb 64 [(4, 0, 2)] })), 0, 7, (cm 0x43 (ag 0)), 0, agr 0, 0,
     by decide +kernel⟩,
   ⟨fl [(cm 0x43 (ag 1000))], 0, 7, (cm 0x43 (ag 1000)), 0, agr 1000, by decide +kernel⟩,
   ⟨fl [(cm 0x44 [(8, 0, 4)])], 0, 7, (cm 0x44 [(8, 0, 4)]), by decide +kernel⟩,
   ⟨fl [(cm 0x44 [(8, 0, 3)])], 0, 7, (cm 0x44 [(8, 0, 3)]), 3, by decide +kernel⟩,
   ⟨fl [(cm 0x44 [] 1)] ((car { active := true })), 0, 7, (cm 0x44 [] 1), 0, by decide +kernel⟩,
   ⟨fl [(cm 0x44 [(9, 0, 3)])] ((car { active := true })), 0, 7, (cm 0x44 [(9, 0, 3)]), 0, by decide +kernel⟩,
   ⟨fl [(cm 0x45 [(10, 0, 12), (12, 0, 25), (16, 0, handleOf 0 32 1), (20, 0, handleOf 0 32 1)])] ((pool1 { st := .owned, owner := 32 })), 0, 7, (cm
     0x45 [(10, 0, 12), (12, 0, 25), (16, 0, handleOf 0 32 1), (20, 0, handleOf 0 32 1)]), slice (cm 0x45 [(10, 0, 12), (12, 0, 25), (16, 0, handleOf
     0 32 1), (20, 0, handleOf 0 32 1)]).args 0 32, by decide +kernel⟩,
   ⟨fl [(cm 0x45 [(10, 0, 11)])], 0, 7, (cm 0x45 [(10, 0, 11)]), slice (cm 0x45 [(10, 0, 11)]).args 0 32, by decide +kernel⟩⟩

/-- Every hypothesis of PonCommands is met. -/
theorem hyps_met_PonCommands_1 :
  (∃ (s : State) (ring : Fin 64) (cid : Fin 65536) (c : Cmd) (p : Fin 2) (b : List Byte) (same : Bool), Ready s ring cid 0x50 c ∧ c.arg 8 0 1 = p ∧
    c.only [(8, 0, 1), (9, 0, 1), (16, 0, 64)] = true ∧ c.arg 9 0 1 = 1 ∧ s.host.linkUp = true ∧ ((vget s.host.fns c.user).bme = true) ∧ b.length =
    128 ∧ same = (ponStatic b == ponStatic (fitBytes 128 (s.port p).rec_)) ∧ ponRecOk b = false) ∧
  (∃ (s : State) (ring : Fin 64) (cid : Fin 65536) (c : Cmd) (p : Fin 2) (b : List Byte) (same : Bool), Ready s ring cid 0x50 c ∧ c.arg 8 0 1 = p ∧
    c.only [(8, 0, 1), (9, 0, 1), (16, 0, 64)] = true ∧ c.arg 9 0 1 = 1 ∧ s.host.linkUp = true ∧ ((vget s.host.fns c.user).bme = true) ∧ b.length =
    128 ∧ same = (ponStatic b == ponStatic (fitBytes 128 (s.port p).rec_)) ∧ ponRecOk b = true ∧ ((s.port p).enabled = true) ∧ same = false) ∧
  (∃ (s : State) (ring : Fin 64) (cid : Fin 65536) (c : Cmd) (p : Fin 2) (b : List Byte) (same : Bool), Ready s ring cid 0x50 c ∧ c.arg 8 0 1 = p ∧
    c.only [(8, 0, 1), (9, 0, 1), (16, 0, 64)] = true ∧ c.arg 9 0 1 = 1 ∧ s.host.linkUp = true ∧ ((vget s.host.fns c.user).bme = true) ∧ b.length =
    128 ∧ same = (ponStatic b == ponStatic (fitBytes 128 (s.port p).rec_)) ∧ ponRecOk b = true ∧ ((s.port p).enabled = false ∨ same = true) ∧ c.user
    ≠ 0) ∧
  (∃ (s : State) (ring : Fin 64) (cid : Fin 65536) (c : Cmd) (p : Fin 2) (b : List Byte) (same : Bool), Ready s ring cid 0x50 c ∧ c.arg 8 0 1 = p ∧
    c.only [(8, 0, 1), (9, 0, 1), (16, 0, 64)] = true ∧ c.arg 9 0 1 = 1 ∧ s.host.linkUp = true ∧ ((vget s.host.fns c.user).bme = true) ∧ b.length =
    128 ∧ same = (ponStatic b == ponStatic (fitBytes 128 (s.port p).rec_)) ∧ ponRecOk b = true ∧ ((s.port p).enabled = true) ∧ same = true ∧ c.user =
    0 ∧ recF b 0 2 1 = 1) ∧
  (∃ (s : State) (ring : Fin 64) (cid : Fin 65536) (c : Cmd) (p : Fin 2) (b : List Byte) (same : Bool), Ready s ring cid 0x50 c ∧ c.arg 8 0 1 = p ∧
    c.only [(8, 0, 1), (9, 0, 1), (16, 0, 64)] = true ∧ c.arg 9 0 1 = 1 ∧ s.host.linkUp = true ∧ ((vget s.host.fns c.user).bme = true) ∧ b.length =
    128 ∧ same = (ponStatic b == ponStatic (fitBytes 128 (s.port p).rec_)) ∧ ponRecOk b = true ∧ ((s.port p).enabled = true) ∧ same = true ∧ c.user =
    0 ∧ recF b 0 2 1 = 0) ∧
  (∃ (s : State) (ring : Fin 64) (cid : Fin 65536) (c : Cmd) (p : Fin 2) (b : List Byte) (same : Bool), Ready s ring cid 0x50 c ∧ c.arg 8 0 1 = p ∧
    c.only [(8, 0, 1), (9, 0, 1), (16, 0, 64)] = true ∧ c.arg 9 0 1 = 1 ∧ s.host.linkUp = true ∧ ((vget s.host.fns c.user).bme = true) ∧ b.length =
    128 ∧ same = (ponStatic b == ponStatic (fitBytes 128 (s.port p).rec_)) ∧ ponRecOk b = true ∧ ((s.port p).enabled = false) ∧ c.user = 0 ∧ recF b 0
    2 1 = 0 ∧ recF b 0 0 2 = (s.port p).mode) ∧
  (∃ (s : State) (ring : Fin 64) (cid : Fin 65536) (c : Cmd) (p : Fin 2) (b : List Byte) (same : Bool), Ready s ring cid 0x50 c ∧ c.arg 8 0 1 = p ∧
    c.only [(8, 0, 1), (9, 0, 1), (16, 0, 64)] = true ∧ c.arg 9 0 1 = 1 ∧ s.host.linkUp = true ∧ ((vget s.host.fns c.user).bme = true) ∧ b.length =
    128 ∧ same = (ponStatic b == ponStatic (fitBytes 128 (s.port p).rec_)) ∧ ponRecOk b = true ∧ ((s.port p).enabled = false) ∧ c.user = 0 ∧ recF b 0
    2 1 = 1) ∧
  (∃ (s : State) (ring : Fin 64) (cid : Fin 65536) (c : Cmd) (p : Fin 2) (e : Nat) (x : XgemEntry), Ready s ring cid 0x51 c ∧ c.arg 8 0 1 = p ∧ c.arg
    9 0 8 = e ∧ c.only [(8, 0, 1), (9, 0, 8), (10, 0, 7), (11, 0, 5), (12, 0, 16), (14, 0, 6), (15, 0, 5), (16, 0, 4)] = true ∧ x = ⟨c.arg 10 0 1 ==
    1, c.arg 10 1 1 == 1, c.arg 10 2 3, c.arg 10 5 1 == 1, c.arg 10 6 1 == 1, c.arg 11 0 5, c.arg 12 0 16, c.arg 14 0 6, c.arg 15 0 5, c.arg 16 0 4⟩
    ∧ (s.xgemOk p e x = false ∨ 4 < x.kind)) ∧
  (∃ (s : State) (ring : Fin 64) (cid : Fin 65536) (c : Cmd) (p : Fin 2) (e : Nat) (x : XgemEntry), Ready s ring cid 0x51 c ∧ c.arg 8 0 1 = p ∧ c.arg
    9 0 8 = e ∧ c.only [(8, 0, 1), (9, 0, 8), (10, 0, 7), (11, 0, 5), (12, 0, 16), (14, 0, 6), (15, 0, 5), (16, 0, 4)] = true ∧ x = ⟨c.arg 10 0 1 ==
    1, c.arg 10 1 1 == 1, c.arg 10 2 3, c.arg 10 5 1 == 1, c.arg 10 6 1 == 1, c.arg 11 0 5, c.arg 12 0 16, c.arg 14 0 6, c.arg 15 0 5, c.arg 16 0 4⟩
    ∧ s.xgemOk p e x = true ∧ (((s.port p).entry e).up = true) ∧ ((s.port p).items.any (fun i => i.entry == e) = true)) ∧
  (∃ (s : State) (ring : Fin 64) (cid : Fin 65536) (c : Cmd) (p : Fin 2) (e : Nat) (x : XgemEntry), Ready s ring cid 0x51 c ∧ c.arg 8 0 1 = p ∧ c.arg
    9 0 8 = e ∧ c.only [(8, 0, 1), (9, 0, 8), (10, 0, 7), (11, 0, 5), (12, 0, 16), (14, 0, 6), (15, 0, 5), (16, 0, 4)] = true ∧ x = ⟨c.arg 10 0 1 ==
    1, c.arg 10 1 1 == 1, c.arg 10 2 3, c.arg 10 5 1 == 1, c.arg 10 6 1 == 1, c.arg 11 0 5, c.arg 12 0 16, c.arg 14 0 6, c.arg 15 0 5, c.arg 16 0 4⟩
    ∧ s.xgemOk p e x = true ∧ (((s.port p).entry e).up = false ∨ (s.port p).items.any (fun i => i.entry == e) = false) ∧ c.user ≠ 0) ∧
  (∃ (s : State) (ring : Fin 64) (cid : Fin 65536) (c : Cmd) (p : Fin 2) (e : Nat) (x : XgemEntry), Ready s ring cid 0x51 c ∧ c.arg 8 0 1 = p ∧ c.arg
    9 0 8 = e ∧ c.only [(8, 0, 1), (9, 0, 8), (10, 0, 7), (11, 0, 5), (12, 0, 16), (14, 0, 6), (15, 0, 5), (16, 0, 4)] = true ∧ x = ⟨c.arg 10 0 1 ==
    1, c.arg 10 1 1 == 1, c.arg 10 2 3, c.arg 10 5 1 == 1, c.arg 10 6 1 == 1, c.arg 11 0 5, c.arg 12 0 16, c.arg 14 0 6, c.arg 15 0 5, c.arg 16 0 4⟩
    ∧ s.xgemOk p e x = true ∧ (((s.port p).entry e).up = false ∨ (s.port p).items.any (fun i => i.entry == e) = false) ∧ c.user = 0 ∧ ((s.port
    p).enabled = true) ∧ s.flag R.PON_STAT_SYNC p = true) ∧
  (∃ (s : State) (ring : Fin 64) (cid : Fin 65536) (c : Cmd) (p : Fin 2) (e : Nat) (x : XgemEntry), Ready s ring cid 0x51 c ∧ c.arg 8 0 1 = p ∧ c.arg
    9 0 8 = e ∧ c.only [(8, 0, 1), (9, 0, 8), (10, 0, 7), (11, 0, 5), (12, 0, 16), (14, 0, 6), (15, 0, 5), (16, 0, 4)] = true ∧ x = ⟨c.arg 10 0 1 ==
    1, c.arg 10 1 1 == 1, c.arg 10 2 3, c.arg 10 5 1 == 1, c.arg 10 6 1 == 1, c.arg 11 0 5, c.arg 12 0 16, c.arg 14 0 6, c.arg 15 0 5, c.arg 16 0 4⟩
    ∧ s.xgemOk p e x = true ∧ (((s.port p).entry e).up = false ∨ (s.port p).items.any (fun i => i.entry == e) = false) ∧ c.user = 0 ∧ ((s.port
    p).enabled = false ∨ s.flag R.PON_STAT_SYNC p = false)) ∧
  (∃ (s : State) (ring : Fin 64) (cid : Fin 65536) (c : Cmd) (p : Fin 2) (e : Nat) (h : Nat) (n : Nat) (size : Nat), Ready s ring cid 0x52 c ∧ c.arg
    8 0 1 = p ∧ c.arg 9 0 8 = e ∧ c.arg 12 0 32 = h ∧ c.arg 16 0 17 = n ∧ c.only [(8, 0, 1), (9, 0, 8), (12, 0, 32), (16, 0, 17)] = true ∧ (∀ k,
    s.classOf (hIndex h) = some k → size = 2 ^ (s.pclass k).size) ∧ (s.classOf (hIndex h) = none → size = 0) ∧ (((s.port p).entry e).valid = false ∨
    ((s.port p).entry e).up = false ∨ 1 < ((s.port p).entry e).kind ∨ n = 0 ∨ size < n)) ∧
  (∃ (s : State) (ring : Fin 64) (cid : Fin 65536) (c : Cmd) (p : Fin 2) (e : Nat) (h : Nat) (n : Nat) (size : Nat), Ready s ring cid 0x52 c ∧ c.arg
    8 0 1 = p ∧ c.arg 9 0 8 = e ∧ c.arg 12 0 32 = h ∧ c.arg 16 0 17 = n ∧ c.only [(8, 0, 1), (9, 0, 8), (12, 0, 32), (16, 0, 17)] = true ∧ (∀ k,
    s.classOf (hIndex h) = some k → size = 2 ^ (s.pclass k).size) ∧ (s.classOf (hIndex h) = none → size = 0) ∧ (((s.port p).entry e).valid = false ∨
    ((s.port p).entry e).up = false ∨ 1 < ((s.port p).entry e).kind ∨ n = 0 ∨ size < n)) ∧
  (∃ (s : State) (ring : Fin 64) (cid : Fin 65536) (c : Cmd) (p : Fin 2) (e : Nat) (h : Nat) (n : Nat) (size : Nat), Ready s ring cid 0x52 c ∧ c.arg
    8 0 1 = p ∧ c.arg 9 0 8 = e ∧ c.arg 12 0 32 = h ∧ c.arg 16 0 17 = n ∧ c.only [(8, 0, 1), (9, 0, 8), (12, 0, 32), (16, 0, 17)] = true ∧ (∀ k,
    s.classOf (hIndex h) = some k → size = 2 ^ (s.pclass k).size) ∧ (s.classOf (hIndex h) = none → size = 0) ∧ (((s.port p).entry e).valid = true) ∧
    (((s.port p).entry e).up = true) ∧ (((s.port p).entry e).kind ≤ 1) ∧ 1 ≤ n ∧ n ≤ size ∧ c.user ≠ 0) ∧
  (∃ (s : State) (ring : Fin 64) (cid : Fin 65536) (c : Cmd) (p : Fin 2) (e : Nat) (h : Nat) (n : Nat) (size : Nat), Ready s ring cid 0x52 c ∧ c.arg
    8 0 1 = p ∧ c.arg 9 0 8 = e ∧ c.arg 12 0 32 = h ∧ c.arg 16 0 17 = n ∧ c.only [(8, 0, 1), (9, 0, 8), (12, 0, 32), (16, 0, 17)] = true ∧ (∀ k,
    s.classOf (hIndex h) = some k → size = 2 ^ (s.pclass k).size) ∧ (s.classOf (hIndex h) = none → size = 0) ∧ (((s.port p).entry e).valid = true) ∧
    (((s.port p).entry e).up = true) ∧ (((s.port p).entry e).kind ≤ 1) ∧ 1 ≤ n ∧ n ≤ size ∧ c.user = 0 ∧ s.rg R.PON_STAT_OSTATE p ≠ 5) ∧
  (∃ (s : State) (ring : Fin 64) (cid : Fin 65536) (c : Cmd) (p : Fin 2) (e : Nat) (h : Nat) (n : Nat) (size : Nat), Ready s ring cid 0x52 c ∧ c.arg
    8 0 1 = p ∧ c.arg 9 0 8 = e ∧ c.arg 12 0 32 = h ∧ c.arg 16 0 17 = n ∧ c.only [(8, 0, 1), (9, 0, 8), (12, 0, 32), (16, 0, 17)] = true ∧ (∀ k,
    s.classOf (hIndex h) = some k → size = 2 ^ (s.pclass k).size) ∧ (s.classOf (hIndex h) = none → size = 0) ∧ (((s.port p).entry e).valid = true) ∧
    (((s.port p).entry e).up = true) ∧ (((s.port p).entry e).kind ≤ 1) ∧ 1 ≤ n ∧ n ≤ size ∧ c.user = 0 ∧ s.rg R.PON_STAT_OSTATE p = 5 ∧ (((started s
    c).pgive 32 h (43 + p)).status ≠ Sc.ok)) ∧
  (∃ (s : State) (ring : Fin 64) (cid : Fin 65536) (c : Cmd) (p : Fin 2) (e : Nat) (h : Nat) (n : Nat) (size : Nat), Ready s ring cid 0x52 c ∧ c.arg
    8 0 1 = p ∧ c.arg 9 0 8 = e ∧ c.arg 12 0 32 = h ∧ c.arg 16 0 17 = n ∧ c.only [(8, 0, 1), (9, 0, 8), (12, 0, 32), (16, 0, 17)] = true ∧ (∀ k,
    s.classOf (hIndex h) = some k → size = 2 ^ (s.pclass k).size) ∧ (s.classOf (hIndex h) = none → size = 0) ∧ (((s.port p).entry e).valid = true) ∧
    (((s.port p).entry e).up = true) ∧ (((s.port p).entry e).kind ≤ 1) ∧ 1 ≤ n ∧ n ≤ size ∧ c.user = 0 ∧ s.rg R.PON_STAT_OSTATE p = 5 ∧ (((started s
    c).pgive 32 h (43 + p)).status = Sc.ok)) ∧
  (∃ (s : State) (ring : Fin 64) (cid : Fin 65536) (c : Cmd) (kind : Nat) (i : Nat), Ready s ring cid 0x55 c ∧ c.arg 8 0 3 = kind ∧ c.arg 9 0 8 = i ∧
    c.arg 10 0 1 = 1 ∧ c.only [(8, 0, 3), (9, 0, 8), (10, 0, 1), (16, 0, 64)] = true ∧ (4 < kind ∨ (kind = 3 ∧ 95 < i))) ∧
  (∃ (s : State) (ring : Fin 64) (cid : Fin 65536) (c : Cmd) (kind : Nat) (i : Nat), Ready s ring cid 0x55 c ∧ c.arg 8 0 3 = kind ∧ c.arg 9 0 8 = i ∧
    c.arg 10 0 1 = 1 ∧ c.only [(8, 0, 3), (9, 0, 8), (10, 0, 1), (16, 0, 64)] = true ∧ (4 < kind ∨ (kind = 3 ∧ 95 < i))) :=
  ⟨⟨fl [(cm 0x50 kc)], 0, 7, (cm 0x50 kc), 0, rb 128 [(0, 0, 3)], (ponStatic (rb 128 [(0, 0, 3)]) == ponStatic (fitBytes 128 ((fl [(cm 0x50
     kc)]).port (0)).rec_)),
     ⟨by decide +kernel, by decide +kernel, by decide +kernel, by decide +kernel, by decide +kernel, by decide +kernel, by decide +kernel, rfl, by decide +kernel⟩⟩,
   ⟨fl [(cm 0x50 kc)] ((pt { rec_ := [5] })), 0, 7, (cm 0x50 kc), 0, rb 128 [(0, 0, 2)],
     (ponStatic (rb 128 [(0, 0, 2)]) == ponStatic (fitBytes 128 ((fl [(cm 0x50 kc)] ((pt { rec_ := [5] }))).port (0)).rec_)),
     ⟨by decide +kernel, by decide +kernel, by decide +kernel, by decide +kernel, by decide +kernel, by decide +kernel, by decide +kernel, rfl, by decide +kernel, by decide +kernel, by decide +kernel⟩⟩,
   ⟨fl [(cm 0x50 kc 1)], 0, 7, (cm 0x50 kc 1), 0, rb 128 [(0, 0, 1)], (ponStatic (rb 128 [(0, 0, 1)]) == ponStatic (fitBytes 128 ((fl [(cm 0x50 kc
     1)]).port (0)).rec_)),
     ⟨by decide +kernel, by decide +kernel, by decide +kernel, by decide +kernel, by decide +kernel, by decide +kernel, by decide +kernel, rfl, by decide +kernel, by decide +kernel, by decide +kernel⟩⟩,
   ⟨fl [(cm 0x50 kc)] ((pt { rec_ := [5] })), 0, 7, (cm 0x50 kc), 0, rb 128 [(0, 0, 5)],
     (ponStatic (rb 128 [(0, 0, 5)]) == ponStatic (fitBytes 128 ((fl [(cm 0x50 kc)] ((pt { rec_ := [5] }))).port (0)).rec_)),
     ⟨by decide +kernel, by decide +kernel, by decide +kernel, by decide +kernel, by decide +kernel, by decide +kernel, by decide +kernel, rfl, by decide +kernel, by decide +kernel, by decide +kernel, by decide +kernel, by decide +kernel⟩⟩,
   ⟨fl [(cm 0x50 kc)] ((pt { rec_ := [5] })), 0, 7, (cm 0x50 kc), 0, rb 128 [(0, 0, 1)],
     (ponStatic (rb 128 [(0, 0, 1)]) == ponStatic (fitBytes 128 ((fl [(cm 0x50 kc)] ((pt { rec_ := [5] }))).port (0)).rec_)),
     ⟨by decide +kernel, by decide +kernel, by decide +kernel, by decide +kernel, by decide +kernel, by decide +kernel, by decide +kernel, rfl, by decide +kernel, by decide +kernel, by decide +kernel, by decide +kernel, by decide +kernel⟩⟩,
   ⟨fl [(cm 0x50 kc)], 0, 7, (cm 0x50 kc), 0, rb 128 [], (ponStatic (rb 128 []) == ponStatic (fitBytes 128 ((fl [(cm 0x50 kc)]).port (0)).rec_)),
     ⟨by decide +kernel, by decide +kernel, by decide +kernel, by decide +kernel, by decide +kernel, by decide +kernel, by decide +kernel, rfl, by decide +kernel, by decide +kernel, by decide +kernel, by decide +kernel, by decide +kernel⟩⟩,
   ⟨fl [(cm 0x50 kc)], 0, 7, (cm 0x50 kc), 0, rb 128 [(0, 0, 5)], (ponStatic (rb 128 [(0, 0, 5)]) == ponStatic (fitBytes 128 ((fl [(cm 0x50
     kc)]).port (0)).rec_)),
     ⟨by decide +kernel, by decide +kernel, by decide +kernel, by decide +kernel, by decide +kernel, by decide +kernel, by decide +kernel, rfl, by decide +kernel, by decide +kernel, by decide +kernel, by decide +kernel⟩⟩,
   ⟨fl [(cm 0x51 [(10, 2, 5)])], 0, 7, (cm 0x51 [(10, 2, 5)]), 0, 0, ⟨false, false, 5, false, false, 0, 0, 0, 0, 0⟩, by decide +kernel⟩,
   ⟨fl [(cm 0x51 [(9, 0, 9)])] ((pt { xgem := [(9, { up := true })], items := [{ id := 0, entry := 9, kind := 1, bufs := [], size := 1, len := 1, ready := 0, todo := [] }] })),
     0, 7, (cm 0x51 [(9, 0, 9)]), 0, 9, ⟨false, false, 0, false, false, 0, 0, 0, 0, 0⟩, by decide +kernel⟩,
   ⟨fl [(cm 0x51 [(9, 0, 9)] 1)], 0, 7, (cm 0x51 [(9, 0, 9)] 1), 0, 9, ⟨false, false, 0, false, false, 0, 0, 0, 0, 0⟩, by decide +kernel⟩,
   ⟨fl [(cm 0x51 [(9, 0, 9)])] ((px {})), 0, 7, (cm 0x51 [(9, 0, 9)]), 0, 9, ⟨false, false, 0, false, false, 0, 0, 0, 0, 0⟩, by decide +kernel⟩,
   ⟨fl [(cm 0x51 [(9, 0, 9), (10, 0, 1), (10, 1, 1), (12, 0, 0xFFFF)])], 0, 7, (cm 0x51 [(9, 0, 9), (10, 0, 1), (10, 1, 1), (12, 0, 0xFFFF)]), 0, 9,
     ⟨true, true, 0, false, false, 0, 0xFFFF, 0, 0, 0⟩, by decide +kernel⟩,
   ⟨fl [(cm 0x52 [(16, 0, 1)])], 0, 7, (cm 0x52 [(16, 0, 1)]), 0, 0, 0, 1, 0,
     ⟨by decide +kernel, by decide +kernel, by decide +kernel, by decide +kernel, by decide +kernel, by decide +kernel, none_of (by decide +kernel), by decide +kernel, by decide +kernel⟩⟩,
   ⟨fl [(cm 0x52 [(9, 0, 9), (12, 0, handleOf 0 32 1), (16, 0, 4097)])] ((pe9 5)), 0, 7, (cm 0x52 [(9, 0, 9), (12, 0, handleOf 0 32 1), (16, 0,
     4097)]), 0, 9, handleOf 0 32 1, 4097, 4096,
     ⟨by decide +kernel, by decide +kernel, by decide +kernel, by decide +kernel, by decide +kernel, by decide +kernel, some_of 0 (by decide +kernel) (by decide +kernel), by decide +kernel, by decide +kernel⟩⟩,
   ⟨fl [(cm 0x52 [(9, 0, 9), (12, 0, handleOf 0 32 1), (16, 0, 4096)] 1)] ((pe9 5)), 0, 7, (cm 0x52 [(9, 0, 9), (12, 0, handleOf 0 32 1), (16, 0,
     4096)] 1), 0, 9, handleOf 0 32 1, 4096, 4096,
     ⟨by decide +kernel, by decide +kernel, by decide +kernel, by decide +kernel, by decide +kernel, by decide +kernel, some_of 0 (by decide +kernel) (by decide +kernel), by decide +kernel, by decide +kernel, by decide +kernel, by decide +kernel, by decide +kernel, by decide +kernel, by decide +kernel⟩⟩,
   ⟨fl [(cm 0x52 [(9, 0, 9), (12, 0, handleOf 0 32 1), (16, 0, 4096)])] ((pe9 1)), 0, 7, (cm 0x52 [(9, 0, 9), (12, 0, handleOf 0 32 1), (16, 0,
     4096)]), 0, 9, handleOf 0 32 1, 4096, 4096,
     ⟨by decide +kernel, by decide +kernel, by decide +kernel, by decide +kernel, by decide +kernel, by decide +kernel, some_of 0 (by decide +kernel) (by decide +kernel), by decide +kernel, by decide +kernel, by decide +kernel, by decide +kernel, by decide +kernel, by decide +kernel, by decide +kernel, by decide +kernel⟩⟩,
   ⟨fl [(cm 0x52 [(9, 0, 9), (12, 0, handleOf 0 31 1), (16, 0, 4096)])] ((pe9 5)), 0, 7, (cm 0x52 [(9, 0, 9), (12, 0, handleOf 0 31 1), (16, 0,
     4096)]), 0, 9, handleOf 0 31 1, 4096, 4096,
     ⟨by decide +kernel, by decide +kernel, by decide +kernel, by decide +kernel, by decide +kernel, by decide +kernel, some_of 0 (by decide +kernel) (by decide +kernel), by decide +kernel, by decide +kernel, by decide +kernel, by decide +kernel, by decide +kernel, by decide +kernel, by decide +kernel, by decide +kernel, by decide +kernel⟩⟩,
   ⟨fl [(cm 0x52 [(9, 0, 9), (12, 0, handleOf 0 32 1), (16, 0, 4096)])] ((pe9 5)), 0, 7, (cm 0x52 [(9, 0, 9), (12, 0, handleOf 0 32 1), (16, 0,
     4096)]), 0, 9, handleOf 0 32 1, 4096, 4096,
     ⟨by decide +kernel, by decide +kernel, by decide +kernel, by decide +kernel, by decide +kernel, by decide +kernel, some_of 0 (by decide +kernel) (by decide +kernel), by decide +kernel, by decide +kernel, by decide +kernel, by decide +kernel, by decide +kernel, by decide +kernel, by decide +kernel, by decide +kernel, by decide +kernel⟩⟩,
   ⟨fl [(cm 0x55 [(8, 0, 5), (10, 0, 1), (16, 0, 4096)])], 0, 7, (cm 0x55 [(8, 0, 5), (10, 0, 1), (16, 0, 4096)]), 5, 0, by decide +kernel⟩,
   ⟨fl [(cm 0x55 [(8, 0, 3), (9, 0, 96), (10, 0, 1), (16, 0, 4096)])], 0, 7, (cm 0x55 [(8, 0, 3), (9, 0, 96), (10, 0, 1), (16, 0, 4096)]), 3, 96,
     by decide +kernel⟩⟩

/-- Every hypothesis of PonCommands is met. -/
theorem hyps_met_PonCommands_2 :
  (∃ (s : State) (ring : Fin 64) (cid : Fin 65536) (c : Cmd) (kind : Nat) (i : Nat), Ready s ring cid 0x55 c ∧ c.arg 8 0 3 = kind ∧ c.arg 9 0 8 = i ∧
    c.arg 10 0 1 = 1 ∧ c.only [(8, 0, 3), (9, 0, 8), (10, 0, 1), (16, 0, 64)] = true ∧ kind ≤ 4 ∧ (kind = 3 → i ≤ 95) ∧ c.user ≠ 0) ∧
  (∃ (s : State) (ring : Fin 64) (cid : Fin 65536) (c : Cmd) (kind : Nat) (i : Nat), Ready s ring cid 0x55 c ∧ c.arg 8 0 3 = kind ∧ c.arg 9 0 8 = i ∧
    c.arg 10 0 1 = 1 ∧ c.only [(8, 0, 3), (9, 0, 8), (10, 0, 1), (16, 0, 64)] = true ∧ c.user = 0 ∧ ((kind = 0 ∧ s.pm.image = none) ∨ (kind = 3 ∧ i ≤
    95 ∧ s.pm.hist.length ≤ i) ∨ (kind = 4 ∧ s.pm.prevDay = none))) ∧
  (∃ (s : State) (ring : Fin 64) (cid : Fin 65536) (c : Cmd) (kind : Nat) (i : Nat), Ready s ring cid 0x55 c ∧ c.arg 8 0 3 = kind ∧ c.arg 9 0 8 = i ∧
    c.arg 10 0 1 = 1 ∧ c.only [(8, 0, 3), (9, 0, 8), (10, 0, 1), (16, 0, 64)] = true ∧ c.user = 0 ∧ ((kind = 0 ∧ s.pm.image = none) ∨ (kind = 3 ∧ i ≤
    95 ∧ s.pm.hist.length ≤ i) ∨ (kind = 4 ∧ s.pm.prevDay = none))) ∧
  (∃ (s : State) (ring : Fin 64) (cid : Fin 65536) (c : Cmd) (kind : Nat) (i : Nat), Ready s ring cid 0x55 c ∧ c.arg 8 0 3 = kind ∧ c.arg 9 0 8 = i ∧
    c.arg 10 0 1 = 1 ∧ c.only [(8, 0, 3), (9, 0, 8), (10, 0, 1), (16, 0, 64)] = true ∧ c.user = 0 ∧ ((kind = 0 ∧ s.pm.image = none) ∨ (kind = 3 ∧ i ≤
    95 ∧ s.pm.hist.length ≤ i) ∨ (kind = 4 ∧ s.pm.prevDay = none))) ∧
  (∃ (s : State) (ring : Fin 64) (cid : Fin 65536) (c : Cmd) (kind : Nat) (i : Nat) (x : ClosedBin), Ready s ring cid 0x55 c ∧ c.arg 8 0 3 = kind ∧
    c.arg 9 0 8 = i ∧ c.arg 10 0 1 = 1 ∧ c.only [(8, 0, 3), (9, 0, 8), (10, 0, 1), (16, 0, 64)] = true ∧ c.user = 0 ∧ ((kind = 0 ∧ s.pm.image = some
    x) ∨ (kind = 3 ∧ i ≤ 95 ∧ s.pm.hist[i]? = some x) ∨ (kind = 4 ∧ s.pm.prevDay = some x))) ∧
  (∃ (s : State) (ring : Fin 64) (cid : Fin 65536) (c : Cmd) (kind : Nat) (i : Nat) (x : ClosedBin), Ready s ring cid 0x55 c ∧ c.arg 8 0 3 = kind ∧
    c.arg 9 0 8 = i ∧ c.arg 10 0 1 = 1 ∧ c.only [(8, 0, 3), (9, 0, 8), (10, 0, 1), (16, 0, 64)] = true ∧ c.user = 0 ∧ ((kind = 0 ∧ s.pm.image = some
    x) ∨ (kind = 3 ∧ i ≤ 95 ∧ s.pm.hist[i]? = some x) ∨ (kind = 4 ∧ s.pm.prevDay = some x))) ∧
  (∃ (s : State) (ring : Fin 64) (cid : Fin 65536) (c : Cmd) (kind : Nat) (i : Nat) (x : ClosedBin), Ready s ring cid 0x55 c ∧ c.arg 8 0 3 = kind ∧
    c.arg 9 0 8 = i ∧ c.arg 10 0 1 = 1 ∧ c.only [(8, 0, 3), (9, 0, 8), (10, 0, 1), (16, 0, 64)] = true ∧ c.user = 0 ∧ ((kind = 0 ∧ s.pm.image = some
    x) ∨ (kind = 3 ∧ i ≤ 95 ∧ s.pm.hist[i]? = some x) ∨ (kind = 4 ∧ s.pm.prevDay = some x))) ∧
  (∃ (s : State) (ring : Fin 64) (cid : Fin 65536) (c : Cmd) (kind : Nat) (i : Nat), Ready s ring cid 0x55 c ∧ c.arg 8 0 3 = kind ∧ c.arg 9 0 8 = i ∧
    c.arg 10 0 1 = 1 ∧ c.only [(8, 0, 3), (9, 0, 8), (10, 0, 1), (16, 0, 64)] = true ∧ c.user = 0 ∧ (kind = 1 ∨ kind = 2)) ∧
  (∃ (s : State) (ring : Fin 64) (cid : Fin 65536) (c : Cmd) (pt : Nat), Ready s ring cid 0x56 c ∧ c.arg 8 0 8 = pt ∧ c.only [(8, 0, 8), (16, 0, 64),
    (24, 0, 64)] = true ∧ ((89 ≤ pt ∧ pt ≤ 95) ∨ 196 ≤ pt)) ∧
  (∃ (s : State) (ring : Fin 64) (cid : Fin 65536) (c : Cmd) (pt : Nat), Ready s ring cid 0x56 c ∧ c.arg 8 0 8 = pt ∧ c.only [(8, 0, 8), (16, 0, 64),
    (24, 0, 64)] = true ∧ ((89 ≤ pt ∧ pt ≤ 95) ∨ 196 ≤ pt)) ∧
  (∃ (s : State) (ring : Fin 64) (cid : Fin 65536) (c : Cmd) (pt : Nat), Ready s ring cid 0x56 c ∧ c.arg 8 0 8 = pt ∧ c.only [(8, 0, 8), (16, 0, 64),
    (24, 0, 64)] = true ∧ ((89 ≤ pt ∧ pt ≤ 95) ∨ 196 ≤ pt)) ∧
  (∃ (s : State) (ring : Fin 64) (cid : Fin 65536) (c : Cmd) (pt : Nat), Ready s ring cid 0x56 c ∧ c.arg 8 0 8 = pt ∧ c.only [(8, 0, 8), (16, 0, 64),
    (24, 0, 64)] = true ∧ (pt < 89 ∨ (95 < pt ∧ pt < 196)) ∧ c.user ≠ 0) ∧
  (∃ (s : State) (ring : Fin 64) (cid : Fin 65536) (c : Cmd) (pt : Nat), Ready s ring cid 0x56 c ∧ c.arg 8 0 8 = pt ∧ c.only [(8, 0, 8), (16, 0, 64),
    (24, 0, 64)] = true ∧ (pt < 89 ∨ (95 < pt ∧ pt < 196)) ∧ c.user = 0) ∧
  (∃ (s : State) (ring : Fin 64) (cid : Fin 65536) (c : Cmd) (pt : Nat), Ready s ring cid 0x56 c ∧ c.arg 8 0 8 = pt ∧ c.only [(8, 0, 8), (16, 0, 64),
    (24, 0, 64)] = true ∧ (pt < 89 ∨ (95 < pt ∧ pt < 196)) ∧ c.user = 0) ∧
  (∃ (s : State) (ring : Fin 64) (cid : Fin 65536) (c : Cmd) (pt : Nat), Ready s ring cid 0x56 c ∧ c.arg 8 0 8 = pt ∧ c.only [(8, 0, 8), (16, 0, 64),
    (24, 0, 64)] = true ∧ (pt < 89 ∨ (95 < pt ∧ pt < 196)) ∧ c.user = 0) ∧
  (∃ (s : State) (ring : Fin 64) (cid : Fin 65536) (c : Cmd) (b : List Byte) (m : List Nat) (en : Bool) (static : Bool), Ready s ring cid 0x57 c ∧
    c.only [(8, 0, 1), (9, 0, 8), (10, 0, 8), (11, 0, 8), (12, 0, 1), (16, 0, 64)] = true ∧ c.arg 12 0 1 = 1 ∧ s.host.linkUp = true ∧ ((vget
    s.host.fns c.user).bme = true) ∧ b.length = 2 * c.arg 11 0 8 ∧ m = (List.range (c.arg 11 0 8)).map (fun i => rec16 b (2 * i)) ∧ en = (c.arg 8 0 1
    == 1) ∧ (static = decide (m ≠ s.bond.map ∨ c.arg 10 0 8 ≠ s.bond.gapWait)) ∧ (c.arg 9 0 8 = 0 ∨ 15 < c.arg 9 0 8 ∨ c.arg 10 0 8 = 0 ∨ 20 < c.arg
    10 0 8 ∨ 64 < c.arg 11 0 8)) ∧
  (∃ (s : State) (ring : Fin 64) (cid : Fin 65536) (c : Cmd) (b : List Byte) (m : List Nat) (en : Bool) (static : Bool), Ready s ring cid 0x57 c ∧
    c.only [(8, 0, 1), (9, 0, 8), (10, 0, 8), (11, 0, 8), (12, 0, 1), (16, 0, 64)] = true ∧ c.arg 12 0 1 = 1 ∧ s.host.linkUp = true ∧ ((vget
    s.host.fns c.user).bme = true) ∧ b.length = 2 * c.arg 11 0 8 ∧ m = (List.range (c.arg 11 0 8)).map (fun i => rec16 b (2 * i)) ∧ en = (c.arg 8 0 1
    == 1) ∧ (static = decide (m ≠ s.bond.map ∨ c.arg 10 0 8 ≠ s.bond.gapWait)) ∧ (c.arg 9 0 8 = 0 ∨ 15 < c.arg 9 0 8 ∨ c.arg 10 0 8 = 0 ∨ 20 < c.arg
    10 0 8 ∨ 64 < c.arg 11 0 8)) ∧
  (∃ (s : State) (ring : Fin 64) (cid : Fin 65536) (c : Cmd) (b : List Byte) (m : List Nat) (en : Bool) (static : Bool), Ready s ring cid 0x57 c ∧
    c.only [(8, 0, 1), (9, 0, 8), (10, 0, 8), (11, 0, 8), (12, 0, 1), (16, 0, 64)] = true ∧ c.arg 12 0 1 = 1 ∧ s.host.linkUp = true ∧ ((vget
    s.host.fns c.user).bme = true) ∧ b.length = 2 * c.arg 11 0 8 ∧ m = (List.range (c.arg 11 0 8)).map (fun i => rec16 b (2 * i)) ∧ en = (c.arg 8 0 1
    == 1) ∧ (static = decide (m ≠ s.bond.map ∨ c.arg 10 0 8 ≠ s.bond.gapWait)) ∧ 1 ≤ c.arg 9 0 8 ∧ c.arg 9 0 8 ≤ 15 ∧ 1 ≤ c.arg 10 0 8 ∧ c.arg 10 0 8
    ≤ 20 ∧ c.arg 11 0 8 ≤ 64 ∧ en = true ∧ ((s.port 0).enabled = false ∨ (s.port 1).enabled = false ∨ (s.port 0).mode ≠ (s.port 1).mode)) ∧
  (∃ (s : State) (ring : Fin 64) (cid : Fin 65536) (c : Cmd) (b : List Byte) (m : List Nat) (en : Bool) (static : Bool), Ready s ring cid 0x57 c ∧
    c.only [(8, 0, 1), (9, 0, 8), (10, 0, 8), (11, 0, 8), (12, 0, 1), (16, 0, 64)] = true ∧ c.arg 12 0 1 = 1 ∧ s.host.linkUp = true ∧ ((vget
    s.host.fns c.user).bme = true) ∧ b.length = 2 * c.arg 11 0 8 ∧ m = (List.range (c.arg 11 0 8)).map (fun i => rec16 b (2 * i)) ∧ en = (c.arg 8 0 1
    == 1) ∧ (static = decide (m ≠ s.bond.map ∨ c.arg 10 0 8 ≠ s.bond.gapWait)) ∧ 1 ≤ c.arg 9 0 8 ∧ c.arg 9 0 8 ≤ 15 ∧ 1 ≤ c.arg 10 0 8 ∧ c.arg 10 0 8
    ≤ 20 ∧ c.arg 11 0 8 ≤ 64 ∧ (en = true → (s.port 0).enabled = true ∧ (s.port 1).enabled = true ∧ (s.port 0).mode = (s.port 1).mode) ∧ s.rg
    R.BND_STAT_STATE ≠ 0 ∧ static = true) ∧
  (∃ (s : State) (ring : Fin 64) (cid : Fin 65536) (c : Cmd) (b : List Byte) (m : List Nat) (en : Bool) (static : Bool), Ready s ring cid 0x57 c ∧
    c.only [(8, 0, 1), (9, 0, 8), (10, 0, 8), (11, 0, 8), (12, 0, 1), (16, 0, 64)] = true ∧ c.arg 12 0 1 = 1 ∧ s.host.linkUp = true ∧ ((vget
    s.host.fns c.user).bme = true) ∧ b.length = 2 * c.arg 11 0 8 ∧ m = (List.range (c.arg 11 0 8)).map (fun i => rec16 b (2 * i)) ∧ en = (c.arg 8 0 1
    == 1) ∧ (static = decide (m ≠ s.bond.map ∨ c.arg 10 0 8 ≠ s.bond.gapWait)) ∧ 1 ≤ c.arg 9 0 8 ∧ c.arg 9 0 8 ≤ 15 ∧ 1 ≤ c.arg 10 0 8 ∧ c.arg 10 0 8
    ≤ 20 ∧ c.arg 11 0 8 ≤ 64 ∧ (en = true → (s.port 0).enabled = true ∧ (s.port 1).enabled = true ∧ (s.port 0).mode = (s.port 1).mode) ∧ (s.rg
    R.BND_STAT_STATE = 0 ∨ static = false) ∧ c.user ≠ 0) :=
  ⟨⟨fl [(cm 0x55 [(8, 0, 3), (9, 0, 95), (10, 0, 1), (16, 0, 4096)] 1)], 0, 7, (cm 0x55 [(8, 0, 3), (9, 0, 95), (10, 0, 1), (16, 0, 4096)] 1), 3, 95,
     by decide +kernel⟩,
   ⟨fl [(cm 0x55 [(8, 0, 3), (9, 0, 95), (10, 0, 1), (16, 0, 4096)])], 0, 7, (cm 0x55 [(8, 0, 3), (9, 0, 95), (10, 0, 1), (16, 0, 4096)]), 3, 95,
     by decide +kernel⟩,
   ⟨fl [(cm 0x55 [(10, 0, 1), (16, 0, 4096)])], 0, 7, (cm 0x55 [(10, 0, 1), (16, 0, 4096)]), 0, 0, by decide +kernel⟩,
   ⟨fl [(cm 0x55 [(8, 0, 4), (10, 0, 1), (16, 0, 4096)])], 0, 7, (cm 0x55 [(8, 0, 4), (10, 0, 1), (16, 0, 4096)]), 4, 0, by decide +kernel⟩,
   ⟨fl [(cm 0x55 [(10, 0, 1), (16, 0, 4096)])] (({ pm := { image := some cb } })), 0, 7, (cm 0x55 [(10, 0, 1), (16, 0, 4096)]), 0, 0, cb,
     by decide +kernel⟩,
   ⟨fl [(cm 0x55 [(8, 0, 3), (9, 0, 95), (10, 0, 1), (16, 0, 4096)])] (({ pm := { hist := List.replicate 96 cb } })), 0, 7, (cm 0x55 [(8, 0, 3), (9,
     0, 95), (10, 0, 1), (16, 0, 4096)]), 3, 95, cb, by decide +kernel⟩,
   ⟨fl [(cm 0x55 [(8, 0, 4), (10, 0, 1), (16, 0, 4096)])] (({ pm := { prevDay := some cb } })), 0, 7, (cm 0x55 [(8, 0, 4), (10, 0, 1), (16, 0,
     4096)]), 4, 0, cb, by decide +kernel⟩,
   ⟨fl [(cm 0x55 [(8, 0, 2), (10, 0, 1), (16, 0, 4096)])], 0, 7, (cm 0x55 [(8, 0, 2), (10, 0, 1), (16, 0, 4096)]), 2, 0, by decide +kernel⟩,
   ⟨fl [(cm 0x56 [(8, 0, 89)])], 0, 7, (cm 0x56 [(8, 0, 89)]), 89, by decide +kernel⟩,
   ⟨fl [(cm 0x56 [(8, 0, 95)])], 0, 7, (cm 0x56 [(8, 0, 95)]), 95, by decide +kernel⟩,
   ⟨fl [(cm 0x56 [(8, 0, 196)])], 0, 7, (cm 0x56 [(8, 0, 196)]), 196, by decide +kernel⟩,
   ⟨fl [(cm 0x56 [(8, 0, 88)] 1)], 0, 7, (cm 0x56 [(8, 0, 88)] 1), 88, by decide +kernel⟩,
   ⟨fl [(cm 0x56 [(8, 0, 88)])], 0, 7, (cm 0x56 [(8, 0, 88)]), 88, by decide +kernel⟩,
   ⟨fl [(cm 0x56 [(8, 0, 96)])], 0, 7, (cm 0x56 [(8, 0, 96)]), 96, by decide +kernel⟩,
   ⟨fl [(cm 0x56 [(8, 0, 195)])], 0, 7, (cm 0x56 [(8, 0, 195)]), 195, by decide +kernel⟩,
   ⟨fl [(cm 0x57 [(12, 0, 1), (9, 0, 16), (10, 0, 1), (16, 0, 4096)])], 0, 7, (cm 0x57 [(12, 0, 1), (9, 0, 16), (10, 0, 1), (16, 0, 4096)]), [],
     (List.range (((cm 0x57 [(12, 0, 1), (9, 0, 16), (10, 0, 1), (16, 0, 4096)])).arg 11 0 8)).map (fun i => rec16 ([]) (2 * i)), false, true,
     ⟨by decide +kernel, by decide +kernel, by decide +kernel, by decide +kernel, by decide +kernel, by decide +kernel, rfl, by decide +kernel, by decide +kernel, by decide +kernel⟩⟩,
   ⟨fl [(cm 0x57 [(12, 0, 1), (9, 0, 15), (10, 0, 21), (16, 0, 4096)])], 0, 7, (cm 0x57 [(12, 0, 1), (9, 0, 15), (10, 0, 21), (16, 0, 4096)]), [],
     (List.range (((cm 0x57 [(12, 0, 1), (9, 0, 15), (10, 0, 21), (16, 0, 4096)])).arg 11 0 8)).map (fun i => rec16 ([]) (2 * i)), false, true,
     ⟨by decide +kernel, by decide +kernel, by decide +kernel, by decide +kernel, by decide +kernel, by decide +kernel, rfl, by decide +kernel, by decide +kernel, by decide +kernel⟩⟩,
   ⟨fl [(cm 0x57 [(8, 0, 1), (12, 0, 1), (9, 0, 15), (10, 0, 20), (11, 0, 1), (16, 0, 4096)])], 0, 7, (cm 0x57 [(8, 0, 1), (12, 0, 1), (9, 0, 15),
     (10, 0, 20), (11, 0, 1), (16, 0, 4096)]), [7, 0], (List.range (((cm 0x57 [(8, 0, 1), (12, 0, 1), (9, 0, 15), (10, 0, 20), (11, 0, 1), (16, 0,
     4096)])).arg 11 0 8)).map (fun i => rec16 ([7, 0]) (2 * i)), true, true,
     ⟨by decide +kernel, by decide +kernel, by decide +kernel, by decide +kernel, by decide +kernel, by decide +kernel, rfl, by decide +kernel, by decide +kernel, by decide +kernel, by decide +kernel, by decide +kernel, by decide +kernel, by decide +kernel, by decide +kernel, by decide +kernel⟩⟩,
   ⟨fl [(cm 0x57 [(12, 0, 1), (9, 0, 15), (10, 0, 20), (11, 0, 1), (16, 0, 4096)])] ((rgs [(R.BND_STAT_STATE, 0, 1)])), 0, 7, (cm 0x57 [(12, 0, 1),
     (9, 0, 15), (10, 0, 20), (11, 0, 1), (16, 0, 4096)]), [7, 0], (List.range (((cm 0x57 [(12, 0, 1), (9, 0, 15), (10, 0, 20), (11, 0, 1), (16, 0,
     4096)])).arg 11 0 8)).map (fun i => rec16 ([7, 0]) (2 * i)), false, true,
     ⟨by decide +kernel, by decide +kernel, by decide +kernel, by decide +kernel, by decide +kernel, by decide +kernel, rfl, by decide +kernel, by decide +kernel, by decide +kernel, by decide +kernel, by decide +kernel, by decide +kernel, by decide +kernel, by decide +kernel, by decide +kernel, by decide +kernel⟩⟩,
   ⟨fl [(cm 0x57 [(12, 0, 1), (9, 0, 15), (10, 0, 20), (11, 0, 1), (16, 0, 4096)] 1)], 0, 7, (cm 0x57 [(12, 0, 1), (9, 0, 15), (10, 0, 20), (11, 0,
     1), (16, 0, 4096)] 1), [7, 0], (List.range (((cm 0x57 [(12, 0, 1), (9, 0, 15), (10, 0, 20), (11, 0, 1), (16, 0, 4096)] 1)).arg 11 0 8)).map (fun
     i => rec16 ([7, 0]) (2 * i)), false, true,
     ⟨by decide +kernel, by decide +kernel, by decide +kernel, by decide +kernel, by decide +kernel, by decide +kernel, rfl, by decide +kernel, by decide +kernel, by decide +kernel, by decide +kernel, by decide +kernel, by decide +kernel, by decide +kernel, by decide +kernel, by decide +kernel, by decide +kernel⟩⟩⟩

/-- Every hypothesis of PonCommands is met. -/
theorem hyps_met_PonCommands_3 :
  (∃ (s : State) (ring : Fin 64) (cid : Fin 65536) (c : Cmd) (b : List Byte) (m : List Nat) (en : Bool) (static : Bool), Ready s ring cid 0x57 c ∧
    c.only [(8, 0, 1), (9, 0, 8), (10, 0, 8), (11, 0, 8), (12, 0, 1), (16, 0, 64)] = true ∧ c.arg 12 0 1 = 1 ∧ s.host.linkUp = true ∧ ((vget
    s.host.fns c.user).bme = true) ∧ b.length = 2 * c.arg 11 0 8 ∧ m = (List.range (c.arg 11 0 8)).map (fun i => rec16 b (2 * i)) ∧ en = (c.arg 8 0 1
    == 1) ∧ (static = decide (m ≠ s.bond.map ∨ c.arg 10 0 8 ≠ s.bond.gapWait)) ∧ 1 ≤ c.arg 9 0 8 ∧ c.arg 9 0 8 ≤ 15 ∧ 1 ≤ c.arg 10 0 8 ∧ c.arg 10 0 8
    ≤ 20 ∧ c.arg 11 0 8 ≤ 64 ∧ (en = true → (s.port 0).enabled = true ∧ (s.port 1).enabled = true ∧ (s.port 0).mode = (s.port 1).mode) ∧ (s.rg
    R.BND_STAT_STATE = 0 ∨ static = false) ∧ c.user = 0) ∧
  (∃ (s : State) (ring : Fin 64) (cid : Fin 65536) (c : Cmd) (b : List Byte) (m : List Nat) (en : Bool) (static : Bool), Ready s ring cid 0x57 c ∧
    c.only [(8, 0, 1), (9, 0, 8), (10, 0, 8), (11, 0, 8), (12, 0, 1), (16, 0, 64)] = true ∧ c.arg 12 0 1 = 1 ∧ s.host.linkUp = true ∧ ((vget
    s.host.fns c.user).bme = true) ∧ b.length = 2 * c.arg 11 0 8 ∧ m = (List.range (c.arg 11 0 8)).map (fun i => rec16 b (2 * i)) ∧ en = (c.arg 8 0 1
    == 1) ∧ (static = decide (m ≠ s.bond.map ∨ c.arg 10 0 8 ≠ s.bond.gapWait)) ∧ 1 ≤ c.arg 9 0 8 ∧ c.arg 9 0 8 ≤ 15 ∧ 1 ≤ c.arg 10 0 8 ∧ c.arg 10 0 8
    ≤ 20 ∧ c.arg 11 0 8 ≤ 64 ∧ (en = true → (s.port 0).enabled = true ∧ (s.port 1).enabled = true ∧ (s.port 0).mode = (s.port 1).mode) ∧ (s.rg
    R.BND_STAT_STATE = 0 ∨ static = false) ∧ c.user = 0) ∧
  (∃ (s : State) (ring : Fin 64) (cid : Fin 65536) (c : Cmd) (k : Fin 16) (x : Frt), Ready s ring cid 0x58 c ∧ c.arg 8 0 4 = k ∧ c.only [(8, 0, 7),
    (9, 0, 2), (10, 0, 8), (11, 0, 8), (12, 0, 16), (16, 0, 32), (20, 0, 32), (24, 0, 46), (32, 0, 46)] = true ∧
    { x with up := false, slip := false, port := 0, entry := 0, thresh := 0, n := 0, cap := 0, centre := 0, buf := 0, ctrl := 0 } = { s.frt k with up := false, slip := false, port := 0, entry := 0, thresh := 0, n := 0, cap := 0, centre := 0, buf := 0, ctrl := 0 }
    ∧ x.up = (c.arg 8 5 1 == 1) ∧ x.slip = (c.arg 8 6 1 == 1) ∧ x.port = c.arg 9 0 2 ∧ x.entry = c.arg 10 0 8 ∧ x.thresh = c.arg 11 0 8 ∧ x.n = c.arg
    12 0 16 ∧ x.cap = c.arg 16 0 32 ∧ x.centre = c.arg 20 0 32 ∧ x.buf = c.arg 24 0 46 ∧ x.ctrl = c.arg 32 0 46 ∧ (2 < x.port ∨ x.thresh = 0 ∨ x.n <
    8 ∨ 8000 < x.n ∨ x.cap % x.n ≠ 0 ∨ x.cap < 4 * x.n ∨ x.cap < x.centre + 3 * x.n ∨ x.ctrl % 64 ≠ 0)) ∧
  (∃ (s : State) (ring : Fin 64) (cid : Fin 65536) (c : Cmd) (k : Fin 16) (x : Frt), Ready s ring cid 0x58 c ∧ c.arg 8 0 4 = k ∧ c.only [(8, 0, 7),
    (9, 0, 2), (10, 0, 8), (11, 0, 8), (12, 0, 16), (16, 0, 32), (20, 0, 32), (24, 0, 46), (32, 0, 46)] = true ∧
    { x with up := false, slip := false, port := 0, entry := 0, thresh := 0, n := 0, cap := 0, centre := 0, buf := 0, ctrl := 0 } = { s.frt k with up := false, slip := false, port := 0, entry := 0, thresh := 0, n := 0, cap := 0, centre := 0, buf := 0, ctrl := 0 }
    ∧ x.up = (c.arg 8 5 1 == 1) ∧ x.slip = (c.arg 8 6 1 == 1) ∧ x.port = c.arg 9 0 2 ∧ x.entry = c.arg 10 0 8 ∧ x.thresh = c.arg 11 0 8 ∧ x.n = c.arg
    12 0 16 ∧ x.cap = c.arg 16 0 32 ∧ x.centre = c.arg 20 0 32 ∧ x.buf = c.arg 24 0 46 ∧ x.ctrl = c.arg 32 0 46 ∧ (2 < x.port ∨ x.thresh = 0 ∨ x.n <
    8 ∨ 8000 < x.n ∨ x.cap % x.n ≠ 0 ∨ x.cap < 4 * x.n ∨ x.cap < x.centre + 3 * x.n ∨ x.ctrl % 64 ≠ 0)) ∧
  (∃ (s : State) (ring : Fin 64) (cid : Fin 65536) (c : Cmd) (k : Fin 16) (x : Frt), Ready s ring cid 0x58 c ∧ c.arg 8 0 4 = k ∧ c.only [(8, 0, 7),
    (9, 0, 2), (10, 0, 8), (11, 0, 8), (12, 0, 16), (16, 0, 32), (20, 0, 32), (24, 0, 46), (32, 0, 46)] = true ∧
    { x with up := false, slip := false, port := 0, entry := 0, thresh := 0, n := 0, cap := 0, centre := 0, buf := 0, ctrl := 0 } = { s.frt k with up := false, slip := false, port := 0, entry := 0, thresh := 0, n := 0, cap := 0, centre := 0, buf := 0, ctrl := 0 }
    ∧ x.up = (c.arg 8 5 1 == 1) ∧ x.slip = (c.arg 8 6 1 == 1) ∧ x.port = c.arg 9 0 2 ∧ x.entry = c.arg 10 0 8 ∧ x.thresh = c.arg 11 0 8 ∧ x.n = c.arg
    12 0 16 ∧ x.cap = c.arg 16 0 32 ∧ x.centre = c.arg 20 0 32 ∧ x.buf = c.arg 24 0 46 ∧ x.ctrl = c.arg 32 0 46 ∧ x.port ≤ 2 ∧ 1 ≤ x.thresh ∧ 8 ≤ x.n
    ∧ x.n ≤ 8000 ∧ x.cap % x.n = 0 ∧ 4 * x.n ≤ x.cap ∧ x.centre + 3 * x.n ≤ x.cap ∧ x.ctrl % 64 = 0 ∧ 0x0800_0000 ≤ x.buf ∧ s.inMem x.buf x.cap =
    true ∧ 0x0800_0000 ≤ x.ctrl ∧ s.inMem x.ctrl 64 = true ∧ (∀ p, (x.port = p ∨ x.port = 2) → p ≤ 1 → ((s.port p).entry x.entry).valid = true ∧
    ((s.port p).entry x.entry).kind = 4 ∧ ((s.port p).entry x.entry).up = x.up) ∧ (x.port = 2 → s.rg R.BND_STAT_STATE ≠ 0) ∧ s.flag R.FRT_STAT_EN k =
    true ∧ { x with thresh := (s.frt k).thresh } ≠ s.frt k) ∧
  (∃ (s : State) (ring : Fin 64) (cid : Fin 65536) (c : Cmd) (k : Fin 16) (x : Frt), Ready s ring cid 0x58 c ∧ c.arg 8 0 4 = k ∧ c.only [(8, 0, 7),
    (9, 0, 2), (10, 0, 8), (11, 0, 8), (12, 0, 16), (16, 0, 32), (20, 0, 32), (24, 0, 46), (32, 0, 46)] = true ∧
    { x with up := false, slip := false, port := 0, entry := 0, thresh := 0, n := 0, cap := 0, centre := 0, buf := 0, ctrl := 0 } = { s.frt k with up := false, slip := false, port := 0, entry := 0, thresh := 0, n := 0, cap := 0, centre := 0, buf := 0, ctrl := 0 }
    ∧ x.up = (c.arg 8 5 1 == 1) ∧ x.slip = (c.arg 8 6 1 == 1) ∧ x.port = c.arg 9 0 2 ∧ x.entry = c.arg 10 0 8 ∧ x.thresh = c.arg 11 0 8 ∧ x.n = c.arg
    12 0 16 ∧ x.cap = c.arg 16 0 32 ∧ x.centre = c.arg 20 0 32 ∧ x.buf = c.arg 24 0 46 ∧ x.ctrl = c.arg 32 0 46 ∧ x.port ≤ 2 ∧ 1 ≤ x.thresh ∧ 8 ≤ x.n
    ∧ x.n ≤ 8000 ∧ x.cap % x.n = 0 ∧ 4 * x.n ≤ x.cap ∧ x.centre + 3 * x.n ≤ x.cap ∧ x.ctrl % 64 = 0 ∧ 0x0800_0000 ≤ x.buf ∧ s.inMem x.buf x.cap =
    true ∧ 0x0800_0000 ≤ x.ctrl ∧ s.inMem x.ctrl 64 = true ∧ (∀ p, (x.port = p ∨ x.port = 2) → p ≤ 1 → ((s.port p).entry x.entry).valid = true ∧
    ((s.port p).entry x.entry).kind = 4 ∧ ((s.port p).entry x.entry).up = x.up) ∧ (x.port = 2 → s.rg R.BND_STAT_STATE ≠ 0) ∧ (s.flag R.FRT_STAT_EN k
    = false ∨ { x with thresh := (s.frt k).thresh } = s.frt k) ∧ c.user ≠ 0) ∧
  (∃ (s : State) (ring : Fin 64) (cid : Fin 65536) (c : Cmd) (k : Fin 16) (x : Frt), Ready s ring cid 0x58 c ∧ c.arg 8 0 4 = k ∧ c.only [(8, 0, 7),
    (9, 0, 2), (10, 0, 8), (11, 0, 8), (12, 0, 16), (16, 0, 32), (20, 0, 32), (24, 0, 46), (32, 0, 46)] = true ∧
    { x with up := false, slip := false, port := 0, entry := 0, thresh := 0, n := 0, cap := 0, centre := 0, buf := 0, ctrl := 0 } = { s.frt k with up := false, slip := false, port := 0, entry := 0, thresh := 0, n := 0, cap := 0, centre := 0, buf := 0, ctrl := 0 }
    ∧ x.up = (c.arg 8 5 1 == 1) ∧ x.slip = (c.arg 8 6 1 == 1) ∧ x.port = c.arg 9 0 2 ∧ x.entry = c.arg 10 0 8 ∧ x.thresh = c.arg 11 0 8 ∧ x.n = c.arg
    12 0 16 ∧ x.cap = c.arg 16 0 32 ∧ x.centre = c.arg 20 0 32 ∧ x.buf = c.arg 24 0 46 ∧ x.ctrl = c.arg 32 0 46 ∧ x.port ≤ 2 ∧ 1 ≤ x.thresh ∧ 8 ≤ x.n
    ∧ x.n ≤ 8000 ∧ x.cap % x.n = 0 ∧ 4 * x.n ≤ x.cap ∧ x.centre + 3 * x.n ≤ x.cap ∧ x.ctrl % 64 = 0 ∧ 0x0800_0000 ≤ x.buf ∧ s.inMem x.buf x.cap =
    true ∧ 0x0800_0000 ≤ x.ctrl ∧ s.inMem x.ctrl 64 = true ∧ (∀ p, (x.port = p ∨ x.port = 2) → p ≤ 1 → ((s.port p).entry x.entry).valid = true ∧
    ((s.port p).entry x.entry).kind = 4 ∧ ((s.port p).entry x.entry).up = x.up) ∧ (x.port = 2 → s.rg R.BND_STAT_STATE ≠ 0) ∧ (s.flag R.FRT_STAT_EN k
    = false ∨ { x with thresh := (s.frt k).thresh } = s.frt k) ∧ c.user = 0) :=
  ⟨⟨fl [(cm 0x57 [(12, 0, 1), (9, 0, 1), (10, 0, 20), (11, 0, 64), (16, 0, 4096)])], 0, 7, (cm 0x57 [(12, 0, 1), (9, 0, 1), (10, 0, 20), (11, 0, 64),
     (16, 0, 4096)]), List.replicate 128 1, (List.range (((cm 0x57 [(12, 0, 1), (9, 0, 1), (10, 0, 20), (11, 0, 64), (16, 0, 4096)])).arg 11 0
     8)).map (fun i => rec16 (List.replicate 128 1) (2 * i)), false, true,
     ⟨by decide +kernel, by decide +kernel, by decide +kernel, by decide +kernel, by decide +kernel, by decide +kernel, rfl, by decide +kernel, by decide +kernel, by decide +kernel, by decide +kernel, by decide +kernel, by decide +kernel, by decide +kernel, by decide +kernel, by decide +kernel, by decide +kernel⟩⟩,
   ⟨fl [(cm 0x57 [(8, 0, 1), (12, 0, 1), (9, 0, 15), (10, 0, 20), (16, 0, 4096)])] (({ ports := Vector.replicate 2 { rec_ := [5] } })), 0, 7, (cm
     0x57 [(8, 0, 1), (12, 0, 1), (9, 0, 15), (10, 0, 20), (16, 0, 4096)]), [], (List.range (((cm 0x57 [(8, 0, 1), (12, 0, 1), (9, 0, 15), (10, 0,
     20), (16, 0, 4096)])).arg 11 0 8)).map (fun i => rec16 ([]) (2 * i)), true, true,
     ⟨by decide +kernel, by decide +kernel, by decide +kernel, by decide +kernel, by decide +kernel, by decide +kernel, rfl, by decide +kernel, by decide +kernel, by decide +kernel, by decide +kernel, by decide +kernel, by decide +kernel, by decide +kernel, by decide +kernel, by decide +kernel, by decide +kernel⟩⟩,
   ⟨fl [(cm 0x58 [(9, 0, 3)])], 0, 7, (cm 0x58 [(9, 0, 3)]), 0, { port := 3, thresh := 0, n := 0 }, by decide +kernel⟩,
   ⟨fl [(cm 0x58 [(11, 0, 1), (12, 0, 8), (16, 0, 31)])], 0, 7, (cm 0x58 [(11, 0, 1), (12, 0, 8), (16, 0, 31)]), 0,
     { thresh := 1, n := 8, cap := 31 }, by decide +kernel⟩,
   ⟨fl [(cm 0x58 fc)] ((frt0 {} (px { valid := true, kind := 4 }))), 0, 7, (cm 0x58 fc), 0, fx,
     ⟨by decide +kernel, by decide +kernel, by decide +kernel, by decide +kernel, by decide +kernel, by decide +kernel, by decide +kernel, by decide +kernel, by decide +kernel, by decide +kernel, by decide +kernel, by decide +kernel, by decide +kernel, by decide +kernel, by decide +kernel, by decide +kernel, by decide +kernel, by decide +kernel, by decide +kernel, by decide +kernel, by decide +kernel, by decide +kernel, by decide +kernel, by decide +kernel, by decide +kernel, by decide +kernel, fun p h h2 => h.elim (fun h => h ▸ (by decide +kernel)) (fun h => absurd h (by decide +kernel)), by decide +kernel, by decide +kernel, by decide +kernel⟩⟩,
   ⟨fl [(cm 0x58 fc 1)] ((px { valid := true, kind := 4 })), 0, 7, (cm 0x58 fc 1), 0, fx,
     ⟨by decide +kernel, by decide +kernel, by decide +kernel, by decide +kernel, by decide +kernel, by decide +kernel, by decide +kernel, by decide +kernel, by decide +kernel, by decide +kernel, by decide +kernel, by decide +kernel, by decide +kernel, by decide +kernel, by decide +kernel, by decide +kernel, by decide +kernel, by decide +kernel, by decide +kernel, by decide +kernel, by decide +kernel, by decide +kernel, by decide +kernel, by decide +kernel, by decide +kernel, by decide +kernel, fun p h h2 => h.elim (fun h => h ▸ (by decide +kernel)) (fun h => absurd h (by decide +kernel)), by decide +kernel, by decide +kernel, by decide +kernel⟩⟩,
   ⟨fl [(cm 0x58 fc)] ((px { valid := true, kind := 4 })), 0, 7, (cm 0x58 fc), 0, fx,
     ⟨by decide +kernel, by decide +kernel, by decide +kernel, by decide +kernel, by decide +kernel, by decide +kernel, by decide +kernel, by decide +kernel, by decide +kernel, by decide +kernel, by decide +kernel, by decide +kernel, by decide +kernel, by decide +kernel, by decide +kernel, by decide +kernel, by decide +kernel, by decide +kernel, by decide +kernel, by decide +kernel, by decide +kernel, by decide +kernel, by decide +kernel, by decide +kernel, by decide +kernel, by decide +kernel, fun p h h2 => h.elim (fun h => h ▸ (by decide +kernel)) (fun h => absurd h (by decide +kernel)), by decide +kernel, by decide +kernel, by decide +kernel⟩⟩⟩

/-- Every hypothesis of OpticTimePowerAndDiagnosticCommands is met. -/
theorem hyps_met_OpticTimePowerAndDiagnosticCommands_1 :
  (∃ (s : State) (ring : Fin 64) (cid : Fin 65536) (c : Cmd) (p : Fin 2) (b : List Byte) (es : List (List Byte)) (static : Bool), Ready s ring cid
    0x60 c ∧ c.arg 8 0 1 = p ∧ c.only [(8, 0, 1), (9, 0, 1), (16, 0, 64)] = true ∧ c.arg 9 0 1 = 1 ∧ c.rdata = none ∧ s.host.linkUp = true ∧ ((vget
    s.host.fns c.user).bme = true) ∧ b.length = 48 + 20 * rec8 b 18 ∧ es = (List.range (rec8 b 18)).map (fun i => slice b (48 + 20 * i) 20) ∧ (static
    = decide (rec16 b 4 ≠ rec16 (s.optic p).rec_ 4 ∨ rec16 b 6 ≠ rec16 (s.optic p).rec_ 6)) ∧ (opticRecOk (b.take 48) = false ∨ ∃ e ∈ es, rec8 e 3 =
    0 ∨ 16 < rec8 e 3)) ∧
  (∃ (s : State) (ring : Fin 64) (cid : Fin 65536) (c : Cmd) (p : Fin 2) (b : List Byte) (es : List (List Byte)) (static : Bool), Ready s ring cid
    0x60 c ∧ c.arg 8 0 1 = p ∧ c.only [(8, 0, 1), (9, 0, 1), (16, 0, 64)] = true ∧ c.arg 9 0 1 = 1 ∧ c.rdata = none ∧ s.host.linkUp = true ∧ ((vget
    s.host.fns c.user).bme = true) ∧ b.length = 48 + 20 * rec8 b 18 ∧ es = (List.range (rec8 b 18)).map (fun i => slice b (48 + 20 * i) 20) ∧ (static
    = decide (rec16 b 4 ≠ rec16 (s.optic p).rec_ 4 ∨ rec16 b 6 ≠ rec16 (s.optic p).rec_ 6)) ∧ (opticRecOk (b.take 48) = false ∨ ∃ e ∈ es, rec8 e 3 =
    0 ∨ 16 < rec8 e 3)) ∧
  (∃ (s : State) (ring : Fin 64) (cid : Fin 65536) (c : Cmd) (p : Fin 2) (b : List Byte) (es : List (List Byte)) (static : Bool), Ready s ring cid
    0x60 c ∧ c.arg 8 0 1 = p ∧ c.only [(8, 0, 1), (9, 0, 1), (16, 0, 64)] = true ∧ c.arg 9 0 1 = 1 ∧ c.rdata = none ∧ s.host.linkUp = true ∧ ((vget
    s.host.fns c.user).bme = true) ∧ b.length = 48 + 20 * rec8 b 18 ∧ es = (List.range (rec8 b 18)).map (fun i => slice b (48 + 20 * i) 20) ∧ (static
    = decide (rec16 b 4 ≠ rec16 (s.optic p).rec_ 4 ∨ rec16 b 6 ≠ rec16 (s.optic p).rec_ 6)) ∧ opticRecOk (b.take 48) = true ∧ (∀ e ∈ es, 1 ≤ rec8 e 3
    ∧ rec8 e 3 ≤ 16) ∧ ((s.port p).enabled = true) ∧ static = true) ∧
  (∃ (s : State) (ring : Fin 64) (cid : Fin 65536) (c : Cmd) (p : Fin 2) (b : List Byte) (es : List (List Byte)) (static : Bool), Ready s ring cid
    0x60 c ∧ c.arg 8 0 1 = p ∧ c.only [(8, 0, 1), (9, 0, 1), (16, 0, 64)] = true ∧ c.arg 9 0 1 = 1 ∧ c.rdata = none ∧ s.host.linkUp = true ∧ ((vget
    s.host.fns c.user).bme = true) ∧ b.length = 48 + 20 * rec8 b 18 ∧ es = (List.range (rec8 b 18)).map (fun i => slice b (48 + 20 * i) 20) ∧ (static
    = decide (rec16 b 4 ≠ rec16 (s.optic p).rec_ 4 ∨ rec16 b 6 ≠ rec16 (s.optic p).rec_ 6)) ∧ opticRecOk (b.take 48) = true ∧ (∀ e ∈ es, 1 ≤ rec8 e 3
    ∧ rec8 e 3 ≤ 16) ∧ ((s.port p).enabled = false ∨ static = false) ∧ c.user ≠ 0) ∧
  (∃ (s : State) (ring : Fin 64) (cid : Fin 65536) (c : Cmd) (p : Fin 2) (b : List Byte) (es : List (List Byte)) (static : Bool), Ready s ring cid
    0x60 c ∧ c.arg 8 0 1 = p ∧ c.only [(8, 0, 1), (9, 0, 1), (16, 0, 64)] = true ∧ c.arg 9 0 1 = 1 ∧ c.rdata = none ∧ s.host.linkUp = true ∧ ((vget
    s.host.fns c.user).bme = true) ∧ b.length = 48 + 20 * rec8 b 18 ∧ es = (List.range (rec8 b 18)).map (fun i => slice b (48 + 20 * i) 20) ∧ (static
    = decide (rec16 b 4 ≠ rec16 (s.optic p).rec_ 4 ∨ rec16 b 6 ≠ rec16 (s.optic p).rec_ 6)) ∧ opticRecOk (b.take 48) = true ∧ (∀ e ∈ es, 1 ≤ rec8 e 3
    ∧ rec8 e 3 ≤ 16) ∧ ((s.port p).enabled = false ∨ static = false) ∧ c.user = 0) ∧
  (∃ (s : State) (ring : Fin 64) (cid : Fin 65536) (c : Cmd) (p : Fin 2) (b : List Byte) (es : List (List Byte)) (static : Bool), Ready s ring cid
    0x60 c ∧ c.arg 8 0 1 = p ∧ c.only [(8, 0, 1), (9, 0, 1), (16, 0, 64)] = true ∧ c.arg 9 0 1 = 1 ∧ c.rdata = none ∧ s.host.linkUp = true ∧ ((vget
    s.host.fns c.user).bme = true) ∧ b.length = 48 + 20 * rec8 b 18 ∧ es = (List.range (rec8 b 18)).map (fun i => slice b (48 + 20 * i) 20) ∧ (static
    = decide (rec16 b 4 ≠ rec16 (s.optic p).rec_ 4 ∨ rec16 b 6 ≠ rec16 (s.optic p).rec_ 6)) ∧ opticRecOk (b.take 48) = true ∧ (∀ e ∈ es, 1 ≤ rec8 e 3
    ∧ rec8 e 3 ≤ 16) ∧ ((s.port p).enabled = false ∨ static = false) ∧ c.user = 0) ∧
  (∃ (s : State) (ring : Fin 64) (cid : Fin 65536) (c : Cmd) (p : Fin 2) (act : Nat), Ready s ring cid 0x61 c ∧ c.arg 8 0 1 = p ∧ c.arg 9 0 8 = act ∧
    c.only [(8, 0, 1), (9, 0, 8)] = true ∧ 3 < act) ∧
  (∃ (s : State) (ring : Fin 64) (cid : Fin 65536) (c : Cmd) (p : Fin 2) (act : Nat), Ready s ring cid 0x61 c ∧ c.arg 8 0 1 = p ∧ c.arg 9 0 8 = act ∧
    c.only [(8, 0, 1), (9, 0, 8)] = true ∧ act ≤ 3 ∧ c.user ≠ 0) ∧
  (∃ (s : State) (ring : Fin 64) (cid : Fin 65536) (c : Cmd) (p : Fin 2) (act : Nat), Ready s ring cid 0x61 c ∧ c.arg 8 0 1 = p ∧ c.arg 9 0 8 = act ∧
    c.only [(8, 0, 1), (9, 0, 8)] = true ∧ act = 0 ∧ c.user = 0 ∧ s.optState p ≠ 4) ∧
  (∃ (s : State) (ring : Fin 64) (cid : Fin 65536) (c : Cmd) (p : Fin 2) (act : Nat), Ready s ring cid 0x61 c ∧ c.arg 8 0 1 = p ∧ c.arg 9 0 8 = act ∧
    c.only [(8, 0, 1), (9, 0, 8)] = true ∧ act = 0 ∧ c.user = 0 ∧ s.optState p = 4 ∧ s.rg R.OPT_STAT_REASON p ≠ 6) ∧
  (∃ (s : State) (ring : Fin 64) (cid : Fin 65536) (c : Cmd) (p : Fin 2) (act : Nat), Ready s ring cid 0x61 c ∧ c.arg 8 0 1 = p ∧ c.arg 9 0 8 = act ∧
    c.only [(8, 0, 1), (9, 0, 8)] = true ∧ act = 0 ∧ c.user = 0 ∧ s.optState p = 4 ∧ s.rg R.OPT_STAT_REASON p = 6) ∧
  (∃ (s : State) (ring : Fin 64) (cid : Fin 65536) (c : Cmd) (p : Fin 2) (act : Nat), Ready s ring cid 0x61 c ∧ c.arg 8 0 1 = p ∧ c.arg 9 0 8 = act ∧
    c.only [(8, 0, 1), (9, 0, 8)] = true ∧ act = 1 ∧ c.user = 0 ∧ ((s.optic p).ident ∉ s.overrides)) ∧
  (∃ (s : State) (ring : Fin 64) (cid : Fin 65536) (c : Cmd) (p : Fin 2) (act : Nat), Ready s ring cid 0x61 c ∧ c.arg 8 0 1 = p ∧ c.arg 9 0 8 = act ∧
    c.only [(8, 0, 1), (9, 0, 8)] = true ∧ act = 1 ∧ c.user = 0 ∧ ((s.optic p).ident ∈ s.overrides)) ∧
  (∃ (s : State) (ring : Fin 64) (cid : Fin 65536) (c : Cmd) (p : Fin 2) (act : Nat) (txf : Bool), Ready s ring cid 0x61 c ∧ c.arg 8 0 1 = p ∧ c.arg
    9 0 8 = act ∧ c.only [(8, 0, 1), (9, 0, 8)] = true ∧ act = 2 ∧ c.user = 0 ∧ (s.optState p ≠ 5 ∨ txf = true)) ∧
  (∃ (s : State) (ring : Fin 64) (cid : Fin 65536) (c : Cmd) (p : Fin 2) (act : Nat) (txf : Bool), Ready s ring cid 0x61 c ∧ c.arg 8 0 1 = p ∧ c.arg
    9 0 8 = act ∧ c.only [(8, 0, 1), (9, 0, 8)] = true ∧ act = 2 ∧ c.user = 0 ∧ (s.optState p ≠ 5 ∨ txf = true)) ∧
  (∃ (s : State) (ring : Fin 64) (cid : Fin 65536) (c : Cmd) (p : Fin 2) (act : Nat) (txf : Bool), Ready s ring cid 0x61 c ∧ c.arg 8 0 1 = p ∧ c.arg
    9 0 8 = act ∧ c.only [(8, 0, 1), (9, 0, 8)] = true ∧ act = 2 ∧ c.user = 0 ∧ s.optState p = 5 ∧ txf = false) ∧
  (∃ (s : State) (ring : Fin 64) (cid : Fin 65536) (c : Cmd) (p : Fin 2) (act : Nat), Ready s ring cid 0x61 c ∧ c.arg 8 0 1 = p ∧ c.arg 9 0 8 = act ∧
    c.only [(8, 0, 1), (9, 0, 8)] = true ∧ act = 3 ∧ c.user = 0 ∧ s.optState p = 0) ∧
  (∃ (s : State) (ring : Fin 64) (cid : Fin 65536) (c : Cmd) (p : Fin 2) (act : Nat), Ready s ring cid 0x61 c ∧ c.arg 8 0 1 = p ∧ c.arg 9 0 8 = act ∧
    c.only [(8, 0, 1), (9, 0, 8)] = true ∧ act = 3 ∧ c.user = 0 ∧ s.optState p ≠ 0 ∧ ((s.optic p).ledger = [] ∨ s.flag R.PWR_RAIL_PWR_FAIL = true)) ∧
  (∃ (s : State) (ring : Fin 64) (cid : Fin 65536) (c : Cmd) (p : Fin 2) (act : Nat), Ready s ring cid 0x61 c ∧ c.arg 8 0 1 = p ∧ c.arg 9 0 8 = act ∧
    c.only [(8, 0, 1), (9, 0, 8)] = true ∧ act = 3 ∧ c.user = 0 ∧ s.optState p ≠ 0 ∧ ((s.optic p).ledger.length = 56) ∧ s.flag R.PWR_RAIL_PWR_FAIL =
    false) ∧
  (∃ (s : State) (ring : Fin 64) (cid : Fin 65536) (c : Cmd) (p : Fin 2), Ready s ring cid 0x62 c ∧ c.arg 8 0 1 = p ∧ c.arg 9 0 1 = 1 ∧ c.only [(8,
    0, 1), (9, 0, 1), (16, 0, 64)] = true ∧ c.user ≠ 0) :=
  ⟨⟨fl [(cm 0x60 kc)], 0, 7, (cm 0x60 kc), 0, List.replicate 48 0, (List.range (rec8 (List.replicate 48 0) 18)).map (fun i => slice (List.replicate
     48 0) (48 + 20 * i) 20), true,
     ⟨by decide +kernel, by decide +kernel, by decide +kernel, by decide +kernel, by decide +kernel, by decide +kernel, by decide +kernel, by decide +kernel, rfl, by decide +kernel, by decide +kernel⟩⟩,
   ⟨fl [(cm 0x60 kc)], 0, 7, (cm 0x60 kc), 0, oc 1 ++ List.replicate 20 0, (List.range (rec8 (oc 1 ++ List.replicate 20 0) 18)).map (fun i => slice
     (oc 1 ++ List.replicate 20 0) (48 + 20 * i) 20), true,
     ⟨by decide +kernel, by decide +kernel, by decide +kernel, by decide +kernel, by decide +kernel, by decide +kernel, by decide +kernel, by decide +kernel, rfl, by decide +kernel, by decide +kernel⟩⟩,
   ⟨fl [(cm 0x60 kc)] ((pt { rec_ := [5] })), 0, 7, (cm 0x60 kc), 0, oc 1 ++ rb 20 [(3, 0, 16)], (List.range (rec8 (oc 1 ++ rb 20 [(3, 0, 16)])
     18)).map (fun i => slice (oc 1 ++ rb 20 [(3, 0, 16)]) (48 + 20 * i) 20), true,
     ⟨by decide +kernel, by decide +kernel, by decide +kernel, by decide +kernel, by decide +kernel, by decide +kernel, by decide +kernel, by decide +kernel, rfl, by decide +kernel, by decide +kernel, by decide +kernel, by decide +kernel, by decide +kernel⟩⟩,
   ⟨fl [(cm 0x60 kc 1)] ((op { rec_ := [] } [])), 0, 7, (cm 0x60 kc 1), 0, oc 0, (List.range (rec8 (oc 0) 18)).map (fun i => slice (oc 0) (48 + 20 *
     i) 20), false,
     ⟨by decide +kernel, by decide +kernel, by decide +kernel, by decide +kernel, by decide +kernel, by decide +kernel, by decide +kernel, by decide +kernel, rfl, by decide +kernel, by decide +kernel, by decide +kernel, by decide +kernel, by decide +kernel⟩⟩,
   ⟨fl [(cm 0x60 kc)], 0, 7, (cm 0x60 kc), 0, oc 1 ++ rb 20 [(3, 0, 1)], (List.range (rec8 (oc 1 ++ rb 20 [(3, 0, 1)]) 18)).map (fun i => slice (oc 1
     ++ rb 20 [(3, 0, 1)]) (48 + 20 * i) 20), true,
     ⟨by decide +kernel, by decide +kernel, by decide +kernel, by decide +kernel, by decide +kernel, by decide +kernel, by decide +kernel, by decide +kernel, rfl, by decide +kernel, by decide +kernel, by decide +kernel, by decide +kernel, by decide +kernel⟩⟩,
   ⟨fl [(cm 0x60 kc)] ((op { rec_ := [] } [] (pt { rec_ := [5] }))), 0, 7, (cm 0x60 kc), 0, oc 0, (List.range (rec8 (oc 0) 18)).map (fun i => slice
     (oc 0) (48 + 20 * i) 20), false,
     ⟨by decide +kernel, by decide +kernel, by decide +kernel, by decide +kernel, by decide +kernel, by decide +kernel, by decide +kernel, by decide +kernel, rfl, by decide +kernel, by decide +kernel, by decide +kernel, by decide +kernel, by decide +kernel⟩⟩,
   ⟨fl [(cm 0x61 [(9, 0, 4)])], 0, 7, (cm 0x61 [(9, 0, 4)]), 0, 4, by decide +kernel⟩,
   ⟨fl [(cm 0x61 [(9, 0, 3)] 1)], 0, 7, (cm 0x61 [(9, 0, 3)] 1), 0, 3, by decide +kernel⟩,
   ⟨fl [(cm 0x61 [])], 0, 7, (cm 0x61 []), 0, 0, by decide +kernel⟩,
   ⟨fl [(cm 0x61 [])] ((rgs [(R.OPT_STAT_STATE, 0, 4)])), 0, 7, (cm 0x61 []), 0, 0, by decide +kernel⟩,
   ⟨fl [(cm 0x61 [])] ((rgs [(R.OPT_STAT_STATE, 0, 4), (R.OPT_STAT_REASON, 0, 6)])), 0, 7, (cm 0x61 []), 0, 0, by decide +kernel⟩,
   ⟨fl [(cm 0x61 [(9, 0, 1)])], 0, 7, (cm 0x61 [(9, 0, 1)]), 0, 1, by decide +kernel⟩,
   ⟨fl [(cm 0x61 [(9, 0, 1)])] (({ overrides := [((({} : State).optic 0).ident)] })), 0, 7, (cm 0x61 [(9, 0, 1)]), 0, 1, by decide +kernel⟩,
   ⟨fl [(cm 0x61 [(9, 0, 2)])], 0, 7, (cm 0x61 [(9, 0, 2)]), 0, 2, false, by decide +kernel⟩,
   ⟨fl [(cm 0x61 [(9, 0, 2)])] ((rgs [(R.OPT_STAT_STATE, 0, 5)])), 0, 7, (cm 0x61 [(9, 0, 2)]), 0, 2, true, by decide +kernel⟩,
   ⟨fl [(cm 0x61 [(9, 0, 2)])] ((rgs [(R.OPT_STAT_STATE, 0, 5)])), 0, 7, (cm 0x61 [(9, 0, 2)]), 0, 2, false, by decide +kernel⟩,
   ⟨fl [(cm 0x61 [(9, 0, 3)])], 0, 7, (cm 0x61 [(9, 0, 3)]), 0, 3, by decide +kernel⟩,
   ⟨fl [(cm 0x61 [(9, 0, 3)])] ((rgs [(R.OPT_STAT_STATE, 0, 5)])), 0, 7, (cm 0x61 [(9, 0, 3)]), 0, 3, by decide +kernel⟩,
   ⟨fl [(cm 0x61 [(9, 0, 3)])] ((op { rec_ := [], ledger := List.replicate 56 0 } [(R.OPT_STAT_STATE, 0, 5)])), 0, 7, (cm 0x61 [(9, 0, 3)]), 0, 3,
     by decide +kernel⟩,
   ⟨fl [(cm 0x62 [(9, 0, 1), (16, 0, 4096)] 1)], 0, 7, (cm 0x62 [(9, 0, 1), (16, 0, 4096)] 1), 0, by decide +kernel⟩⟩

/-- Every hypothesis of OpticTimePowerAndDiagnosticCommands is met. -/
theorem hyps_met_OpticTimePowerAndDiagnosticCommands_2 :
  (∃ (s : State) (ring : Fin 64) (cid : Fin 65536) (c : Cmd) (p : Fin 2), Ready s ring cid 0x62 c ∧ c.arg 8 0 1 = p ∧ c.arg 9 0 1 = 1 ∧ c.only [(8,
    0, 1), (9, 0, 1), (16, 0, 64)] = true ∧ c.user = 0) ∧
  (∃ (s : State) (ring : Fin 64) (cid : Fin 65536) (c : Cmd) (m : Nat) (chg : Bool) (w0 : State) (w1 : State) (w2 : State) (w3 : State) (w4 : State),
    Inv s ∧ Ready s ring cid 0x80 c ∧ c.arg 8 0 5 = m ∧ c.only [(8, 0, 5), (16, 0, 128), (32, 0, 64)] = true ∧ (chg = decide ((m.testBit 4 = true ∧
    c.arg 32 0 64 ≠ s.rg R.NR_BASE_BASE) ∨ (m.testBit 0 = true ∧ c.arg 18 0 1 ≠ s.rg R.TK_CTL_NR_ALIGN))) ∧ w0 = (if m.testBit 0 then (started s
    c).regWrite 0 0x1830 (c.arg 16 0 32) else started s c) ∧ w1 = (if m.testBit 1 then w0.regWrite 0 0x1834 (c.arg 20 0 32) else w0) ∧ w2 = (if
    m.testBit 2 then w1.regWrite 0 0x1838 (c.arg 24 0 32) else w1) ∧ w3 = (if m.testBit 3 then w2.regWrite 0 0x183C (c.arg 28 0 32) else w2) ∧ w4 =
    (if m.testBit 4 then w3.regWrite 0 0x1820 (c.arg 32 0 64) else w3) ∧ ((m.testBit 0 = true ∧ (4 < c.arg 16 0 4 ∨ 4 < c.arg 16 4 4 ∨ 4 < c.arg 17 0
    4 ∨ c.arg 18 1 2 = 3 ∨ 2 ^ 19 ≤ c.arg 16 0 32)) ∨ (m.testBit 2 = true ∧ 2 ^ 26 ≤ c.arg 24 0 32) ∨ (m.testBit 4 = true ∧ 2 ^ 34 ≤ c.arg 32 0 64))) ∧
  (∃ (s : State) (ring : Fin 64) (cid : Fin 65536) (c : Cmd) (m : Nat) (chg : Bool) (w0 : State) (w1 : State) (w2 : State) (w3 : State) (w4 : State),
    Inv s ∧ Ready s ring cid 0x80 c ∧ c.arg 8 0 5 = m ∧ c.only [(8, 0, 5), (16, 0, 128), (32, 0, 64)] = true ∧ (chg = decide ((m.testBit 4 = true ∧
    c.arg 32 0 64 ≠ s.rg R.NR_BASE_BASE) ∨ (m.testBit 0 = true ∧ c.arg 18 0 1 ≠ s.rg R.TK_CTL_NR_ALIGN))) ∧ w0 = (if m.testBit 0 then (started s
    c).regWrite 0 0x1830 (c.arg 16 0 32) else started s c) ∧ w1 = (if m.testBit 1 then w0.regWrite 0 0x1834 (c.arg 20 0 32) else w0) ∧ w2 = (if
    m.testBit 2 then w1.regWrite 0 0x1838 (c.arg 24 0 32) else w1) ∧ w3 = (if m.testBit 3 then w2.regWrite 0 0x183C (c.arg 28 0 32) else w2) ∧ w4 =
    (if m.testBit 4 then w3.regWrite 0 0x1820 (c.arg 32 0 64) else w3) ∧ ((m.testBit 0 = true ∧ (4 < c.arg 16 0 4 ∨ 4 < c.arg 16 4 4 ∨ 4 < c.arg 17 0
    4 ∨ c.arg 18 1 2 = 3 ∨ 2 ^ 19 ≤ c.arg 16 0 32)) ∨ (m.testBit 2 = true ∧ 2 ^ 26 ≤ c.arg 24 0 32) ∨ (m.testBit 4 = true ∧ 2 ^ 34 ≤ c.arg 32 0 64))) ∧
  (∃ (s : State) (ring : Fin 64) (cid : Fin 65536) (c : Cmd) (m : Nat) (chg : Bool) (w0 : State) (w1 : State) (w2 : State) (w3 : State) (w4 : State),
    Inv s ∧ Ready s ring cid 0x80 c ∧ c.arg 8 0 5 = m ∧ c.only [(8, 0, 5), (16, 0, 128), (32, 0, 64)] = true ∧ (chg = decide ((m.testBit 4 = true ∧
    c.arg 32 0 64 ≠ s.rg R.NR_BASE_BASE) ∨ (m.testBit 0 = true ∧ c.arg 18 0 1 ≠ s.rg R.TK_CTL_NR_ALIGN))) ∧ w0 = (if m.testBit 0 then (started s
    c).regWrite 0 0x1830 (c.arg 16 0 32) else started s c) ∧ w1 = (if m.testBit 1 then w0.regWrite 0 0x1834 (c.arg 20 0 32) else w0) ∧ w2 = (if
    m.testBit 2 then w1.regWrite 0 0x1838 (c.arg 24 0 32) else w1) ∧ w3 = (if m.testBit 3 then w2.regWrite 0 0x183C (c.arg 28 0 32) else w2) ∧ w4 =
    (if m.testBit 4 then w3.regWrite 0 0x1820 (c.arg 32 0 64) else w3) ∧ (m.testBit 0 = true → c.arg 16 0 4 ≤ 4 ∧ c.arg 16 4 4 ≤ 4 ∧ c.arg 17 0 4 ≤ 4
    ∧ c.arg 18 1 2 ≠ 3 ∧ c.arg 16 0 32 < 2 ^ 19) ∧ (m.testBit 2 = true → c.arg 24 0 32 < 2 ^ 26) ∧ (m.testBit 4 = true → c.arg 32 0 64 < 2 ^ 34) ∧
    chg = true ∧ s.anyCarrier = true) ∧
  (∃ (s : State) (ring : Fin 64) (cid : Fin 65536) (c : Cmd) (m : Nat) (chg : Bool) (w0 : State) (w1 : State) (w2 : State) (w3 : State) (w4 : State),
    Inv s ∧ Ready s ring cid 0x80 c ∧ c.arg 8 0 5 = m ∧ c.only [(8, 0, 5), (16, 0, 128), (32, 0, 64)] = true ∧ (chg = decide ((m.testBit 4 = true ∧
    c.arg 32 0 64 ≠ s.rg R.NR_BASE_BASE) ∨ (m.testBit 0 = true ∧ c.arg 18 0 1 ≠ s.rg R.TK_CTL_NR_ALIGN))) ∧ w0 = (if m.testBit 0 then (started s
    c).regWrite 0 0x1830 (c.arg 16 0 32) else started s c) ∧ w1 = (if m.testBit 1 then w0.regWrite 0 0x1834 (c.arg 20 0 32) else w0) ∧ w2 = (if
    m.testBit 2 then w1.regWrite 0 0x1838 (c.arg 24 0 32) else w1) ∧ w3 = (if m.testBit 3 then w2.regWrite 0 0x183C (c.arg 28 0 32) else w2) ∧ w4 =
    (if m.testBit 4 then w3.regWrite 0 0x1820 (c.arg 32 0 64) else w3) ∧ (m.testBit 0 = true → c.arg 16 0 4 ≤ 4 ∧ c.arg 16 4 4 ≤ 4 ∧ c.arg 17 0 4 ≤ 4
    ∧ c.arg 18 1 2 ≠ 3 ∧ c.arg 16 0 32 < 2 ^ 19) ∧ (m.testBit 2 = true → c.arg 24 0 32 < 2 ^ 26) ∧ (m.testBit 4 = true → c.arg 32 0 64 < 2 ^ 34) ∧
    (chg = false ∨ s.anyCarrier = false) ∧ c.user ≠ 0) ∧
  (∃ (s : State) (ring : Fin 64) (cid : Fin 65536) (c : Cmd) (m : Nat) (chg : Bool) (w0 : State) (w1 : State) (w2 : State) (w3 : State) (w4 : State),
    Inv s ∧ Ready s ring cid 0x80 c ∧ c.arg 8 0 5 = m ∧ c.only [(8, 0, 5), (16, 0, 128), (32, 0, 64)] = true ∧ (chg = decide ((m.testBit 4 = true ∧
    c.arg 32 0 64 ≠ s.rg R.NR_BASE_BASE) ∨ (m.testBit 0 = true ∧ c.arg 18 0 1 ≠ s.rg R.TK_CTL_NR_ALIGN))) ∧ w0 = (if m.testBit 0 then (started s
    c).regWrite 0 0x1830 (c.arg 16 0 32) else started s c) ∧ w1 = (if m.testBit 1 then w0.regWrite 0 0x1834 (c.arg 20 0 32) else w0) ∧ w2 = (if
    m.testBit 2 then w1.regWrite 0 0x1838 (c.arg 24 0 32) else w1) ∧ w3 = (if m.testBit 3 then w2.regWrite 0 0x183C (c.arg 28 0 32) else w2) ∧ w4 =
    (if m.testBit 4 then w3.regWrite 0 0x1820 (c.arg 32 0 64) else w3) ∧ (m.testBit 0 = true → c.arg 16 0 4 ≤ 4 ∧ c.arg 16 4 4 ≤ 4 ∧ c.arg 17 0 4 ≤ 4
    ∧ c.arg 18 1 2 ≠ 3 ∧ c.arg 16 0 32 < 2 ^ 19) ∧ (m.testBit 2 = true → c.arg 24 0 32 < 2 ^ 26) ∧ (m.testBit 4 = true → c.arg 32 0 64 < 2 ^ 34) ∧
    (chg = false ∨ s.anyCarrier = false) ∧ c.user = 0) ∧
  (∃ (s : State) (ring : Fin 64) (cid : Fin 65536) (c : Cmd) (m : Nat) (chg : Bool) (w0 : State) (w1 : State) (w2 : State) (w3 : State) (w4 : State),
    Inv s ∧ Ready s ring cid 0x80 c ∧ c.arg 8 0 5 = m ∧ c.only [(8, 0, 5), (16, 0, 128), (32, 0, 64)] = true ∧ (chg = decide ((m.testBit 4 = true ∧
    c.arg 32 0 64 ≠ s.rg R.NR_BASE_BASE) ∨ (m.testBit 0 = true ∧ c.arg 18 0 1 ≠ s.rg R.TK_CTL_NR_ALIGN))) ∧ w0 = (if m.testBit 0 then (started s
    c).regWrite 0 0x1830 (c.arg 16 0 32) else started s c) ∧ w1 = (if m.testBit 1 then w0.regWrite 0 0x1834 (c.arg 20 0 32) else w0) ∧ w2 = (if
    m.testBit 2 then w1.regWrite 0 0x1838 (c.arg 24 0 32) else w1) ∧ w3 = (if m.testBit 3 then w2.regWrite 0 0x183C (c.arg 28 0 32) else w2) ∧ w4 =
    (if m.testBit 4 then w3.regWrite 0 0x1820 (c.arg 32 0 64) else w3) ∧ (m.testBit 0 = true → c.arg 16 0 4 ≤ 4 ∧ c.arg 16 4 4 ≤ 4 ∧ c.arg 17 0 4 ≤ 4
    ∧ c.arg 18 1 2 ≠ 3 ∧ c.arg 16 0 32 < 2 ^ 19) ∧ (m.testBit 2 = true → c.arg 24 0 32 < 2 ^ 26) ∧ (m.testBit 4 = true → c.arg 32 0 64 < 2 ^ 34) ∧
    (chg = false ∨ s.anyCarrier = false) ∧ c.user = 0) ∧
  (∃ (s : State) (ring : Fin 64) (cid : Fin 65536) (c : Cmd) (p : Fin 2), Ready s ring cid 0x81 c ∧ c.arg 8 0 1 = p ∧ c.only [(8, 0, 1), (16, 0, 64),
    (24, 0, 48), (32, 0, 32)] = true ∧ 1000000000 ≤ c.arg 32 0 32) ∧
  (∃ (s : State) (ring : Fin 64) (cid : Fin 65536) (c : Cmd) (p : Fin 2), Ready s ring cid 0x81 c ∧ c.arg 8 0 1 = p ∧ c.only [(8, 0, 1), (16, 0, 64),
    (24, 0, 48), (32, 0, 32)] = true ∧ c.arg 32 0 32 < 1000000000 ∧ c.user ≠ 0) ∧
  (∃ (s : State) (ring : Fin 64) (cid : Fin 65536) (c : Cmd) (p : Fin 2), Ready s ring cid 0x81 c ∧ c.arg 8 0 1 = p ∧ c.only [(8, 0, 1), (16, 0, 64),
    (24, 0, 48), (32, 0, 32)] = true ∧ c.arg 32 0 32 < 1000000000 ∧ c.user = 0 ∧ ((s.port p).latches.find? (fun l => l.1 == c.arg 16 0 64) = none)) ∧
  (∃ (s : State) (ring : Fin 64) (cid : Fin 65536) (c : Cmd) (p : Fin 2) (l : _), Ready s ring cid 0x81 c ∧ c.arg 8 0 1 = p ∧ c.only [(8, 0, 1), (16,
    0, 64), (24, 0, 48), (32, 0, 32)] = true ∧ c.arg 32 0 32 < 1000000000 ∧ c.user = 0 ∧ ((s.port p).latches.find? (fun l => l.1 == c.arg 16 0 64) =
    some l) ∧ ((s.defect p 4).declared = true)) ∧
  (∃ (s : State) (ring : Fin 64) (cid : Fin 65536) (c : Cmd) (p : Fin 2) (l : _), Ready s ring cid 0x81 c ∧ c.arg 8 0 1 = p ∧ c.only [(8, 0, 1), (16,
    0, 64), (24, 0, 48), (32, 0, 32)] = true ∧ c.arg 32 0 32 < 1000000000 ∧ c.user = 0 ∧ ((s.port p).latches.find? (fun l => l.1 == c.arg 16 0 64) =
    some l) ∧ ((s.defect p 4).declared = false) ∧ s.rg R.TK_STAT_SRC ≠ p + 1) ∧
  (∃ (s : State) (ring : Fin 64) (cid : Fin 65536) (c : Cmd) (p : Fin 2) (l : _) (rtd : Int) (tai : Int), Ready s ring cid 0x81 c ∧ c.arg 8 0 1 = p ∧
    c.only [(8, 0, 1), (16, 0, 64), (24, 0, 48), (32, 0, 32)] = true ∧ c.arg 32 0 32 < 1000000000 ∧ c.user = 0 ∧ ((s.port p).latches.find? (fun l =>
    l.1 == c.arg 16 0 64) = some l) ∧ ((s.defect p 4).declared = false) ∧ s.rg R.TK_STAT_SRC = p + 1 ∧ rtd = (rec32 (s.port p).rec_ 12 : Int) - (s.rg
    R.PON_EQD_EQD p * 1000000 / (s.port p).upKbps : Nat) ∧ tai = (c.arg 24 0 48 * 1000000000 + c.arg 32 0 32 : Nat) + rtd * (rec16 (s.port p).rec_ 6
    : Int) / 65536 + ((s.tk.ns : Int) - l.2)) ∧
  (∃ (s : State) (ring : Fin 64) (cid : Fin 65536) (c : Cmd), Ready s ring cid 0x82 c ∧ c.arg 8 0 1 = 1 ∧ c.only [(8, 0, 1), (16, 0, 64)] = true) ∧
  (∃ (s : State) (ring : Fin 64) (cid : Fin 65536) (c : Cmd), Ready s ring cid 0x89 c ∧ c.only [(8, 0, 16)] = true ∧ (c.arg 8 0 16 < 80 ∨ 340 < c.arg
    8 0 16)) ∧
  (∃ (s : State) (ring : Fin 64) (cid : Fin 65536) (c : Cmd), Ready s ring cid 0x89 c ∧ c.only [(8, 0, 16)] = true ∧ (c.arg 8 0 16 < 80 ∨ 340 < c.arg
    8 0 16)) ∧
  (∃ (s : State) (ring : Fin 64) (cid : Fin 65536) (c : Cmd), Ready s ring cid 0x89 c ∧ c.only [(8, 0, 16)] = true ∧ 80 ≤ c.arg 8 0 16 ∧ c.arg 8 0 16
    ≤ 340 ∧ c.user ≠ 0) ∧
  (∃ (s : State) (ring : Fin 64) (cid : Fin 65536) (c : Cmd), Ready s ring cid 0x89 c ∧ c.only [(8, 0, 16)] = true ∧ 80 ≤ c.arg 8 0 16 ∧ c.arg 8 0 16
    ≤ 340 ∧ c.user = 0) ∧
  (∃ (s : State) (ring : Fin 64) (cid : Fin 65536) (c : Cmd), Ready s ring cid 0x8A c ∧ c.arg 8 0 1 = 1 ∧ c.only [(8, 0, 1), (16, 0, 64)] = true) ∧
  (∃ (s : State) (ring : Fin 64) (cid : Fin 65536) (c : Cmd) (n : Nat), Ready s ring cid 0x90 c ∧ c.arg 16 0 1 = 1 ∧ c.arg 24 0 16 = n ∧ c.only [(8,
    0, 64), (16, 0, 1), (20, 0, 32), (24, 0, 16)] = true ∧ (n = 0 ∨ 1024 < n)) :=
  ⟨⟨fl [(cm 0x62 [(8, 0, 1), (9, 0, 1), (16, 0, 4096)])], 0, 7, (cm 0x62 [(8, 0, 1), (9, 0, 1), (16, 0, 4096)]), 1, by decide +kernel⟩,
   ⟨(fl [(cm 0x80 [(8, 0, 1), (16, 0, 5)])]), 0, 7, (cm 0x80 [(8, 0, 1), (16, 0, 5)]), 1, false, (if (1).testBit 0 then (started ((fl [(cm 0x80 [(8,
     0, 1), (16, 0, 5)])])) ((cm 0x80 [(8, 0, 1), (16, 0, 5)]))).regWrite 0 0x1830 (((cm 0x80 [(8, 0, 1), (16, 0, 5)])).arg 16 0 32) else started
     ((fl [(cm 0x80 [(8, 0, 1), (16, 0, 5)])])) ((cm 0x80 [(8, 0, 1), (16, 0, 5)]))), (if (1).testBit 1 then ((if (1).testBit 0 then (started ((fl
     [(cm 0x80 [(8, 0, 1), (16, 0, 5)])])) ((cm 0x80 [(8, 0, 1), (16, 0, 5)]))).regWrite 0 0x1830 (((cm 0x80 [(8, 0, 1), (16, 0, 5)])).arg 16 0 32)
     else started ((fl [(cm 0x80 [(8, 0, 1), (16, 0, 5)])])) ((cm 0x80 [(8, 0, 1), (16, 0, 5)])))).regWrite 0 0x1834 (((cm 0x80 [(8, 0, 1), (16, 0,
     5)])).arg 20 0 32) else ((if (1).testBit 0 then (started ((fl [(cm 0x80 [(8, 0, 1), (16, 0, 5)])])) ((cm 0x80 [(8, 0, 1), (16, 0,
     5)]))).regWrite 0 0x1830 (((cm 0x80 [(8, 0, 1), (16, 0, 5)])).arg 16 0 32) else started ((fl [(cm 0x80 [(8, 0, 1), (16, 0, 5)])])) ((cm 0x80
     [(8, 0, 1), (16, 0, 5)]))))), (if (1).testBit 2 then ((if (1).testBit 1 then ((if (1).testBit 0 then (started ((fl [(cm 0x80 [(8, 0, 1), (16, 0,
     5)])])) ((cm 0x80 [(8, 0, 1), (16, 0, 5)]))).regWrite 0 0x1830 (((cm 0x80 [(8, 0, 1), (16, 0, 5)])).arg 16 0 32) else started ((fl [(cm 0x80
     [(8, 0, 1), (16, 0, 5)])])) ((cm 0x80 [(8, 0, 1), (16, 0, 5)])))).regWrite 0 0x1834 (((cm 0x80 [(8, 0, 1), (16, 0, 5)])).arg 20 0 32) else ((if
     (1).testBit 0 then (started ((fl [(cm 0x80 [(8, 0, 1), (16, 0, 5)])])) ((cm 0x80 [(8, 0, 1), (16, 0, 5)]))).regWrite 0 0x1830 (((cm 0x80 [(8, 0,
     1), (16, 0, 5)])).arg 16 0 32) else started ((fl [(cm 0x80 [(8, 0, 1), (16, 0, 5)])])) ((cm 0x80 [(8, 0, 1), (16, 0, 5)])))))).regWrite 0 0x1838
     (((cm 0x80 [(8, 0, 1), (16, 0, 5)])).arg 24 0 32) else ((if (1).testBit 1 then ((if (1).testBit 0 then (started ((fl [(cm 0x80 [(8, 0, 1), (16,
     0, 5)])])) ((cm 0x80 [(8, 0, 1), (16, 0, 5)]))).regWrite 0 0x1830 (((cm 0x80 [(8, 0, 1), (16, 0, 5)])).arg 16 0 32) else started ((fl [(cm 0x80
     [(8, 0, 1), (16, 0, 5)])])) ((cm 0x80 [(8, 0, 1), (16, 0, 5)])))).regWrite 0 0x1834 (((cm 0x80 [(8, 0, 1), (16, 0, 5)])).arg 20 0 32) else ((if
     (1).testBit 0 then (started ((fl [(cm 0x80 [(8, 0, 1), (16, 0, 5)])])) ((cm 0x80 [(8, 0, 1), (16, 0, 5)]))).regWrite 0 0x1830 (((cm 0x80 [(8, 0,
     1), (16, 0, 5)])).arg 16 0 32) else started ((fl [(cm 0x80 [(8, 0, 1), (16, 0, 5)])])) ((cm 0x80 [(8, 0, 1), (16, 0, 5)]))))))), (if (1).testBit
     3 then ((if (1).testBit 2 then ((if (1).testBit 1 then ((if (1).testBit 0 then (started ((fl [(cm 0x80 [(8, 0, 1), (16, 0, 5)])])) ((cm 0x80
     [(8, 0, 1), (16, 0, 5)]))).regWrite 0 0x1830 (((cm 0x80 [(8, 0, 1), (16, 0, 5)])).arg 16 0 32) else started ((fl [(cm 0x80 [(8, 0, 1), (16, 0,
     5)])])) ((cm 0x80 [(8, 0, 1), (16, 0, 5)])))).regWrite 0 0x1834 (((cm 0x80 [(8, 0, 1), (16, 0, 5)])).arg 20 0 32) else ((if (1).testBit 0 then
     (started ((fl [(cm 0x80 [(8, 0, 1), (16, 0, 5)])])) ((cm 0x80 [(8, 0, 1), (16, 0, 5)]))).regWrite 0 0x1830 (((cm 0x80 [(8, 0, 1), (16, 0,
     5)])).arg 16 0 32) else started ((fl [(cm 0x80 [(8, 0, 1), (16, 0, 5)])])) ((cm 0x80 [(8, 0, 1), (16, 0, 5)])))))).regWrite 0 0x1838 (((cm 0x80
     [(8, 0, 1), (16, 0, 5)])).arg 24 0 32) else ((if (1).testBit 1 then ((if (1).testBit 0 then (started ((fl [(cm 0x80 [(8, 0, 1), (16, 0, 5)])]))
     ((cm 0x80 [(8, 0, 1), (16, 0, 5)]))).regWrite 0 0x1830 (((cm 0x80 [(8, 0, 1), (16, 0, 5)])).arg 16 0 32) else started ((fl [(cm 0x80 [(8, 0, 1),
     (16, 0, 5)])])) ((cm 0x80 [(8, 0, 1), (16, 0, 5)])))).regWrite 0 0x1834 (((cm 0x80 [(8, 0, 1), (16, 0, 5)])).arg 20 0 32) else ((if (1).testBit
     0 then (started ((fl [(cm 0x80 [(8, 0, 1), (16, 0, 5)])])) ((cm 0x80 [(8, 0, 1), (16, 0, 5)]))).regWrite 0 0x1830 (((cm 0x80 [(8, 0, 1), (16, 0,
     5)])).arg 16 0 32) else started ((fl [(cm 0x80 [(8, 0, 1), (16, 0, 5)])])) ((cm 0x80 [(8, 0, 1), (16, 0, 5)])))))))).regWrite 0 0x183C (((cm
     0x80 [(8, 0, 1), (16, 0, 5)])).arg 28 0 32) else ((if (1).testBit 2 then ((if (1).testBit 1 then ((if (1).testBit 0 then (started ((fl [(cm 0x80
     [(8, 0, 1), (16, 0, 5)])])) ((cm 0x80 [(8, 0, 1), (16, 0, 5)]))).regWrite 0 0x1830 (((cm 0x80 [(8, 0, 1), (16, 0, 5)])).arg 16 0 32) else
     started ((fl [(cm 0x80 [(8, 0, 1), (16, 0, 5)])])) ((cm 0x80 [(8, 0, 1), (16, 0, 5)])))).regWrite 0 0x1834 (((cm 0x80 [(8, 0, 1), (16, 0,
     5)])).arg 20 0 32) else ((if (1).testBit 0 then (started ((fl [(cm 0x80 [(8, 0, 1), (16, 0, 5)])])) ((cm 0x80 [(8, 0, 1), (16, 0,
     5)]))).regWrite 0 0x1830 (((cm 0x80 [(8, 0, 1), (16, 0, 5)])).arg 16 0 32) else started ((fl [(cm 0x80 [(8, 0, 1), (16, 0, 5)])])) ((cm 0x80
     [(8, 0, 1), (16, 0, 5)])))))).regWrite 0 0x1838 (((cm 0x80 [(8, 0, 1), (16, 0, 5)])).arg 24 0 32) else ((if (1).testBit 1 then ((if (1).testBit
     0 then (started ((fl [(cm 0x80 [(8, 0, 1), (16, 0, 5)])])) ((cm 0x80 [(8, 0, 1), (16, 0, 5)]))).regWrite 0 0x1830 (((cm 0x80 [(8, 0, 1), (16, 0,
     5)])).arg 16 0 32) else started ((fl [(cm 0x80 [(8, 0, 1), (16, 0, 5)])])) ((cm 0x80 [(8, 0, 1), (16, 0, 5)])))).regWrite 0 0x1834 (((cm 0x80
     [(8, 0, 1), (16, 0, 5)])).arg 20 0 32) else ((if (1).testBit 0 then (started ((fl [(cm 0x80 [(8, 0, 1), (16, 0, 5)])])) ((cm 0x80 [(8, 0, 1),
     (16, 0, 5)]))).regWrite 0 0x1830 (((cm 0x80 [(8, 0, 1), (16, 0, 5)])).arg 16 0 32) else started ((fl [(cm 0x80 [(8, 0, 1), (16, 0, 5)])])) ((cm
     0x80 [(8, 0, 1), (16, 0, 5)]))))))))), (if (1).testBit 4 then ((if (1).testBit 3 then ((if (1).testBit 2 then ((if (1).testBit 1 then ((if
     (1).testBit 0 then (started ((fl [(cm 0x80 [(8, 0, 1), (16, 0, 5)])])) ((cm 0x80 [(8, 0, 1), (16, 0, 5)]))).regWrite 0 0x1830 (((cm 0x80 [(8, 0,
     1), (16, 0, 5)])).arg 16 0 32) else started ((fl [(cm 0x80 [(8, 0, 1), (16, 0, 5)])])) ((cm 0x80 [(8, 0, 1), (16, 0, 5)])))).regWrite 0 0x1834
     (((cm 0x80 [(8, 0, 1), (16, 0, 5)])).arg 20 0 32) else ((if (1).testBit 0 then (started ((fl [(cm 0x80 [(8, 0, 1), (16, 0, 5)])])) ((cm 0x80
     [(8, 0, 1), (16, 0, 5)]))).regWrite 0 0x1830 (((cm 0x80 [(8, 0, 1), (16, 0, 5)])).arg 16 0 32) else started ((fl [(cm 0x80 [(8, 0, 1), (16, 0,
     5)])])) ((cm 0x80 [(8, 0, 1), (16, 0, 5)])))))).regWrite 0 0x1838 (((cm 0x80 [(8, 0, 1), (16, 0, 5)])).arg 24 0 32) else ((if (1).testBit 1 then
     ((if (1).testBit 0 then (started ((fl [(cm 0x80 [(8, 0, 1), (16, 0, 5)])])) ((cm 0x80 [(8, 0, 1), (16, 0, 5)]))).regWrite 0 0x1830 (((cm 0x80
     [(8, 0, 1), (16, 0, 5)])).arg 16 0 32) else started ((fl [(cm 0x80 [(8, 0, 1), (16, 0, 5)])])) ((cm 0x80 [(8, 0, 1), (16, 0, 5)])))).regWrite 0
     0x1834 (((cm 0x80 [(8, 0, 1), (16, 0, 5)])).arg 20 0 32) else ((if (1).testBit 0 then (started ((fl [(cm 0x80 [(8, 0, 1), (16, 0, 5)])])) ((cm
     0x80 [(8, 0, 1), (16, 0, 5)]))).regWrite 0 0x1830 (((cm 0x80 [(8, 0, 1), (16, 0, 5)])).arg 16 0 32) else started ((fl [(cm 0x80 [(8, 0, 1), (16,
     0, 5)])])) ((cm 0x80 [(8, 0, 1), (16, 0, 5)])))))))).regWrite 0 0x183C (((cm 0x80 [(8, 0, 1), (16, 0, 5)])).arg 28 0 32) else ((if (1).testBit 2
     then ((if (1).testBit 1 then ((if (1).testBit 0 then (started ((fl [(cm 0x80 [(8, 0, 1), (16, 0, 5)])])) ((cm 0x80 [(8, 0, 1), (16, 0,
     5)]))).regWrite 0 0x1830 (((cm 0x80 [(8, 0, 1), (16, 0, 5)])).arg 16 0 32) else started ((fl [(cm 0x80 [(8, 0, 1), (16, 0, 5)])])) ((cm 0x80
     [(8, 0, 1), (16, 0, 5)])))).regWrite 0 0x1834 (((cm 0x80 [(8, 0, 1), (16, 0, 5)])).arg 20 0 32) else ((if (1).testBit 0 then (started ((fl [(cm
     0x80 [(8, 0, 1), (16, 0, 5)])])) ((cm 0x80 [(8, 0, 1), (16, 0, 5)]))).regWrite 0 0x1830 (((cm 0x80 [(8, 0, 1), (16, 0, 5)])).arg 16 0 32) else
     started ((fl [(cm 0x80 [(8, 0, 1), (16, 0, 5)])])) ((cm 0x80 [(8, 0, 1), (16, 0, 5)])))))).regWrite 0 0x1838 (((cm 0x80 [(8, 0, 1), (16, 0,
     5)])).arg 24 0 32) else ((if (1).testBit 1 then ((if (1).testBit 0 then (started ((fl [(cm 0x80 [(8, 0, 1), (16, 0, 5)])])) ((cm 0x80 [(8, 0,
     1), (16, 0, 5)]))).regWrite 0 0x1830 (((cm 0x80 [(8, 0, 1), (16, 0, 5)])).arg 16 0 32) else started ((fl [(cm 0x80 [(8, 0, 1), (16, 0, 5)])]))
     ((cm 0x80 [(8, 0, 1), (16, 0, 5)])))).regWrite 0 0x1834 (((cm 0x80 [(8, 0, 1), (16, 0, 5)])).arg 20 0 32) else ((if (1).testBit 0 then (started
     ((fl [(cm 0x80 [(8, 0, 1), (16, 0, 5)])])) ((cm 0x80 [(8, 0, 1), (16, 0, 5)]))).regWrite 0 0x1830 (((cm 0x80 [(8, 0, 1), (16, 0, 5)])).arg 16 0
     32) else started ((fl [(cm 0x80 [(8, 0, 1), (16, 0, 5)])])) ((cm 0x80 [(8, 0, 1), (16, 0, 5)])))))))))).regWrite 0 0x1820 (((cm 0x80 [(8, 0, 1),
     (16, 0, 5)])).arg 32 0 64) else ((if (1).testBit 3 then ((if (1).testBit 2 then ((if (1).testBit 1 then ((if (1).testBit 0 then (started ((fl
     [(cm 0x80 [(8, 0, 1), (16, 0, 5)])])) ((cm 0x80 [(8, 0, 1), (16, 0, 5)]))).regWrite 0 0x1830 (((cm 0x80 [(8, 0, 1), (16, 0, 5)])).arg 16 0 32)
     else started ((fl [(cm 0x80 [(8, 0, 1), (16, 0, 5)])])) ((cm 0x80 [(8, 0, 1), (16, 0, 5)])))).regWrite 0 0x1834 (((cm 0x80 [(8, 0, 1), (16, 0,
     5)])).arg 20 0 32) else ((if (1).testBit 0 then (started ((fl [(cm 0x80 [(8, 0, 1), (16, 0, 5)])])) ((cm 0x80 [(8, 0, 1), (16, 0,
     5)]))).regWrite 0 0x1830 (((cm 0x80 [(8, 0, 1), (16, 0, 5)])).arg 16 0 32) else started ((fl [(cm 0x80 [(8, 0, 1), (16, 0, 5)])])) ((cm 0x80
     [(8, 0, 1), (16, 0, 5)])))))).regWrite 0 0x1838 (((cm 0x80 [(8, 0, 1), (16, 0, 5)])).arg 24 0 32) else ((if (1).testBit 1 then ((if (1).testBit
     0 then (started ((fl [(cm 0x80 [(8, 0, 1), (16, 0, 5)])])) ((cm 0x80 [(8, 0, 1), (16, 0, 5)]))).regWrite 0 0x1830 (((cm 0x80 [(8, 0, 1), (16, 0,
     5)])).arg 16 0 32) else started ((fl [(cm 0x80 [(8, 0, 1), (16, 0, 5)])])) ((cm 0x80 [(8, 0, 1), (16, 0, 5)])))).regWrite 0 0x1834 (((cm 0x80
     [(8, 0, 1), (16, 0, 5)])).arg 20 0 32) else ((if (1).testBit 0 then (started ((fl [(cm 0x80 [(8, 0, 1), (16, 0, 5)])])) ((cm 0x80 [(8, 0, 1),
     (16, 0, 5)]))).regWrite 0 0x1830 (((cm 0x80 [(8, 0, 1), (16, 0, 5)])).arg 16 0 32) else started ((fl [(cm 0x80 [(8, 0, 1), (16, 0, 5)])])) ((cm
     0x80 [(8, 0, 1), (16, 0, 5)])))))))).regWrite 0 0x183C (((cm 0x80 [(8, 0, 1), (16, 0, 5)])).arg 28 0 32) else ((if (1).testBit 2 then ((if
     (1).testBit 1 then ((if (1).testBit 0 then (started ((fl [(cm 0x80 [(8, 0, 1), (16, 0, 5)])])) ((cm 0x80 [(8, 0, 1), (16, 0, 5)]))).regWrite 0
     0x1830 (((cm 0x80 [(8, 0, 1), (16, 0, 5)])).arg 16 0 32) else started ((fl [(cm 0x80 [(8, 0, 1), (16, 0, 5)])])) ((cm 0x80 [(8, 0, 1), (16, 0,
     5)])))).regWrite 0 0x1834 (((cm 0x80 [(8, 0, 1), (16, 0, 5)])).arg 20 0 32) else ((if (1).testBit 0 then (started ((fl [(cm 0x80 [(8, 0, 1),
     (16, 0, 5)])])) ((cm 0x80 [(8, 0, 1), (16, 0, 5)]))).regWrite 0 0x1830 (((cm 0x80 [(8, 0, 1), (16, 0, 5)])).arg 16 0 32) else started ((fl [(cm
     0x80 [(8, 0, 1), (16, 0, 5)])])) ((cm 0x80 [(8, 0, 1), (16, 0, 5)])))))).regWrite 0 0x1838 (((cm 0x80 [(8, 0, 1), (16, 0, 5)])).arg 24 0 32)
     else ((if (1).testBit 1 then ((if (1).testBit 0 then (started ((fl [(cm 0x80 [(8, 0, 1), (16, 0, 5)])])) ((cm 0x80 [(8, 0, 1), (16, 0,
     5)]))).regWrite 0 0x1830 (((cm 0x80 [(8, 0, 1), (16, 0, 5)])).arg 16 0 32) else started ((fl [(cm 0x80 [(8, 0, 1), (16, 0, 5)])])) ((cm 0x80
     [(8, 0, 1), (16, 0, 5)])))).regWrite 0 0x1834 (((cm 0x80 [(8, 0, 1), (16, 0, 5)])).arg 20 0 32) else ((if (1).testBit 0 then (started ((fl [(cm
     0x80 [(8, 0, 1), (16, 0, 5)])])) ((cm 0x80 [(8, 0, 1), (16, 0, 5)]))).regWrite 0 0x1830 (((cm 0x80 [(8, 0, 1), (16, 0, 5)])).arg 16 0 32) else
     started ((fl [(cm 0x80 [(8, 0, 1), (16, 0, 5)])])) ((cm 0x80 [(8, 0, 1), (16, 0, 5)]))))))))))), inv_of (by decide +kernel) (by decide +kernel),
     ⟨by decide +kernel, by decide +kernel, by decide +kernel, by decide +kernel, rfl, rfl, rfl, rfl, rfl, by decide +kernel⟩⟩,
   ⟨(fl [(cm 0x80 [(8, 0, 4), (24, 26, 1)])]), 0, 7, (cm 0x80 [(8, 0, 4), (24, 26, 1)]), 4, false, (if (4).testBit 0 then (started ((fl [(cm 0x80
     [(8, 0, 4), (24, 26, 1)])])) ((cm 0x80 [(8, 0, 4), (24, 26, 1)]))).regWrite 0 0x1830 (((cm 0x80 [(8, 0, 4), (24, 26, 1)])).arg 16 0 32) else
     started ((fl [(cm 0x80 [(8, 0, 4), (24, 26, 1)])])) ((cm 0x80 [(8, 0, 4), (24, 26, 1)]))), (if (4).testBit 1 then ((if (4).testBit 0 then
     (started ((fl [(cm 0x80 [(8, 0, 4), (24, 26, 1)])])) ((cm 0x80 [(8, 0, 4), (24, 26, 1)]))).regWrite 0 0x1830 (((cm 0x80 [(8, 0, 4), (24, 26,
     1)])).arg 16 0 32) else started ((fl [(cm 0x80 [(8, 0, 4), (24, 26, 1)])])) ((cm 0x80 [(8, 0, 4), (24, 26, 1)])))).regWrite 0 0x1834 (((cm 0x80
     [(8, 0, 4), (24, 26, 1)])).arg 20 0 32) else ((if (4).testBit 0 then (started ((fl [(cm 0x80 [(8, 0, 4), (24, 26, 1)])])) ((cm 0x80 [(8, 0, 4),
     (24, 26, 1)]))).regWrite 0 0x1830 (((cm 0x80 [(8, 0, 4), (24, 26, 1)])).arg 16 0 32) else started ((fl [(cm 0x80 [(8, 0, 4), (24, 26, 1)])]))
     ((cm 0x80 [(8, 0, 4), (24, 26, 1)]))))), (if (4).testBit 2 then ((if (4).testBit 1 then ((if (4).testBit 0 then (started ((fl [(cm 0x80 [(8, 0,
     4), (24, 26, 1)])])) ((cm 0x80 [(8, 0, 4), (24, 26, 1)]))).regWrite 0 0x1830 (((cm 0x80 [(8, 0, 4), (24, 26, 1)])).arg 16 0 32) else started
     ((fl [(cm 0x80 [(8, 0, 4), (24, 26, 1)])])) ((cm 0x80 [(8, 0, 4), (24, 26, 1)])))).regWrite 0 0x1834 (((cm 0x80 [(8, 0, 4), (24, 26, 1)])).arg
     20 0 32) else ((if (4).testBit 0 then (started ((fl [(cm 0x80 [(8, 0, 4), (24, 26, 1)])])) ((cm 0x80 [(8, 0, 4), (24, 26, 1)]))).regWrite 0
     0x1830 (((cm 0x80 [(8, 0, 4), (24, 26, 1)])).arg 16 0 32) else started ((fl [(cm 0x80 [(8, 0, 4), (24, 26, 1)])])) ((cm 0x80 [(8, 0, 4), (24,
     26, 1)])))))).regWrite 0 0x1838 (((cm 0x80 [(8, 0, 4), (24, 26, 1)])).arg 24 0 32) else ((if (4).testBit 1 then ((if (4).testBit 0 then (started
     ((fl [(cm 0x80 [(8, 0, 4), (24, 26, 1)])])) ((cm 0x80 [(8, 0, 4), (24, 26, 1)]))).regWrite 0 0x1830 (((cm 0x80 [(8, 0, 4), (24, 26, 1)])).arg 16
     0 32) else started ((fl [(cm 0x80 [(8, 0, 4), (24, 26, 1)])])) ((cm 0x80 [(8, 0, 4), (24, 26, 1)])))).regWrite 0 0x1834 (((cm 0x80 [(8, 0, 4),
     (24, 26, 1)])).arg 20 0 32) else ((if (4).testBit 0 then (started ((fl [(cm 0x80 [(8, 0, 4), (24, 26, 1)])])) ((cm 0x80 [(8, 0, 4), (24, 26,
     1)]))).regWrite 0 0x1830 (((cm 0x80 [(8, 0, 4), (24, 26, 1)])).arg 16 0 32) else started ((fl [(cm 0x80 [(8, 0, 4), (24, 26, 1)])])) ((cm 0x80
     [(8, 0, 4), (24, 26, 1)]))))))), (if (4).testBit 3 then ((if (4).testBit 2 then ((if (4).testBit 1 then ((if (4).testBit 0 then (started ((fl
     [(cm 0x80 [(8, 0, 4), (24, 26, 1)])])) ((cm 0x80 [(8, 0, 4), (24, 26, 1)]))).regWrite 0 0x1830 (((cm 0x80 [(8, 0, 4), (24, 26, 1)])).arg 16 0
     32) else started ((fl [(cm 0x80 [(8, 0, 4), (24, 26, 1)])])) ((cm 0x80 [(8, 0, 4), (24, 26, 1)])))).regWrite 0 0x1834 (((cm 0x80 [(8, 0, 4),
     (24, 26, 1)])).arg 20 0 32) else ((if (4).testBit 0 then (started ((fl [(cm 0x80 [(8, 0, 4), (24, 26, 1)])])) ((cm 0x80 [(8, 0, 4), (24, 26,
     1)]))).regWrite 0 0x1830 (((cm 0x80 [(8, 0, 4), (24, 26, 1)])).arg 16 0 32) else started ((fl [(cm 0x80 [(8, 0, 4), (24, 26, 1)])])) ((cm 0x80
     [(8, 0, 4), (24, 26, 1)])))))).regWrite 0 0x1838 (((cm 0x80 [(8, 0, 4), (24, 26, 1)])).arg 24 0 32) else ((if (4).testBit 1 then ((if
     (4).testBit 0 then (started ((fl [(cm 0x80 [(8, 0, 4), (24, 26, 1)])])) ((cm 0x80 [(8, 0, 4), (24, 26, 1)]))).regWrite 0 0x1830 (((cm 0x80 [(8,
     0, 4), (24, 26, 1)])).arg 16 0 32) else started ((fl [(cm 0x80 [(8, 0, 4), (24, 26, 1)])])) ((cm 0x80 [(8, 0, 4), (24, 26, 1)])))).regWrite 0
     0x1834 (((cm 0x80 [(8, 0, 4), (24, 26, 1)])).arg 20 0 32) else ((if (4).testBit 0 then (started ((fl [(cm 0x80 [(8, 0, 4), (24, 26, 1)])])) ((cm
     0x80 [(8, 0, 4), (24, 26, 1)]))).regWrite 0 0x1830 (((cm 0x80 [(8, 0, 4), (24, 26, 1)])).arg 16 0 32) else started ((fl [(cm 0x80 [(8, 0, 4),
     (24, 26, 1)])])) ((cm 0x80 [(8, 0, 4), (24, 26, 1)])))))))).regWrite 0 0x183C (((cm 0x80 [(8, 0, 4), (24, 26, 1)])).arg 28 0 32) else ((if
     (4).testBit 2 then ((if (4).testBit 1 then ((if (4).testBit 0 then (started ((fl [(cm 0x80 [(8, 0, 4), (24, 26, 1)])])) ((cm 0x80 [(8, 0, 4),
     (24, 26, 1)]))).regWrite 0 0x1830 (((cm 0x80 [(8, 0, 4), (24, 26, 1)])).arg 16 0 32) else started ((fl [(cm 0x80 [(8, 0, 4), (24, 26, 1)])]))
     ((cm 0x80 [(8, 0, 4), (24, 26, 1)])))).regWrite 0 0x1834 (((cm 0x80 [(8, 0, 4), (24, 26, 1)])).arg 20 0 32) else ((if (4).testBit 0 then
     (started ((fl [(cm 0x80 [(8, 0, 4), (24, 26, 1)])])) ((cm 0x80 [(8, 0, 4), (24, 26, 1)]))).regWrite 0 0x1830 (((cm 0x80 [(8, 0, 4), (24, 26,
     1)])).arg 16 0 32) else started ((fl [(cm 0x80 [(8, 0, 4), (24, 26, 1)])])) ((cm 0x80 [(8, 0, 4), (24, 26, 1)])))))).regWrite 0 0x1838 (((cm
     0x80 [(8, 0, 4), (24, 26, 1)])).arg 24 0 32) else ((if (4).testBit 1 then ((if (4).testBit 0 then (started ((fl [(cm 0x80 [(8, 0, 4), (24, 26,
     1)])])) ((cm 0x80 [(8, 0, 4), (24, 26, 1)]))).regWrite 0 0x1830 (((cm 0x80 [(8, 0, 4), (24, 26, 1)])).arg 16 0 32) else started ((fl [(cm 0x80
     [(8, 0, 4), (24, 26, 1)])])) ((cm 0x80 [(8, 0, 4), (24, 26, 1)])))).regWrite 0 0x1834 (((cm 0x80 [(8, 0, 4), (24, 26, 1)])).arg 20 0 32) else
     ((if (4).testBit 0 then (started ((fl [(cm 0x80 [(8, 0, 4), (24, 26, 1)])])) ((cm 0x80 [(8, 0, 4), (24, 26, 1)]))).regWrite 0 0x1830 (((cm 0x80
     [(8, 0, 4), (24, 26, 1)])).arg 16 0 32) else started ((fl [(cm 0x80 [(8, 0, 4), (24, 26, 1)])])) ((cm 0x80 [(8, 0, 4), (24, 26, 1)]))))))))),
     (if (4).testBit 4 then ((if (4).testBit 3 then ((if (4).testBit 2 then ((if (4).testBit 1 then ((if (4).testBit 0 then (started ((fl [(cm 0x80
     [(8, 0, 4), (24, 26, 1)])])) ((cm 0x80 [(8, 0, 4), (24, 26, 1)]))).regWrite 0 0x1830 (((cm 0x80 [(8, 0, 4), (24, 26, 1)])).arg 16 0 32) else
     started ((fl [(cm 0x80 [(8, 0, 4), (24, 26, 1)])])) ((cm 0x80 [(8, 0, 4), (24, 26, 1)])))).regWrite 0 0x1834 (((cm 0x80 [(8, 0, 4), (24, 26,
     1)])).arg 20 0 32) else ((if (4).testBit 0 then (started ((fl [(cm 0x80 [(8, 0, 4), (24, 26, 1)])])) ((cm 0x80 [(8, 0, 4), (24, 26,
     1)]))).regWrite 0 0x1830 (((cm 0x80 [(8, 0, 4), (24, 26, 1)])).arg 16 0 32) else started ((fl [(cm 0x80 [(8, 0, 4), (24, 26, 1)])])) ((cm 0x80
     [(8, 0, 4), (24, 26, 1)])))))).regWrite 0 0x1838 (((cm 0x80 [(8, 0, 4), (24, 26, 1)])).arg 24 0 32) else ((if (4).testBit 1 then ((if
     (4).testBit 0 then (started ((fl [(cm 0x80 [(8, 0, 4), (24, 26, 1)])])) ((cm 0x80 [(8, 0, 4), (24, 26, 1)]))).regWrite 0 0x1830 (((cm 0x80 [(8,
     0, 4), (24, 26, 1)])).arg 16 0 32) else started ((fl [(cm 0x80 [(8, 0, 4), (24, 26, 1)])])) ((cm 0x80 [(8, 0, 4), (24, 26, 1)])))).regWrite 0
     0x1834 (((cm 0x80 [(8, 0, 4), (24, 26, 1)])).arg 20 0 32) else ((if (4).testBit 0 then (started ((fl [(cm 0x80 [(8, 0, 4), (24, 26, 1)])])) ((cm
     0x80 [(8, 0, 4), (24, 26, 1)]))).regWrite 0 0x1830 (((cm 0x80 [(8, 0, 4), (24, 26, 1)])).arg 16 0 32) else started ((fl [(cm 0x80 [(8, 0, 4),
     (24, 26, 1)])])) ((cm 0x80 [(8, 0, 4), (24, 26, 1)])))))))).regWrite 0 0x183C (((cm 0x80 [(8, 0, 4), (24, 26, 1)])).arg 28 0 32) else ((if
     (4).testBit 2 then ((if (4).testBit 1 then ((if (4).testBit 0 then (started ((fl [(cm 0x80 [(8, 0, 4), (24, 26, 1)])])) ((cm 0x80 [(8, 0, 4),
     (24, 26, 1)]))).regWrite 0 0x1830 (((cm 0x80 [(8, 0, 4), (24, 26, 1)])).arg 16 0 32) else started ((fl [(cm 0x80 [(8, 0, 4), (24, 26, 1)])]))
     ((cm 0x80 [(8, 0, 4), (24, 26, 1)])))).regWrite 0 0x1834 (((cm 0x80 [(8, 0, 4), (24, 26, 1)])).arg 20 0 32) else ((if (4).testBit 0 then
     (started ((fl [(cm 0x80 [(8, 0, 4), (24, 26, 1)])])) ((cm 0x80 [(8, 0, 4), (24, 26, 1)]))).regWrite 0 0x1830 (((cm 0x80 [(8, 0, 4), (24, 26,
     1)])).arg 16 0 32) else started ((fl [(cm 0x80 [(8, 0, 4), (24, 26, 1)])])) ((cm 0x80 [(8, 0, 4), (24, 26, 1)])))))).regWrite 0 0x1838 (((cm
     0x80 [(8, 0, 4), (24, 26, 1)])).arg 24 0 32) else ((if (4).testBit 1 then ((if (4).testBit 0 then (started ((fl [(cm 0x80 [(8, 0, 4), (24, 26,
     1)])])) ((cm 0x80 [(8, 0, 4), (24, 26, 1)]))).regWrite 0 0x1830 (((cm 0x80 [(8, 0, 4), (24, 26, 1)])).arg 16 0 32) else started ((fl [(cm 0x80
     [(8, 0, 4), (24, 26, 1)])])) ((cm 0x80 [(8, 0, 4), (24, 26, 1)])))).regWrite 0 0x1834 (((cm 0x80 [(8, 0, 4), (24, 26, 1)])).arg 20 0 32) else
     ((if (4).testBit 0 then (started ((fl [(cm 0x80 [(8, 0, 4), (24, 26, 1)])])) ((cm 0x80 [(8, 0, 4), (24, 26, 1)]))).regWrite 0 0x1830 (((cm 0x80
     [(8, 0, 4), (24, 26, 1)])).arg 16 0 32) else started ((fl [(cm 0x80 [(8, 0, 4), (24, 26, 1)])])) ((cm 0x80 [(8, 0, 4), (24, 26,
     1)])))))))))).regWrite 0 0x1820 (((cm 0x80 [(8, 0, 4), (24, 26, 1)])).arg 32 0 64) else ((if (4).testBit 3 then ((if (4).testBit 2 then ((if
     (4).testBit 1 then ((if (4).testBit 0 then (started ((fl [(cm 0x80 [(8, 0, 4), (24, 26, 1)])])) ((cm 0x80 [(8, 0, 4), (24, 26, 1)]))).regWrite 0
     0x1830 (((cm 0x80 [(8, 0, 4), (24, 26, 1)])).arg 16 0 32) else started ((fl [(cm 0x80 [(8, 0, 4), (24, 26, 1)])])) ((cm 0x80 [(8, 0, 4), (24,
     26, 1)])))).regWrite 0 0x1834 (((cm 0x80 [(8, 0, 4), (24, 26, 1)])).arg 20 0 32) else ((if (4).testBit 0 then (started ((fl [(cm 0x80 [(8, 0,
     4), (24, 26, 1)])])) ((cm 0x80 [(8, 0, 4), (24, 26, 1)]))).regWrite 0 0x1830 (((cm 0x80 [(8, 0, 4), (24, 26, 1)])).arg 16 0 32) else started
     ((fl [(cm 0x80 [(8, 0, 4), (24, 26, 1)])])) ((cm 0x80 [(8, 0, 4), (24, 26, 1)])))))).regWrite 0 0x1838 (((cm 0x80 [(8, 0, 4), (24, 26, 1)])).arg
     24 0 32) else ((if (4).testBit 1 then ((if (4).testBit 0 then (started ((fl [(cm 0x80 [(8, 0, 4), (24, 26, 1)])])) ((cm 0x80 [(8, 0, 4), (24,
     26, 1)]))).regWrite 0 0x1830 (((cm 0x80 [(8, 0, 4), (24, 26, 1)])).arg 16 0 32) else started ((fl [(cm 0x80 [(8, 0, 4), (24, 26, 1)])])) ((cm
     0x80 [(8, 0, 4), (24, 26, 1)])))).regWrite 0 0x1834 (((cm 0x80 [(8, 0, 4), (24, 26, 1)])).arg 20 0 32) else ((if (4).testBit 0 then (started
     ((fl [(cm 0x80 [(8, 0, 4), (24, 26, 1)])])) ((cm 0x80 [(8, 0, 4), (24, 26, 1)]))).regWrite 0 0x1830 (((cm 0x80 [(8, 0, 4), (24, 26, 1)])).arg 16
     0 32) else started ((fl [(cm 0x80 [(8, 0, 4), (24, 26, 1)])])) ((cm 0x80 [(8, 0, 4), (24, 26, 1)])))))))).regWrite 0 0x183C (((cm 0x80 [(8, 0,
     4), (24, 26, 1)])).arg 28 0 32) else ((if (4).testBit 2 then ((if (4).testBit 1 then ((if (4).testBit 0 then (started ((fl [(cm 0x80 [(8, 0, 4),
     (24, 26, 1)])])) ((cm 0x80 [(8, 0, 4), (24, 26, 1)]))).regWrite 0 0x1830 (((cm 0x80 [(8, 0, 4), (24, 26, 1)])).arg 16 0 32) else started ((fl
     [(cm 0x80 [(8, 0, 4), (24, 26, 1)])])) ((cm 0x80 [(8, 0, 4), (24, 26, 1)])))).regWrite 0 0x1834 (((cm 0x80 [(8, 0, 4), (24, 26, 1)])).arg 20 0
     32) else ((if (4).testBit 0 then (started ((fl [(cm 0x80 [(8, 0, 4), (24, 26, 1)])])) ((cm 0x80 [(8, 0, 4), (24, 26, 1)]))).regWrite 0 0x1830
     (((cm 0x80 [(8, 0, 4), (24, 26, 1)])).arg 16 0 32) else started ((fl [(cm 0x80 [(8, 0, 4), (24, 26, 1)])])) ((cm 0x80 [(8, 0, 4), (24, 26,
     1)])))))).regWrite 0 0x1838 (((cm 0x80 [(8, 0, 4), (24, 26, 1)])).arg 24 0 32) else ((if (4).testBit 1 then ((if (4).testBit 0 then (started
     ((fl [(cm 0x80 [(8, 0, 4), (24, 26, 1)])])) ((cm 0x80 [(8, 0, 4), (24, 26, 1)]))).regWrite 0 0x1830 (((cm 0x80 [(8, 0, 4), (24, 26, 1)])).arg 16
     0 32) else started ((fl [(cm 0x80 [(8, 0, 4), (24, 26, 1)])])) ((cm 0x80 [(8, 0, 4), (24, 26, 1)])))).regWrite 0 0x1834 (((cm 0x80 [(8, 0, 4),
     (24, 26, 1)])).arg 20 0 32) else ((if (4).testBit 0 then (started ((fl [(cm 0x80 [(8, 0, 4), (24, 26, 1)])])) ((cm 0x80 [(8, 0, 4), (24, 26,
     1)]))).regWrite 0 0x1830 (((cm 0x80 [(8, 0, 4), (24, 26, 1)])).arg 16 0 32) else started ((fl [(cm 0x80 [(8, 0, 4), (24, 26, 1)])])) ((cm 0x80
     [(8, 0, 4), (24, 26, 1)]))))))))))), inv_of (by decide +kernel) (by decide +kernel),
     ⟨by decide +kernel, by decide +kernel, by decide +kernel, by decide +kernel, rfl, rfl, rfl, rfl, rfl, by decide +kernel⟩⟩,
   ⟨(fl [(cm 0x80 [(8, 0, 16), (32, 0, 1)])] (car { active := true })), 0, 7, (cm 0x80 [(8, 0, 16), (32, 0, 1)]), 16, true,
     (if (16).testBit 0 then (started ((fl [(cm 0x80 [(8, 0, 16), (32, 0, 1)])] (car { active := true }))) ((cm 0x80 [(8, 0, 16), (32, 0, 1)]))).regWrite 0 0x1830 (((cm 0x80 [(8, 0, 16), (32, 0, 1)])).arg 16 0 32) else started ((fl [(cm 0x80 [(8, 0, 16), (32, 0, 1)])] (car { active := true }))) ((cm 0x80 [(8, 0, 16), (32, 0, 1)]))),
     (if (16).testBit 1 then ((if (16).testBit 0 then (started ((fl [(cm 0x80 [(8, 0, 16), (32, 0, 1)])] (car { active := true }))) ((cm 0x80 [(8, 0, 16), (32, 0, 1)]))).regWrite 0 0x1830 (((cm 0x80 [(8, 0, 16), (32, 0, 1)])).arg 16 0 32) else started ((fl [(cm 0x80 [(8, 0, 16), (32, 0, 1)])] (car { active := true }))) ((cm 0x80 [(8, 0, 16), (32, 0, 1)])))).regWrite 0 0x1834 (((cm 0x80 [(8, 0, 16), (32, 0, 1)])).arg 20 0 32) else ((if (16).testBit 0 then (started ((fl [(cm 0x80 [(8, 0, 16), (32, 0, 1)])] (car { active := true }))) ((cm 0x80 [(8, 0, 16), (32, 0, 1)]))).regWrite 0 0x1830 (((cm 0x80 [(8, 0, 16), (32, 0, 1)])).arg 16 0 32) else started ((fl [(cm 0x80 [(8, 0, 16), (32, 0, 1)])] (car { active := true }))) ((cm 0x80 [(8, 0, 16), (32, 0, 1)]))))),
     (if (16).testBit 2 then ((if (16).testBit 1 then ((if (16).testBit 0 then (started ((fl [(cm 0x80 [(8, 0, 16), (32, 0, 1)])] (car { active := true }))) ((cm 0x80 [(8, 0, 16), (32, 0, 1)]))).regWrite 0 0x1830 (((cm 0x80 [(8, 0, 16), (32, 0, 1)])).arg 16 0 32) else started ((fl [(cm 0x80 [(8, 0, 16), (32, 0, 1)])] (car { active := true }))) ((cm 0x80 [(8, 0, 16), (32, 0, 1)])))).regWrite 0 0x1834 (((cm 0x80 [(8, 0, 16), (32, 0, 1)])).arg 20 0 32) else ((if (16).testBit 0 then (started ((fl [(cm 0x80 [(8, 0, 16), (32, 0, 1)])] (car { active := true }))) ((cm 0x80 [(8, 0, 16), (32, 0, 1)]))).regWrite 0 0x1830 (((cm 0x80 [(8, 0, 16), (32, 0, 1)])).arg 16 0 32) else started ((fl [(cm 0x80 [(8, 0, 16), (32, 0, 1)])] (car { active := true }))) ((cm 0x80 [(8, 0, 16), (32, 0, 1)])))))).regWrite 0 0x1838 (((cm 0x80 [(8, 0, 16), (32, 0, 1)])).arg 24 0 32) else ((if (16).testBit 1 then ((if (16).testBit 0 then (started ((fl [(cm 0x80 [(8, 0, 16), (32, 0, 1)])] (car { active := true }))) ((cm 0x80 [(8, 0, 16), (32, 0, 1)]))).regWrite 0 0x1830 (((cm 0x80 [(8, 0, 16), (32, 0, 1)])).arg 16 0 32) else started ((fl [(cm 0x80 [(8, 0, 16), (32, 0, 1)])] (car { active := true }))) ((cm 0x80 [(8, 0, 16), (32, 0, 1)])))).regWrite 0 0x1834 (((cm 0x80 [(8, 0, 16), (32, 0, 1)])).arg 20 0 32) else ((if (16).testBit 0 then (started ((fl [(cm 0x80 [(8, 0, 16), (32, 0, 1)])] (car { active := true }))) ((cm 0x80 [(8, 0, 16), (32, 0, 1)]))).regWrite 0 0x1830 (((cm 0x80 [(8, 0, 16), (32, 0, 1)])).arg 16 0 32) else started ((fl [(cm 0x80 [(8, 0, 16), (32, 0, 1)])] (car { active := true }))) ((cm 0x80 [(8, 0, 16), (32, 0, 1)]))))))),
     (if (16).testBit 3 then ((if (16).testBit 2 then ((if (16).testBit 1 then ((if (16).testBit 0 then (started ((fl [(cm 0x80 [(8, 0, 16), (32, 0, 1)])] (car { active := true }))) ((cm 0x80 [(8, 0, 16), (32, 0, 1)]))).regWrite 0 0x1830 (((cm 0x80 [(8, 0, 16), (32, 0, 1)])).arg 16 0 32) else started ((fl [(cm 0x80 [(8, 0, 16), (32, 0, 1)])] (car { active := true }))) ((cm 0x80 [(8, 0, 16), (32, 0, 1)])))).regWrite 0 0x1834 (((cm 0x80 [(8, 0, 16), (32, 0, 1)])).arg 20 0 32) else ((if (16).testBit 0 then (started ((fl [(cm 0x80 [(8, 0, 16), (32, 0, 1)])] (car { active := true }))) ((cm 0x80 [(8, 0, 16), (32, 0, 1)]))).regWrite 0 0x1830 (((cm 0x80 [(8, 0, 16), (32, 0, 1)])).arg 16 0 32) else started ((fl [(cm 0x80 [(8, 0, 16), (32, 0, 1)])] (car { active := true }))) ((cm 0x80 [(8, 0, 16), (32, 0, 1)])))))).regWrite 0 0x1838 (((cm 0x80 [(8, 0, 16), (32, 0, 1)])).arg 24 0 32) else ((if (16).testBit 1 then ((if (16).testBit 0 then (started ((fl [(cm 0x80 [(8, 0, 16), (32, 0, 1)])] (car { active := true }))) ((cm 0x80 [(8, 0, 16), (32, 0, 1)]))).regWrite 0 0x1830 (((cm 0x80 [(8, 0, 16), (32, 0, 1)])).arg 16 0 32) else started ((fl [(cm 0x80 [(8, 0, 16), (32, 0, 1)])] (car { active := true }))) ((cm 0x80 [(8, 0, 16), (32, 0, 1)])))).regWrite 0 0x1834 (((cm 0x80 [(8, 0, 16), (32, 0, 1)])).arg 20 0 32) else ((if (16).testBit 0 then (started ((fl [(cm 0x80 [(8, 0, 16), (32, 0, 1)])] (car { active := true }))) ((cm 0x80 [(8, 0, 16), (32, 0, 1)]))).regWrite 0 0x1830 (((cm 0x80 [(8, 0, 16), (32, 0, 1)])).arg 16 0 32) else started ((fl [(cm 0x80 [(8, 0, 16), (32, 0, 1)])] (car { active := true }))) ((cm 0x80 [(8, 0, 16), (32, 0, 1)])))))))).regWrite 0 0x183C (((cm 0x80 [(8, 0, 16), (32, 0, 1)])).arg 28 0 32) else ((if (16).testBit 2 then ((if (16).testBit 1 then ((if (16).testBit 0 then (started ((fl [(cm 0x80 [(8, 0, 16), (32, 0, 1)])] (car { active := true }))) ((cm 0x80 [(8, 0, 16), (32, 0, 1)]))).regWrite 0 0x1830 (((cm 0x80 [(8, 0, 16), (32, 0, 1)])).arg 16 0 32) else started ((fl [(cm 0x80 [(8, 0, 16), (32, 0, 1)])] (car { active := true }))) ((cm 0x80 [(8, 0, 16), (32, 0, 1)])))).regWrite 0 0x1834 (((cm 0x80 [(8, 0, 16), (32, 0, 1)])).arg 20 0 32) else ((if (16).testBit 0 then (started ((fl [(cm 0x80 [(8, 0, 16), (32, 0, 1)])] (car { active := true }))) ((cm 0x80 [(8, 0, 16), (32, 0, 1)]))).regWrite 0 0x1830 (((cm 0x80 [(8, 0, 16), (32, 0, 1)])).arg 16 0 32) else started ((fl [(cm 0x80 [(8, 0, 16), (32, 0, 1)])] (car { active := true }))) ((cm 0x80 [(8, 0, 16), (32, 0, 1)])))))).regWrite 0 0x1838 (((cm 0x80 [(8, 0, 16), (32, 0, 1)])).arg 24 0 32) else ((if (16).testBit 1 then ((if (16).testBit 0 then (started ((fl [(cm 0x80 [(8, 0, 16), (32, 0, 1)])] (car { active := true }))) ((cm 0x80 [(8, 0, 16), (32, 0, 1)]))).regWrite 0 0x1830 (((cm 0x80 [(8, 0, 16), (32, 0, 1)])).arg 16 0 32) else started ((fl [(cm 0x80 [(8, 0, 16), (32, 0, 1)])] (car { active := true }))) ((cm 0x80 [(8, 0, 16), (32, 0, 1)])))).regWrite 0 0x1834 (((cm 0x80 [(8, 0, 16), (32, 0, 1)])).arg 20 0 32) else ((if (16).testBit 0 then (started ((fl [(cm 0x80 [(8, 0, 16), (32, 0, 1)])] (car { active := true }))) ((cm 0x80 [(8, 0, 16), (32, 0, 1)]))).regWrite 0 0x1830 (((cm 0x80 [(8, 0, 16), (32, 0, 1)])).arg 16 0 32) else started ((fl [(cm 0x80 [(8, 0, 16), (32, 0, 1)])] (car { active := true }))) ((cm 0x80 [(8, 0, 16), (32, 0, 1)]))))))))),
     (if (16).testBit 4 then ((if (16).testBit 3 then ((if (16).testBit 2 then ((if (16).testBit 1 then ((if (16).testBit 0 then (started ((fl [(cm 0x80 [(8, 0, 16), (32, 0, 1)])] (car { active := true }))) ((cm 0x80 [(8, 0, 16), (32, 0, 1)]))).regWrite 0 0x1830 (((cm 0x80 [(8, 0, 16), (32, 0, 1)])).arg 16 0 32) else started ((fl [(cm 0x80 [(8, 0, 16), (32, 0, 1)])] (car { active := true }))) ((cm 0x80 [(8, 0, 16), (32, 0, 1)])))).regWrite 0 0x1834 (((cm 0x80 [(8, 0, 16), (32, 0, 1)])).arg 20 0 32) else ((if (16).testBit 0 then (started ((fl [(cm 0x80 [(8, 0, 16), (32, 0, 1)])] (car { active := true }))) ((cm 0x80 [(8, 0, 16), (32, 0, 1)]))).regWrite 0 0x1830 (((cm 0x80 [(8, 0, 16), (32, 0, 1)])).arg 16 0 32) else started ((fl [(cm 0x80 [(8, 0, 16), (32, 0, 1)])] (car { active := true }))) ((cm 0x80 [(8, 0, 16), (32, 0, 1)])))))).regWrite 0 0x1838 (((cm 0x80 [(8, 0, 16), (32, 0, 1)])).arg 24 0 32) else ((if (16).testBit 1 then ((if (16).testBit 0 then (started ((fl [(cm 0x80 [(8, 0, 16), (32, 0, 1)])] (car { active := true }))) ((cm 0x80 [(8, 0, 16), (32, 0, 1)]))).regWrite 0 0x1830 (((cm 0x80 [(8, 0, 16), (32, 0, 1)])).arg 16 0 32) else started ((fl [(cm 0x80 [(8, 0, 16), (32, 0, 1)])] (car { active := true }))) ((cm 0x80 [(8, 0, 16), (32, 0, 1)])))).regWrite 0 0x1834 (((cm 0x80 [(8, 0, 16), (32, 0, 1)])).arg 20 0 32) else ((if (16).testBit 0 then (started ((fl [(cm 0x80 [(8, 0, 16), (32, 0, 1)])] (car { active := true }))) ((cm 0x80 [(8, 0, 16), (32, 0, 1)]))).regWrite 0 0x1830 (((cm 0x80 [(8, 0, 16), (32, 0, 1)])).arg 16 0 32) else started ((fl [(cm 0x80 [(8, 0, 16), (32, 0, 1)])] (car { active := true }))) ((cm 0x80 [(8, 0, 16), (32, 0, 1)])))))))).regWrite 0 0x183C (((cm 0x80 [(8, 0, 16), (32, 0, 1)])).arg 28 0 32) else ((if (16).testBit 2 then ((if (16).testBit 1 then ((if (16).testBit 0 then (started ((fl [(cm 0x80 [(8, 0, 16), (32, 0, 1)])] (car { active := true }))) ((cm 0x80 [(8, 0, 16), (32, 0, 1)]))).regWrite 0 0x1830 (((cm 0x80 [(8, 0, 16), (32, 0, 1)])).arg 16 0 32) else started ((fl [(cm 0x80 [(8, 0, 16), (32, 0, 1)])] (car { active := true }))) ((cm 0x80 [(8, 0, 16), (32, 0, 1)])))).regWrite 0 0x1834 (((cm 0x80 [(8, 0, 16), (32, 0, 1)])).arg 20 0 32) else ((if (16).testBit 0 then (started ((fl [(cm 0x80 [(8, 0, 16), (32, 0, 1)])] (car { active := true }))) ((cm 0x80 [(8, 0, 16), (32, 0, 1)]))).regWrite 0 0x1830 (((cm 0x80 [(8, 0, 16), (32, 0, 1)])).arg 16 0 32) else started ((fl [(cm 0x80 [(8, 0, 16), (32, 0, 1)])] (car { active := true }))) ((cm 0x80 [(8, 0, 16), (32, 0, 1)])))))).regWrite 0 0x1838 (((cm 0x80 [(8, 0, 16), (32, 0, 1)])).arg 24 0 32) else ((if (16).testBit 1 then ((if (16).testBit 0 then (started ((fl [(cm 0x80 [(8, 0, 16), (32, 0, 1)])] (car { active := true }))) ((cm 0x80 [(8, 0, 16), (32, 0, 1)]))).regWrite 0 0x1830 (((cm 0x80 [(8, 0, 16), (32, 0, 1)])).arg 16 0 32) else started ((fl [(cm 0x80 [(8, 0, 16), (32, 0, 1)])] (car { active := true }))) ((cm 0x80 [(8, 0, 16), (32, 0, 1)])))).regWrite 0 0x1834 (((cm 0x80 [(8, 0, 16), (32, 0, 1)])).arg 20 0 32) else ((if (16).testBit 0 then (started ((fl [(cm 0x80 [(8, 0, 16), (32, 0, 1)])] (car { active := true }))) ((cm 0x80 [(8, 0, 16), (32, 0, 1)]))).regWrite 0 0x1830 (((cm 0x80 [(8, 0, 16), (32, 0, 1)])).arg 16 0 32) else started ((fl [(cm 0x80 [(8, 0, 16), (32, 0, 1)])] (car { active := true }))) ((cm 0x80 [(8, 0, 16), (32, 0, 1)])))))))))).regWrite 0 0x1820 (((cm 0x80 [(8, 0, 16), (32, 0, 1)])).arg 32 0 64) else ((if (16).testBit 3 then ((if (16).testBit 2 then ((if (16).testBit 1 then ((if (16).testBit 0 then (started ((fl [(cm 0x80 [(8, 0, 16), (32, 0, 1)])] (car { active := true }))) ((cm 0x80 [(8, 0, 16), (32, 0, 1)]))).regWrite 0 0x1830 (((cm 0x80 [(8, 0, 16), (32, 0, 1)])).arg 16 0 32) else started ((fl [(cm 0x80 [(8, 0, 16), (32, 0, 1)])] (car { active := true }))) ((cm 0x80 [(8, 0, 16), (32, 0, 1)])))).regWrite 0 0x1834 (((cm 0x80 [(8, 0, 16), (32, 0, 1)])).arg 20 0 32) else ((if (16).testBit 0 then (started ((fl [(cm 0x80 [(8, 0, 16), (32, 0, 1)])] (car { active := true }))) ((cm 0x80 [(8, 0, 16), (32, 0, 1)]))).regWrite 0 0x1830 (((cm 0x80 [(8, 0, 16), (32, 0, 1)])).arg 16 0 32) else started ((fl [(cm 0x80 [(8, 0, 16), (32, 0, 1)])] (car { active := true }))) ((cm 0x80 [(8, 0, 16), (32, 0, 1)])))))).regWrite 0 0x1838 (((cm 0x80 [(8, 0, 16), (32, 0, 1)])).arg 24 0 32) else ((if (16).testBit 1 then ((if (16).testBit 0 then (started ((fl [(cm 0x80 [(8, 0, 16), (32, 0, 1)])] (car { active := true }))) ((cm 0x80 [(8, 0, 16), (32, 0, 1)]))).regWrite 0 0x1830 (((cm 0x80 [(8, 0, 16), (32, 0, 1)])).arg 16 0 32) else started ((fl [(cm 0x80 [(8, 0, 16), (32, 0, 1)])] (car { active := true }))) ((cm 0x80 [(8, 0, 16), (32, 0, 1)])))).regWrite 0 0x1834 (((cm 0x80 [(8, 0, 16), (32, 0, 1)])).arg 20 0 32) else ((if (16).testBit 0 then (started ((fl [(cm 0x80 [(8, 0, 16), (32, 0, 1)])] (car { active := true }))) ((cm 0x80 [(8, 0, 16), (32, 0, 1)]))).regWrite 0 0x1830 (((cm 0x80 [(8, 0, 16), (32, 0, 1)])).arg 16 0 32) else started ((fl [(cm 0x80 [(8, 0, 16), (32, 0, 1)])] (car { active := true }))) ((cm 0x80 [(8, 0, 16), (32, 0, 1)])))))))).regWrite 0 0x183C (((cm 0x80 [(8, 0, 16), (32, 0, 1)])).arg 28 0 32) else ((if (16).testBit 2 then ((if (16).testBit 1 then ((if (16).testBit 0 then (started ((fl [(cm 0x80 [(8, 0, 16), (32, 0, 1)])] (car { active := true }))) ((cm 0x80 [(8, 0, 16), (32, 0, 1)]))).regWrite 0 0x1830 (((cm 0x80 [(8, 0, 16), (32, 0, 1)])).arg 16 0 32) else started ((fl [(cm 0x80 [(8, 0, 16), (32, 0, 1)])] (car { active := true }))) ((cm 0x80 [(8, 0, 16), (32, 0, 1)])))).regWrite 0 0x1834 (((cm 0x80 [(8, 0, 16), (32, 0, 1)])).arg 20 0 32) else ((if (16).testBit 0 then (started ((fl [(cm 0x80 [(8, 0, 16), (32, 0, 1)])] (car { active := true }))) ((cm 0x80 [(8, 0, 16), (32, 0, 1)]))).regWrite 0 0x1830 (((cm 0x80 [(8, 0, 16), (32, 0, 1)])).arg 16 0 32) else started ((fl [(cm 0x80 [(8, 0, 16), (32, 0, 1)])] (car { active := true }))) ((cm 0x80 [(8, 0, 16), (32, 0, 1)])))))).regWrite 0 0x1838 (((cm 0x80 [(8, 0, 16), (32, 0, 1)])).arg 24 0 32) else ((if (16).testBit 1 then ((if (16).testBit 0 then (started ((fl [(cm 0x80 [(8, 0, 16), (32, 0, 1)])] (car { active := true }))) ((cm 0x80 [(8, 0, 16), (32, 0, 1)]))).regWrite 0 0x1830 (((cm 0x80 [(8, 0, 16), (32, 0, 1)])).arg 16 0 32) else started ((fl [(cm 0x80 [(8, 0, 16), (32, 0, 1)])] (car { active := true }))) ((cm 0x80 [(8, 0, 16), (32, 0, 1)])))).regWrite 0 0x1834 (((cm 0x80 [(8, 0, 16), (32, 0, 1)])).arg 20 0 32) else ((if (16).testBit 0 then (started ((fl [(cm 0x80 [(8, 0, 16), (32, 0, 1)])] (car { active := true }))) ((cm 0x80 [(8, 0, 16), (32, 0, 1)]))).regWrite 0 0x1830 (((cm 0x80 [(8, 0, 16), (32, 0, 1)])).arg 16 0 32) else started ((fl [(cm 0x80 [(8, 0, 16), (32, 0, 1)])] (car { active := true }))) ((cm 0x80 [(8, 0, 16), (32, 0, 1)]))))))))))),
     inv_of (by decide +kernel) (by decide +kernel),
     ⟨by decide +kernel, by decide +kernel, by decide +kernel, by decide +kernel, rfl, rfl, rfl, rfl, rfl, by decide +kernel, by decide +kernel, by decide +kernel, by decide +kernel, by decide +kernel⟩⟩,
   ⟨(fl [(cm 0x80 [(8, 0, 31), (16, 0, 0), (32, 0, 1)] 1)]), 0, 7, (cm 0x80 [(8, 0, 31), (16, 0, 0), (32, 0, 1)] 1), 31, true, (if (31).testBit 0
     then (started ((fl [(cm 0x80 [(8, 0, 31), (16, 0, 0), (32, 0, 1)] 1)])) ((cm 0x80 [(8, 0, 31), (16, 0, 0), (32, 0, 1)] 1))).regWrite 0 0x1830
     (((cm 0x80 [(8, 0, 31), (16, 0, 0), (32, 0, 1)] 1)).arg 16 0 32) else started ((fl [(cm 0x80 [(8, 0, 31), (16, 0, 0), (32, 0, 1)] 1)])) ((cm
     0x80 [(8, 0, 31), (16, 0, 0), (32, 0, 1)] 1))), (if (31).testBit 1 then ((if (31).testBit 0 then (started ((fl [(cm 0x80 [(8, 0, 31), (16, 0,
     0), (32, 0, 1)] 1)])) ((cm 0x80 [(8, 0, 31), (16, 0, 0), (32, 0, 1)] 1))).regWrite 0 0x1830 (((cm 0x80 [(8, 0, 31), (16, 0, 0), (32, 0, 1)]
     1)).arg 16 0 32) else started ((fl [(cm 0x80 [(8, 0, 31), (16, 0, 0), (32, 0, 1)] 1)])) ((cm 0x80 [(8, 0, 31), (16, 0, 0), (32, 0, 1)]
     1)))).regWrite 0 0x1834 (((cm 0x80 [(8, 0, 31), (16, 0, 0), (32, 0, 1)] 1)).arg 20 0 32) else ((if (31).testBit 0 then (started ((fl [(cm 0x80
     [(8, 0, 31), (16, 0, 0), (32, 0, 1)] 1)])) ((cm 0x80 [(8, 0, 31), (16, 0, 0), (32, 0, 1)] 1))).regWrite 0 0x1830 (((cm 0x80 [(8, 0, 31), (16, 0,
     0), (32, 0, 1)] 1)).arg 16 0 32) else started ((fl [(cm 0x80 [(8, 0, 31), (16, 0, 0), (32, 0, 1)] 1)])) ((cm 0x80 [(8, 0, 31), (16, 0, 0), (32,
     0, 1)] 1))))), (if (31).testBit 2 then ((if (31).testBit 1 then ((if (31).testBit 0 then (started ((fl [(cm 0x80 [(8, 0, 31), (16, 0, 0), (32,
     0, 1)] 1)])) ((cm 0x80 [(8, 0, 31), (16, 0, 0), (32, 0, 1)] 1))).regWrite 0 0x1830 (((cm 0x80 [(8, 0, 31), (16, 0, 0), (32, 0, 1)] 1)).arg 16 0
     32) else started ((fl [(cm 0x80 [(8, 0, 31), (16, 0, 0), (32, 0, 1)] 1)])) ((cm 0x80 [(8, 0, 31), (16, 0, 0), (32, 0, 1)] 1)))).regWrite 0
     0x1834 (((cm 0x80 [(8, 0, 31), (16, 0, 0), (32, 0, 1)] 1)).arg 20 0 32) else ((if (31).testBit 0 then (started ((fl [(cm 0x80 [(8, 0, 31), (16,
     0, 0), (32, 0, 1)] 1)])) ((cm 0x80 [(8, 0, 31), (16, 0, 0), (32, 0, 1)] 1))).regWrite 0 0x1830 (((cm 0x80 [(8, 0, 31), (16, 0, 0), (32, 0, 1)]
     1)).arg 16 0 32) else started ((fl [(cm 0x80 [(8, 0, 31), (16, 0, 0), (32, 0, 1)] 1)])) ((cm 0x80 [(8, 0, 31), (16, 0, 0), (32, 0, 1)]
     1)))))).regWrite 0 0x1838 (((cm 0x80 [(8, 0, 31), (16, 0, 0), (32, 0, 1)] 1)).arg 24 0 32) else ((if (31).testBit 1 then ((if (31).testBit 0
     then (started ((fl [(cm 0x80 [(8, 0, 31), (16, 0, 0), (32, 0, 1)] 1)])) ((cm 0x80 [(8, 0, 31), (16, 0, 0), (32, 0, 1)] 1))).regWrite 0 0x1830
     (((cm 0x80 [(8, 0, 31), (16, 0, 0), (32, 0, 1)] 1)).arg 16 0 32) else started ((fl [(cm 0x80 [(8, 0, 31), (16, 0, 0), (32, 0, 1)] 1)])) ((cm
     0x80 [(8, 0, 31), (16, 0, 0), (32, 0, 1)] 1)))).regWrite 0 0x1834 (((cm 0x80 [(8, 0, 31), (16, 0, 0), (32, 0, 1)] 1)).arg 20 0 32) else ((if
     (31).testBit 0 then (started ((fl [(cm 0x80 [(8, 0, 31), (16, 0, 0), (32, 0, 1)] 1)])) ((cm 0x80 [(8, 0, 31), (16, 0, 0), (32, 0, 1)]
     1))).regWrite 0 0x1830 (((cm 0x80 [(8, 0, 31), (16, 0, 0), (32, 0, 1)] 1)).arg 16 0 32) else started ((fl [(cm 0x80 [(8, 0, 31), (16, 0, 0),
     (32, 0, 1)] 1)])) ((cm 0x80 [(8, 0, 31), (16, 0, 0), (32, 0, 1)] 1))))))), (if (31).testBit 3 then ((if (31).testBit 2 then ((if (31).testBit 1
     then ((if (31).testBit 0 then (started ((fl [(cm 0x80 [(8, 0, 31), (16, 0, 0), (32, 0, 1)] 1)])) ((cm 0x80 [(8, 0, 31), (16, 0, 0), (32, 0, 1)]
     1))).regWrite 0 0x1830 (((cm 0x80 [(8, 0, 31), (16, 0, 0), (32, 0, 1)] 1)).arg 16 0 32) else started ((fl [(cm 0x80 [(8, 0, 31), (16, 0, 0),
     (32, 0, 1)] 1)])) ((cm 0x80 [(8, 0, 31), (16, 0, 0), (32, 0, 1)] 1)))).regWrite 0 0x1834 (((cm 0x80 [(8, 0, 31), (16, 0, 0), (32, 0, 1)] 1)).arg
     20 0 32) else ((if (31).testBit 0 then (started ((fl [(cm 0x80 [(8, 0, 31), (16, 0, 0), (32, 0, 1)] 1)])) ((cm 0x80 [(8, 0, 31), (16, 0, 0),
     (32, 0, 1)] 1))).regWrite 0 0x1830 (((cm 0x80 [(8, 0, 31), (16, 0, 0), (32, 0, 1)] 1)).arg 16 0 32) else started ((fl [(cm 0x80 [(8, 0, 31),
     (16, 0, 0), (32, 0, 1)] 1)])) ((cm 0x80 [(8, 0, 31), (16, 0, 0), (32, 0, 1)] 1)))))).regWrite 0 0x1838 (((cm 0x80 [(8, 0, 31), (16, 0, 0), (32,
     0, 1)] 1)).arg 24 0 32) else ((if (31).testBit 1 then ((if (31).testBit 0 then (started ((fl [(cm 0x80 [(8, 0, 31), (16, 0, 0), (32, 0, 1)]
     1)])) ((cm 0x80 [(8, 0, 31), (16, 0, 0), (32, 0, 1)] 1))).regWrite 0 0x1830 (((cm 0x80 [(8, 0, 31), (16, 0, 0), (32, 0, 1)] 1)).arg 16 0 32)
     else started ((fl [(cm 0x80 [(8, 0, 31), (16, 0, 0), (32, 0, 1)] 1)])) ((cm 0x80 [(8, 0, 31), (16, 0, 0), (32, 0, 1)] 1)))).regWrite 0 0x1834
     (((cm 0x80 [(8, 0, 31), (16, 0, 0), (32, 0, 1)] 1)).arg 20 0 32) else ((if (31).testBit 0 then (started ((fl [(cm 0x80 [(8, 0, 31), (16, 0, 0),
     (32, 0, 1)] 1)])) ((cm 0x80 [(8, 0, 31), (16, 0, 0), (32, 0, 1)] 1))).regWrite 0 0x1830 (((cm 0x80 [(8, 0, 31), (16, 0, 0), (32, 0, 1)] 1)).arg
     16 0 32) else started ((fl [(cm 0x80 [(8, 0, 31), (16, 0, 0), (32, 0, 1)] 1)])) ((cm 0x80 [(8, 0, 31), (16, 0, 0), (32, 0, 1)]
     1)))))))).regWrite 0 0x183C (((cm 0x80 [(8, 0, 31), (16, 0, 0), (32, 0, 1)] 1)).arg 28 0 32) else ((if (31).testBit 2 then ((if (31).testBit 1
     then ((if (31).testBit 0 then (started ((fl [(cm 0x80 [(8, 0, 31), (16, 0, 0), (32, 0, 1)] 1)])) ((cm 0x80 [(8, 0, 31), (16, 0, 0), (32, 0, 1)]
     1))).regWrite 0 0x1830 (((cm 0x80 [(8, 0, 31), (16, 0, 0), (32, 0, 1)] 1)).arg 16 0 32) else started ((fl [(cm 0x80 [(8, 0, 31), (16, 0, 0),
     (32, 0, 1)] 1)])) ((cm 0x80 [(8, 0, 31), (16, 0, 0), (32, 0, 1)] 1)))).regWrite 0 0x1834 (((cm 0x80 [(8, 0, 31), (16, 0, 0), (32, 0, 1)] 1)).arg
     20 0 32) else ((if (31).testBit 0 then (started ((fl [(cm 0x80 [(8, 0, 31), (16, 0, 0), (32, 0, 1)] 1)])) ((cm 0x80 [(8, 0, 31), (16, 0, 0),
     (32, 0, 1)] 1))).regWrite 0 0x1830 (((cm 0x80 [(8, 0, 31), (16, 0, 0), (32, 0, 1)] 1)).arg 16 0 32) else started ((fl [(cm 0x80 [(8, 0, 31),
     (16, 0, 0), (32, 0, 1)] 1)])) ((cm 0x80 [(8, 0, 31), (16, 0, 0), (32, 0, 1)] 1)))))).regWrite 0 0x1838 (((cm 0x80 [(8, 0, 31), (16, 0, 0), (32,
     0, 1)] 1)).arg 24 0 32) else ((if (31).testBit 1 then ((if (31).testBit 0 then (started ((fl [(cm 0x80 [(8, 0, 31), (16, 0, 0), (32, 0, 1)]
     1)])) ((cm 0x80 [(8, 0, 31), (16, 0, 0), (32, 0, 1)] 1))).regWrite 0 0x1830 (((cm 0x80 [(8, 0, 31), (16, 0, 0), (32, 0, 1)] 1)).arg 16 0 32)
     else started ((fl [(cm 0x80 [(8, 0, 31), (16, 0, 0), (32, 0, 1)] 1)])) ((cm 0x80 [(8, 0, 31), (16, 0, 0), (32, 0, 1)] 1)))).regWrite 0 0x1834
     (((cm 0x80 [(8, 0, 31), (16, 0, 0), (32, 0, 1)] 1)).arg 20 0 32) else ((if (31).testBit 0 then (started ((fl [(cm 0x80 [(8, 0, 31), (16, 0, 0),
     (32, 0, 1)] 1)])) ((cm 0x80 [(8, 0, 31), (16, 0, 0), (32, 0, 1)] 1))).regWrite 0 0x1830 (((cm 0x80 [(8, 0, 31), (16, 0, 0), (32, 0, 1)] 1)).arg
     16 0 32) else started ((fl [(cm 0x80 [(8, 0, 31), (16, 0, 0), (32, 0, 1)] 1)])) ((cm 0x80 [(8, 0, 31), (16, 0, 0), (32, 0, 1)] 1))))))))), (if
     (31).testBit 4 then ((if (31).testBit 3 then ((if (31).testBit 2 then ((if (31).testBit 1 then ((if (31).testBit 0 then (started ((fl [(cm 0x80
     [(8, 0, 31), (16, 0, 0), (32, 0, 1)] 1)])) ((cm 0x80 [(8, 0, 31), (16, 0, 0), (32, 0, 1)] 1))).regWrite 0 0x1830 (((cm 0x80 [(8, 0, 31), (16, 0,
     0), (32, 0, 1)] 1)).arg 16 0 32) else started ((fl [(cm 0x80 [(8, 0, 31), (16, 0, 0), (32, 0, 1)] 1)])) ((cm 0x80 [(8, 0, 31), (16, 0, 0), (32,
     0, 1)] 1)))).regWrite 0 0x1834 (((cm 0x80 [(8, 0, 31), (16, 0, 0), (32, 0, 1)] 1)).arg 20 0 32) else ((if (31).testBit 0 then (started ((fl [(cm
     0x80 [(8, 0, 31), (16, 0, 0), (32, 0, 1)] 1)])) ((cm 0x80 [(8, 0, 31), (16, 0, 0), (32, 0, 1)] 1))).regWrite 0 0x1830 (((cm 0x80 [(8, 0, 31),
     (16, 0, 0), (32, 0, 1)] 1)).arg 16 0 32) else started ((fl [(cm 0x80 [(8, 0, 31), (16, 0, 0), (32, 0, 1)] 1)])) ((cm 0x80 [(8, 0, 31), (16, 0,
     0), (32, 0, 1)] 1)))))).regWrite 0 0x1838 (((cm 0x80 [(8, 0, 31), (16, 0, 0), (32, 0, 1)] 1)).arg 24 0 32) else ((if (31).testBit 1 then ((if
     (31).testBit 0 then (started ((fl [(cm 0x80 [(8, 0, 31), (16, 0, 0), (32, 0, 1)] 1)])) ((cm 0x80 [(8, 0, 31), (16, 0, 0), (32, 0, 1)]
     1))).regWrite 0 0x1830 (((cm 0x80 [(8, 0, 31), (16, 0, 0), (32, 0, 1)] 1)).arg 16 0 32) else started ((fl [(cm 0x80 [(8, 0, 31), (16, 0, 0),
     (32, 0, 1)] 1)])) ((cm 0x80 [(8, 0, 31), (16, 0, 0), (32, 0, 1)] 1)))).regWrite 0 0x1834 (((cm 0x80 [(8, 0, 31), (16, 0, 0), (32, 0, 1)] 1)).arg
     20 0 32) else ((if (31).testBit 0 then (started ((fl [(cm 0x80 [(8, 0, 31), (16, 0, 0), (32, 0, 1)] 1)])) ((cm 0x80 [(8, 0, 31), (16, 0, 0),
     (32, 0, 1)] 1))).regWrite 0 0x1830 (((cm 0x80 [(8, 0, 31), (16, 0, 0), (32, 0, 1)] 1)).arg 16 0 32) else started ((fl [(cm 0x80 [(8, 0, 31),
     (16, 0, 0), (32, 0, 1)] 1)])) ((cm 0x80 [(8, 0, 31), (16, 0, 0), (32, 0, 1)] 1)))))))).regWrite 0 0x183C (((cm 0x80 [(8, 0, 31), (16, 0, 0),
     (32, 0, 1)] 1)).arg 28 0 32) else ((if (31).testBit 2 then ((if (31).testBit 1 then ((if (31).testBit 0 then (started ((fl [(cm 0x80 [(8, 0,
     31), (16, 0, 0), (32, 0, 1)] 1)])) ((cm 0x80 [(8, 0, 31), (16, 0, 0), (32, 0, 1)] 1))).regWrite 0 0x1830 (((cm 0x80 [(8, 0, 31), (16, 0, 0),
     (32, 0, 1)] 1)).arg 16 0 32) else started ((fl [(cm 0x80 [(8, 0, 31), (16, 0, 0), (32, 0, 1)] 1)])) ((cm 0x80 [(8, 0, 31), (16, 0, 0), (32, 0,
     1)] 1)))).regWrite 0 0x1834 (((cm 0x80 [(8, 0, 31), (16, 0, 0), (32, 0, 1)] 1)).arg 20 0 32) else ((if (31).testBit 0 then (started ((fl [(cm
     0x80 [(8, 0, 31), (16, 0, 0), (32, 0, 1)] 1)])) ((cm 0x80 [(8, 0, 31), (16, 0, 0), (32, 0, 1)] 1))).regWrite 0 0x1830 (((cm 0x80 [(8, 0, 31),
     (16, 0, 0), (32, 0, 1)] 1)).arg 16 0 32) else started ((fl [(cm 0x80 [(8, 0, 31), (16, 0, 0), (32, 0, 1)] 1)])) ((cm 0x80 [(8, 0, 31), (16, 0,
     0), (32, 0, 1)] 1)))))).regWrite 0 0x1838 (((cm 0x80 [(8, 0, 31), (16, 0, 0), (32, 0, 1)] 1)).arg 24 0 32) else ((if (31).testBit 1 then ((if
     (31).testBit 0 then (started ((fl [(cm 0x80 [(8, 0, 31), (16, 0, 0), (32, 0, 1)] 1)])) ((cm 0x80 [(8, 0, 31), (16, 0, 0), (32, 0, 1)]
     1))).regWrite 0 0x1830 (((cm 0x80 [(8, 0, 31), (16, 0, 0), (32, 0, 1)] 1)).arg 16 0 32) else started ((fl [(cm 0x80 [(8, 0, 31), (16, 0, 0),
     (32, 0, 1)] 1)])) ((cm 0x80 [(8, 0, 31), (16, 0, 0), (32, 0, 1)] 1)))).regWrite 0 0x1834 (((cm 0x80 [(8, 0, 31), (16, 0, 0), (32, 0, 1)] 1)).arg
     20 0 32) else ((if (31).testBit 0 then (started ((fl [(cm 0x80 [(8, 0, 31), (16, 0, 0), (32, 0, 1)] 1)])) ((cm 0x80 [(8, 0, 31), (16, 0, 0),
     (32, 0, 1)] 1))).regWrite 0 0x1830 (((cm 0x80 [(8, 0, 31), (16, 0, 0), (32, 0, 1)] 1)).arg 16 0 32) else started ((fl [(cm 0x80 [(8, 0, 31),
     (16, 0, 0), (32, 0, 1)] 1)])) ((cm 0x80 [(8, 0, 31), (16, 0, 0), (32, 0, 1)] 1)))))))))).regWrite 0 0x1820 (((cm 0x80 [(8, 0, 31), (16, 0, 0),
     (32, 0, 1)] 1)).arg 32 0 64) else ((if (31).testBit 3 then ((if (31).testBit 2 then ((if (31).testBit 1 then ((if (31).testBit 0 then (started
     ((fl [(cm 0x80 [(8, 0, 31), (16, 0, 0), (32, 0, 1)] 1)])) ((cm 0x80 [(8, 0, 31), (16, 0, 0), (32, 0, 1)] 1))).regWrite 0 0x1830 (((cm 0x80 [(8,
     0, 31), (16, 0, 0), (32, 0, 1)] 1)).arg 16 0 32) else started ((fl [(cm 0x80 [(8, 0, 31), (16, 0, 0), (32, 0, 1)] 1)])) ((cm 0x80 [(8, 0, 31),
     (16, 0, 0), (32, 0, 1)] 1)))).regWrite 0 0x1834 (((cm 0x80 [(8, 0, 31), (16, 0, 0), (32, 0, 1)] 1)).arg 20 0 32) else ((if (31).testBit 0 then
     (started ((fl [(cm 0x80 [(8, 0, 31), (16, 0, 0), (32, 0, 1)] 1)])) ((cm 0x80 [(8, 0, 31), (16, 0, 0), (32, 0, 1)] 1))).regWrite 0 0x1830 (((cm
     0x80 [(8, 0, 31), (16, 0, 0), (32, 0, 1)] 1)).arg 16 0 32) else started ((fl [(cm 0x80 [(8, 0, 31), (16, 0, 0), (32, 0, 1)] 1)])) ((cm 0x80 [(8,
     0, 31), (16, 0, 0), (32, 0, 1)] 1)))))).regWrite 0 0x1838 (((cm 0x80 [(8, 0, 31), (16, 0, 0), (32, 0, 1)] 1)).arg 24 0 32) else ((if
     (31).testBit 1 then ((if (31).testBit 0 then (started ((fl [(cm 0x80 [(8, 0, 31), (16, 0, 0), (32, 0, 1)] 1)])) ((cm 0x80 [(8, 0, 31), (16, 0,
     0), (32, 0, 1)] 1))).regWrite 0 0x1830 (((cm 0x80 [(8, 0, 31), (16, 0, 0), (32, 0, 1)] 1)).arg 16 0 32) else started ((fl [(cm 0x80 [(8, 0, 31),
     (16, 0, 0), (32, 0, 1)] 1)])) ((cm 0x80 [(8, 0, 31), (16, 0, 0), (32, 0, 1)] 1)))).regWrite 0 0x1834 (((cm 0x80 [(8, 0, 31), (16, 0, 0), (32, 0,
     1)] 1)).arg 20 0 32) else ((if (31).testBit 0 then (started ((fl [(cm 0x80 [(8, 0, 31), (16, 0, 0), (32, 0, 1)] 1)])) ((cm 0x80 [(8, 0, 31),
     (16, 0, 0), (32, 0, 1)] 1))).regWrite 0 0x1830 (((cm 0x80 [(8, 0, 31), (16, 0, 0), (32, 0, 1)] 1)).arg 16 0 32) else started ((fl [(cm 0x80 [(8,
     0, 31), (16, 0, 0), (32, 0, 1)] 1)])) ((cm 0x80 [(8, 0, 31), (16, 0, 0), (32, 0, 1)] 1)))))))).regWrite 0 0x183C (((cm 0x80 [(8, 0, 31), (16, 0,
     0), (32, 0, 1)] 1)).arg 28 0 32) else ((if (31).testBit 2 then ((if (31).testBit 1 then ((if (31).testBit 0 then (started ((fl [(cm 0x80 [(8, 0,
     31), (16, 0, 0), (32, 0, 1)] 1)])) ((cm 0x80 [(8, 0, 31), (16, 0, 0), (32, 0, 1)] 1))).regWrite 0 0x1830 (((cm 0x80 [(8, 0, 31), (16, 0, 0),
     (32, 0, 1)] 1)).arg 16 0 32) else started ((fl [(cm 0x80 [(8, 0, 31), (16, 0, 0), (32, 0, 1)] 1)])) ((cm 0x80 [(8, 0, 31), (16, 0, 0), (32, 0,
     1)] 1)))).regWrite 0 0x1834 (((cm 0x80 [(8, 0, 31), (16, 0, 0), (32, 0, 1)] 1)).arg 20 0 32) else ((if (31).testBit 0 then (started ((fl [(cm
     0x80 [(8, 0, 31), (16, 0, 0), (32, 0, 1)] 1)])) ((cm 0x80 [(8, 0, 31), (16, 0, 0), (32, 0, 1)] 1))).regWrite 0 0x1830 (((cm 0x80 [(8, 0, 31),
     (16, 0, 0), (32, 0, 1)] 1)).arg 16 0 32) else started ((fl [(cm 0x80 [(8, 0, 31), (16, 0, 0), (32, 0, 1)] 1)])) ((cm 0x80 [(8, 0, 31), (16, 0,
     0), (32, 0, 1)] 1)))))).regWrite 0 0x1838 (((cm 0x80 [(8, 0, 31), (16, 0, 0), (32, 0, 1)] 1)).arg 24 0 32) else ((if (31).testBit 1 then ((if
     (31).testBit 0 then (started ((fl [(cm 0x80 [(8, 0, 31), (16, 0, 0), (32, 0, 1)] 1)])) ((cm 0x80 [(8, 0, 31), (16, 0, 0), (32, 0, 1)]
     1))).regWrite 0 0x1830 (((cm 0x80 [(8, 0, 31), (16, 0, 0), (32, 0, 1)] 1)).arg 16 0 32) else started ((fl [(cm 0x80 [(8, 0, 31), (16, 0, 0),
     (32, 0, 1)] 1)])) ((cm 0x80 [(8, 0, 31), (16, 0, 0), (32, 0, 1)] 1)))).regWrite 0 0x1834 (((cm 0x80 [(8, 0, 31), (16, 0, 0), (32, 0, 1)] 1)).arg
     20 0 32) else ((if (31).testBit 0 then (started ((fl [(cm 0x80 [(8, 0, 31), (16, 0, 0), (32, 0, 1)] 1)])) ((cm 0x80 [(8, 0, 31), (16, 0, 0),
     (32, 0, 1)] 1))).regWrite 0 0x1830 (((cm 0x80 [(8, 0, 31), (16, 0, 0), (32, 0, 1)] 1)).arg 16 0 32) else started ((fl [(cm 0x80 [(8, 0, 31),
     (16, 0, 0), (32, 0, 1)] 1)])) ((cm 0x80 [(8, 0, 31), (16, 0, 0), (32, 0, 1)] 1))))))))))), inv_of (by decide +kernel) (by decide +kernel),
     ⟨by decide +kernel, by decide +kernel, by decide +kernel, by decide +kernel, rfl, rfl, rfl, rfl, rfl, by decide +kernel, by decide +kernel, by decide +kernel, by decide +kernel, by decide +kernel⟩⟩,
   ⟨(fl [(cm 0x80 [(8, 0, 31), (16, 0, 0), (32, 0, 1)])]), 0, 7, (cm 0x80 [(8, 0, 31), (16, 0, 0), (32, 0, 1)]), 31, true, (if (31).testBit 0 then
     (started ((fl [(cm 0x80 [(8, 0, 31), (16, 0, 0), (32, 0, 1)])])) ((cm 0x80 [(8, 0, 31), (16, 0, 0), (32, 0, 1)]))).regWrite 0 0x1830 (((cm 0x80
     [(8, 0, 31), (16, 0, 0), (32, 0, 1)])).arg 16 0 32) else started ((fl [(cm 0x80 [(8, 0, 31), (16, 0, 0), (32, 0, 1)])])) ((cm 0x80 [(8, 0, 31),
     (16, 0, 0), (32, 0, 1)]))), (if (31).testBit 1 then ((if (31).testBit 0 then (started ((fl [(cm 0x80 [(8, 0, 31), (16, 0, 0), (32, 0, 1)])]))
     ((cm 0x80 [(8, 0, 31), (16, 0, 0), (32, 0, 1)]))).regWrite 0 0x1830 (((cm 0x80 [(8, 0, 31), (16, 0, 0), (32, 0, 1)])).arg 16 0 32) else started
     ((fl [(cm 0x80 [(8, 0, 31), (16, 0, 0), (32, 0, 1)])])) ((cm 0x80 [(8, 0, 31), (16, 0, 0), (32, 0, 1)])))).regWrite 0 0x1834 (((cm 0x80 [(8, 0,
     31), (16, 0, 0), (32, 0, 1)])).arg 20 0 32) else ((if (31).testBit 0 then (started ((fl [(cm 0x80 [(8, 0, 31), (16, 0, 0), (32, 0, 1)])])) ((cm
     0x80 [(8, 0, 31), (16, 0, 0), (32, 0, 1)]))).regWrite 0 0x1830 (((cm 0x80 [(8, 0, 31), (16, 0, 0), (32, 0, 1)])).arg 16 0 32) else started ((fl
     [(cm 0x80 [(8, 0, 31), (16, 0, 0), (32, 0, 1)])])) ((cm 0x80 [(8, 0, 31), (16, 0, 0), (32, 0, 1)]))))), (if (31).testBit 2 then ((if
     (31).testBit 1 then ((if (31).testBit 0 then (started ((fl [(cm 0x80 [(8, 0, 31), (16, 0, 0), (32, 0, 1)])])) ((cm 0x80 [(8, 0, 31), (16, 0, 0),
     (32, 0, 1)]))).regWrite 0 0x1830 (((cm 0x80 [(8, 0, 31), (16, 0, 0), (32, 0, 1)])).arg 16 0 32) else started ((fl [(cm 0x80 [(8, 0, 31), (16, 0,
     0), (32, 0, 1)])])) ((cm 0x80 [(8, 0, 31), (16, 0, 0), (32, 0, 1)])))).regWrite 0 0x1834 (((cm 0x80 [(8, 0, 31), (16, 0, 0), (32, 0, 1)])).arg
     20 0 32) else ((if (31).testBit 0 then (started ((fl [(cm 0x80 [(8, 0, 31), (16, 0, 0), (32, 0, 1)])])) ((cm 0x80 [(8, 0, 31), (16, 0, 0), (32,
     0, 1)]))).regWrite 0 0x1830 (((cm 0x80 [(8, 0, 31), (16, 0, 0), (32, 0, 1)])).arg 16 0 32) else started ((fl [(cm 0x80 [(8, 0, 31), (16, 0, 0),
     (32, 0, 1)])])) ((cm 0x80 [(8, 0, 31), (16, 0, 0), (32, 0, 1)])))))).regWrite 0 0x1838 (((cm 0x80 [(8, 0, 31), (16, 0, 0), (32, 0, 1)])).arg 24
     0 32) else ((if (31).testBit 1 then ((if (31).testBit 0 then (started ((fl [(cm 0x80 [(8, 0, 31), (16, 0, 0), (32, 0, 1)])])) ((cm 0x80 [(8, 0,
     31), (16, 0, 0), (32, 0, 1)]))).regWrite 0 0x1830 (((cm 0x80 [(8, 0, 31), (16, 0, 0), (32, 0, 1)])).arg 16 0 32) else started ((fl [(cm 0x80
     [(8, 0, 31), (16, 0, 0), (32, 0, 1)])])) ((cm 0x80 [(8, 0, 31), (16, 0, 0), (32, 0, 1)])))).regWrite 0 0x1834 (((cm 0x80 [(8, 0, 31), (16, 0,
     0), (32, 0, 1)])).arg 20 0 32) else ((if (31).testBit 0 then (started ((fl [(cm 0x80 [(8, 0, 31), (16, 0, 0), (32, 0, 1)])])) ((cm 0x80 [(8, 0,
     31), (16, 0, 0), (32, 0, 1)]))).regWrite 0 0x1830 (((cm 0x80 [(8, 0, 31), (16, 0, 0), (32, 0, 1)])).arg 16 0 32) else started ((fl [(cm 0x80
     [(8, 0, 31), (16, 0, 0), (32, 0, 1)])])) ((cm 0x80 [(8, 0, 31), (16, 0, 0), (32, 0, 1)]))))))), (if (31).testBit 3 then ((if (31).testBit 2 then
     ((if (31).testBit 1 then ((if (31).testBit 0 then (started ((fl [(cm 0x80 [(8, 0, 31), (16, 0, 0), (32, 0, 1)])])) ((cm 0x80 [(8, 0, 31), (16,
     0, 0), (32, 0, 1)]))).regWrite 0 0x1830 (((cm 0x80 [(8, 0, 31), (16, 0, 0), (32, 0, 1)])).arg 16 0 32) else started ((fl [(cm 0x80 [(8, 0, 31),
     (16, 0, 0), (32, 0, 1)])])) ((cm 0x80 [(8, 0, 31), (16, 0, 0), (32, 0, 1)])))).regWrite 0 0x1834 (((cm 0x80 [(8, 0, 31), (16, 0, 0), (32, 0,
     1)])).arg 20 0 32) else ((if (31).testBit 0 then (started ((fl [(cm 0x80 [(8, 0, 31), (16, 0, 0), (32, 0, 1)])])) ((cm 0x80 [(8, 0, 31), (16, 0,
     0), (32, 0, 1)]))).regWrite 0 0x1830 (((cm 0x80 [(8, 0, 31), (16, 0, 0), (32, 0, 1)])).arg 16 0 32) else started ((fl [(cm 0x80 [(8, 0, 31),
     (16, 0, 0), (32, 0, 1)])])) ((cm 0x80 [(8, 0, 31), (16, 0, 0), (32, 0, 1)])))))).regWrite 0 0x1838 (((cm 0x80 [(8, 0, 31), (16, 0, 0), (32, 0,
     1)])).arg 24 0 32) else ((if (31).testBit 1 then ((if (31).testBit 0 then (started ((fl [(cm 0x80 [(8, 0, 31), (16, 0, 0), (32, 0, 1)])])) ((cm
     0x80 [(8, 0, 31), (16, 0, 0), (32, 0, 1)]))).regWrite 0 0x1830 (((cm 0x80 [(8, 0, 31), (16, 0, 0), (32, 0, 1)])).arg 16 0 32) else started ((fl
     [(cm 0x80 [(8, 0, 31), (16, 0, 0), (32, 0, 1)])])) ((cm 0x80 [(8, 0, 31), (16, 0, 0), (32, 0, 1)])))).regWrite 0 0x1834 (((cm 0x80 [(8, 0, 31),
     (16, 0, 0), (32, 0, 1)])).arg 20 0 32) else ((if (31).testBit 0 then (started ((fl [(cm 0x80 [(8, 0, 31), (16, 0, 0), (32, 0, 1)])])) ((cm 0x80
     [(8, 0, 31), (16, 0, 0), (32, 0, 1)]))).regWrite 0 0x1830 (((cm 0x80 [(8, 0, 31), (16, 0, 0), (32, 0, 1)])).arg 16 0 32) else started ((fl [(cm
     0x80 [(8, 0, 31), (16, 0, 0), (32, 0, 1)])])) ((cm 0x80 [(8, 0, 31), (16, 0, 0), (32, 0, 1)])))))))).regWrite 0 0x183C (((cm 0x80 [(8, 0, 31),
     (16, 0, 0), (32, 0, 1)])).arg 28 0 32) else ((if (31).testBit 2 then ((if (31).testBit 1 then ((if (31).testBit 0 then (started ((fl [(cm 0x80
     [(8, 0, 31), (16, 0, 0), (32, 0, 1)])])) ((cm 0x80 [(8, 0, 31), (16, 0, 0), (32, 0, 1)]))).regWrite 0 0x1830 (((cm 0x80 [(8, 0, 31), (16, 0, 0),
     (32, 0, 1)])).arg 16 0 32) else started ((fl [(cm 0x80 [(8, 0, 31), (16, 0, 0), (32, 0, 1)])])) ((cm 0x80 [(8, 0, 31), (16, 0, 0), (32, 0,
     1)])))).regWrite 0 0x1834 (((cm 0x80 [(8, 0, 31), (16, 0, 0), (32, 0, 1)])).arg 20 0 32) else ((if (31).testBit 0 then (started ((fl [(cm 0x80
     [(8, 0, 31), (16, 0, 0), (32, 0, 1)])])) ((cm 0x80 [(8, 0, 31), (16, 0, 0), (32, 0, 1)]))).regWrite 0 0x1830 (((cm 0x80 [(8, 0, 31), (16, 0, 0),
     (32, 0, 1)])).arg 16 0 32) else started ((fl [(cm 0x80 [(8, 0, 31), (16, 0, 0), (32, 0, 1)])])) ((cm 0x80 [(8, 0, 31), (16, 0, 0), (32, 0,
     1)])))))).regWrite 0 0x1838 (((cm 0x80 [(8, 0, 31), (16, 0, 0), (32, 0, 1)])).arg 24 0 32) else ((if (31).testBit 1 then ((if (31).testBit 0
     then (started ((fl [(cm 0x80 [(8, 0, 31), (16, 0, 0), (32, 0, 1)])])) ((cm 0x80 [(8, 0, 31), (16, 0, 0), (32, 0, 1)]))).regWrite 0 0x1830 (((cm
     0x80 [(8, 0, 31), (16, 0, 0), (32, 0, 1)])).arg 16 0 32) else started ((fl [(cm 0x80 [(8, 0, 31), (16, 0, 0), (32, 0, 1)])])) ((cm 0x80 [(8, 0,
     31), (16, 0, 0), (32, 0, 1)])))).regWrite 0 0x1834 (((cm 0x80 [(8, 0, 31), (16, 0, 0), (32, 0, 1)])).arg 20 0 32) else ((if (31).testBit 0 then
     (started ((fl [(cm 0x80 [(8, 0, 31), (16, 0, 0), (32, 0, 1)])])) ((cm 0x80 [(8, 0, 31), (16, 0, 0), (32, 0, 1)]))).regWrite 0 0x1830 (((cm 0x80
     [(8, 0, 31), (16, 0, 0), (32, 0, 1)])).arg 16 0 32) else started ((fl [(cm 0x80 [(8, 0, 31), (16, 0, 0), (32, 0, 1)])])) ((cm 0x80 [(8, 0, 31),
     (16, 0, 0), (32, 0, 1)]))))))))), (if (31).testBit 4 then ((if (31).testBit 3 then ((if (31).testBit 2 then ((if (31).testBit 1 then ((if
     (31).testBit 0 then (started ((fl [(cm 0x80 [(8, 0, 31), (16, 0, 0), (32, 0, 1)])])) ((cm 0x80 [(8, 0, 31), (16, 0, 0), (32, 0, 1)]))).regWrite
     0 0x1830 (((cm 0x80 [(8, 0, 31), (16, 0, 0), (32, 0, 1)])).arg 16 0 32) else started ((fl [(cm 0x80 [(8, 0, 31), (16, 0, 0), (32, 0, 1)])]))
     ((cm 0x80 [(8, 0, 31), (16, 0, 0), (32, 0, 1)])))).regWrite 0 0x1834 (((cm 0x80 [(8, 0, 31), (16, 0, 0), (32, 0, 1)])).arg 20 0 32) else ((if
     (31).testBit 0 then (started ((fl [(cm 0x80 [(8, 0, 31), (16, 0, 0), (32, 0, 1)])])) ((cm 0x80 [(8, 0, 31), (16, 0, 0), (32, 0, 1)]))).regWrite
     0 0x1830 (((cm 0x80 [(8, 0, 31), (16, 0, 0), (32, 0, 1)])).arg 16 0 32) else started ((fl [(cm 0x80 [(8, 0, 31), (16, 0, 0), (32, 0, 1)])]))
     ((cm 0x80 [(8, 0, 31), (16, 0, 0), (32, 0, 1)])))))).regWrite 0 0x1838 (((cm 0x80 [(8, 0, 31), (16, 0, 0), (32, 0, 1)])).arg 24 0 32) else ((if
     (31).testBit 1 then ((if (31).testBit 0 then (started ((fl [(cm 0x80 [(8, 0, 31), (16, 0, 0), (32, 0, 1)])])) ((cm 0x80 [(8, 0, 31), (16, 0, 0),
     (32, 0, 1)]))).regWrite 0 0x1830 (((cm 0x80 [(8, 0, 31), (16, 0, 0), (32, 0, 1)])).arg 16 0 32) else started ((fl [(cm 0x80 [(8, 0, 31), (16, 0,
     0), (32, 0, 1)])])) ((cm 0x80 [(8, 0, 31), (16, 0, 0), (32, 0, 1)])))).regWrite 0 0x1834 (((cm 0x80 [(8, 0, 31), (16, 0, 0), (32, 0, 1)])).arg
     20 0 32) else ((if (31).testBit 0 then (started ((fl [(cm 0x80 [(8, 0, 31), (16, 0, 0), (32, 0, 1)])])) ((cm 0x80 [(8, 0, 31), (16, 0, 0), (32,
     0, 1)]))).regWrite 0 0x1830 (((cm 0x80 [(8, 0, 31), (16, 0, 0), (32, 0, 1)])).arg 16 0 32) else started ((fl [(cm 0x80 [(8, 0, 31), (16, 0, 0),
     (32, 0, 1)])])) ((cm 0x80 [(8, 0, 31), (16, 0, 0), (32, 0, 1)])))))))).regWrite 0 0x183C (((cm 0x80 [(8, 0, 31), (16, 0, 0), (32, 0, 1)])).arg
     28 0 32) else ((if (31).testBit 2 then ((if (31).testBit 1 then ((if (31).testBit 0 then (started ((fl [(cm 0x80 [(8, 0, 31), (16, 0, 0), (32,
     0, 1)])])) ((cm 0x80 [(8, 0, 31), (16, 0, 0), (32, 0, 1)]))).regWrite 0 0x1830 (((cm 0x80 [(8, 0, 31), (16, 0, 0), (32, 0, 1)])).arg 16 0 32)
     else started ((fl [(cm 0x80 [(8, 0, 31), (16, 0, 0), (32, 0, 1)])])) ((cm 0x80 [(8, 0, 31), (16, 0, 0), (32, 0, 1)])))).regWrite 0 0x1834 (((cm
     0x80 [(8, 0, 31), (16, 0, 0), (32, 0, 1)])).arg 20 0 32) else ((if (31).testBit 0 then (started ((fl [(cm 0x80 [(8, 0, 31), (16, 0, 0), (32, 0,
     1)])])) ((cm 0x80 [(8, 0, 31), (16, 0, 0), (32, 0, 1)]))).regWrite 0 0x1830 (((cm 0x80 [(8, 0, 31), (16, 0, 0), (32, 0, 1)])).arg 16 0 32) else
     started ((fl [(cm 0x80 [(8, 0, 31), (16, 0, 0), (32, 0, 1)])])) ((cm 0x80 [(8, 0, 31), (16, 0, 0), (32, 0, 1)])))))).regWrite 0 0x1838 (((cm
     0x80 [(8, 0, 31), (16, 0, 0), (32, 0, 1)])).arg 24 0 32) else ((if (31).testBit 1 then ((if (31).testBit 0 then (started ((fl [(cm 0x80 [(8, 0,
     31), (16, 0, 0), (32, 0, 1)])])) ((cm 0x80 [(8, 0, 31), (16, 0, 0), (32, 0, 1)]))).regWrite 0 0x1830 (((cm 0x80 [(8, 0, 31), (16, 0, 0), (32, 0,
     1)])).arg 16 0 32) else started ((fl [(cm 0x80 [(8, 0, 31), (16, 0, 0), (32, 0, 1)])])) ((cm 0x80 [(8, 0, 31), (16, 0, 0), (32, 0,
     1)])))).regWrite 0 0x1834 (((cm 0x80 [(8, 0, 31), (16, 0, 0), (32, 0, 1)])).arg 20 0 32) else ((if (31).testBit 0 then (started ((fl [(cm 0x80
     [(8, 0, 31), (16, 0, 0), (32, 0, 1)])])) ((cm 0x80 [(8, 0, 31), (16, 0, 0), (32, 0, 1)]))).regWrite 0 0x1830 (((cm 0x80 [(8, 0, 31), (16, 0, 0),
     (32, 0, 1)])).arg 16 0 32) else started ((fl [(cm 0x80 [(8, 0, 31), (16, 0, 0), (32, 0, 1)])])) ((cm 0x80 [(8, 0, 31), (16, 0, 0), (32, 0,
     1)])))))))))).regWrite 0 0x1820 (((cm 0x80 [(8, 0, 31), (16, 0, 0), (32, 0, 1)])).arg 32 0 64) else ((if (31).testBit 3 then ((if (31).testBit 2
     then ((if (31).testBit 1 then ((if (31).testBit 0 then (started ((fl [(cm 0x80 [(8, 0, 31), (16, 0, 0), (32, 0, 1)])])) ((cm 0x80 [(8, 0, 31),
     (16, 0, 0), (32, 0, 1)]))).regWrite 0 0x1830 (((cm 0x80 [(8, 0, 31), (16, 0, 0), (32, 0, 1)])).arg 16 0 32) else started ((fl [(cm 0x80 [(8, 0,
     31), (16, 0, 0), (32, 0, 1)])])) ((cm 0x80 [(8, 0, 31), (16, 0, 0), (32, 0, 1)])))).regWrite 0 0x1834 (((cm 0x80 [(8, 0, 31), (16, 0, 0), (32,
     0, 1)])).arg 20 0 32) else ((if (31).testBit 0 then (started ((fl [(cm 0x80 [(8, 0, 31), (16, 0, 0), (32, 0, 1)])])) ((cm 0x80 [(8, 0, 31), (16,
     0, 0), (32, 0, 1)]))).regWrite 0 0x1830 (((cm 0x80 [(8, 0, 31), (16, 0, 0), (32, 0, 1)])).arg 16 0 32) else started ((fl [(cm 0x80 [(8, 0, 31),
     (16, 0, 0), (32, 0, 1)])])) ((cm 0x80 [(8, 0, 31), (16, 0, 0), (32, 0, 1)])))))).regWrite 0 0x1838 (((cm 0x80 [(8, 0, 31), (16, 0, 0), (32, 0,
     1)])).arg 24 0 32) else ((if (31).testBit 1 then ((if (31).testBit 0 then (started ((fl [(cm 0x80 [(8, 0, 31), (16, 0, 0), (32, 0, 1)])])) ((cm
     0x80 [(8, 0, 31), (16, 0, 0), (32, 0, 1)]))).regWrite 0 0x1830 (((cm 0x80 [(8, 0, 31), (16, 0, 0), (32, 0, 1)])).arg 16 0 32) else started ((fl
     [(cm 0x80 [(8, 0, 31), (16, 0, 0), (32, 0, 1)])])) ((cm 0x80 [(8, 0, 31), (16, 0, 0), (32, 0, 1)])))).regWrite 0 0x1834 (((cm 0x80 [(8, 0, 31),
     (16, 0, 0), (32, 0, 1)])).arg 20 0 32) else ((if (31).testBit 0 then (started ((fl [(cm 0x80 [(8, 0, 31), (16, 0, 0), (32, 0, 1)])])) ((cm 0x80
     [(8, 0, 31), (16, 0, 0), (32, 0, 1)]))).regWrite 0 0x1830 (((cm 0x80 [(8, 0, 31), (16, 0, 0), (32, 0, 1)])).arg 16 0 32) else started ((fl [(cm
     0x80 [(8, 0, 31), (16, 0, 0), (32, 0, 1)])])) ((cm 0x80 [(8, 0, 31), (16, 0, 0), (32, 0, 1)])))))))).regWrite 0 0x183C (((cm 0x80 [(8, 0, 31),
     (16, 0, 0), (32, 0, 1)])).arg 28 0 32) else ((if (31).testBit 2 then ((if (31).testBit 1 then ((if (31).testBit 0 then (started ((fl [(cm 0x80
     [(8, 0, 31), (16, 0, 0), (32, 0, 1)])])) ((cm 0x80 [(8, 0, 31), (16, 0, 0), (32, 0, 1)]))).regWrite 0 0x1830 (((cm 0x80 [(8, 0, 31), (16, 0, 0),
     (32, 0, 1)])).arg 16 0 32) else started ((fl [(cm 0x80 [(8, 0, 31), (16, 0, 0), (32, 0, 1)])])) ((cm 0x80 [(8, 0, 31), (16, 0, 0), (32, 0,
     1)])))).regWrite 0 0x1834 (((cm 0x80 [(8, 0, 31), (16, 0, 0), (32, 0, 1)])).arg 20 0 32) else ((if (31).testBit 0 then (started ((fl [(cm 0x80
     [(8, 0, 31), (16, 0, 0), (32, 0, 1)])])) ((cm 0x80 [(8, 0, 31), (16, 0, 0), (32, 0, 1)]))).regWrite 0 0x1830 (((cm 0x80 [(8, 0, 31), (16, 0, 0),
     (32, 0, 1)])).arg 16 0 32) else started ((fl [(cm 0x80 [(8, 0, 31), (16, 0, 0), (32, 0, 1)])])) ((cm 0x80 [(8, 0, 31), (16, 0, 0), (32, 0,
     1)])))))).regWrite 0 0x1838 (((cm 0x80 [(8, 0, 31), (16, 0, 0), (32, 0, 1)])).arg 24 0 32) else ((if (31).testBit 1 then ((if (31).testBit 0
     then (started ((fl [(cm 0x80 [(8, 0, 31), (16, 0, 0), (32, 0, 1)])])) ((cm 0x80 [(8, 0, 31), (16, 0, 0), (32, 0, 1)]))).regWrite 0 0x1830 (((cm
     0x80 [(8, 0, 31), (16, 0, 0), (32, 0, 1)])).arg 16 0 32) else started ((fl [(cm 0x80 [(8, 0, 31), (16, 0, 0), (32, 0, 1)])])) ((cm 0x80 [(8, 0,
     31), (16, 0, 0), (32, 0, 1)])))).regWrite 0 0x1834 (((cm 0x80 [(8, 0, 31), (16, 0, 0), (32, 0, 1)])).arg 20 0 32) else ((if (31).testBit 0 then
     (started ((fl [(cm 0x80 [(8, 0, 31), (16, 0, 0), (32, 0, 1)])])) ((cm 0x80 [(8, 0, 31), (16, 0, 0), (32, 0, 1)]))).regWrite 0 0x1830 (((cm 0x80
     [(8, 0, 31), (16, 0, 0), (32, 0, 1)])).arg 16 0 32) else started ((fl [(cm 0x80 [(8, 0, 31), (16, 0, 0), (32, 0, 1)])])) ((cm 0x80 [(8, 0, 31),
     (16, 0, 0), (32, 0, 1)]))))))))))), inv_of (by decide +kernel) (by decide +kernel),
     ⟨by decide +kernel, by decide +kernel, by decide +kernel, by decide +kernel, rfl, rfl, rfl, rfl, rfl, by decide +kernel, by decide +kernel, by decide +kernel, by decide +kernel, by decide +kernel⟩⟩,
   ⟨(fl [(cm 0x80 [(8, 0, 2), (20, 0, 7)])] (car { active := true })), 0, 7, (cm 0x80 [(8, 0, 2), (20, 0, 7)]), 2, false,
     (if (2).testBit 0 then (started ((fl [(cm 0x80 [(8, 0, 2), (20, 0, 7)])] (car { active := true }))) ((cm 0x80 [(8, 0, 2), (20, 0, 7)]))).regWrite 0 0x1830 (((cm 0x80 [(8, 0, 2), (20, 0, 7)])).arg 16 0 32) else started ((fl [(cm 0x80 [(8, 0, 2), (20, 0, 7)])] (car { active := true }))) ((cm 0x80 [(8, 0, 2), (20, 0, 7)]))),
     (if (2).testBit 1 then ((if (2).testBit 0 then (started ((fl [(cm 0x80 [(8, 0, 2), (20, 0, 7)])] (car { active := true }))) ((cm 0x80 [(8, 0, 2), (20, 0, 7)]))).regWrite 0 0x1830 (((cm 0x80 [(8, 0, 2), (20, 0, 7)])).arg 16 0 32) else started ((fl [(cm 0x80 [(8, 0, 2), (20, 0, 7)])] (car { active := true }))) ((cm 0x80 [(8, 0, 2), (20, 0, 7)])))).regWrite 0 0x1834 (((cm 0x80 [(8, 0, 2), (20, 0, 7)])).arg 20 0 32) else ((if (2).testBit 0 then (started ((fl [(cm 0x80 [(8, 0, 2), (20, 0, 7)])] (car { active := true }))) ((cm 0x80 [(8, 0, 2), (20, 0, 7)]))).regWrite 0 0x1830 (((cm 0x80 [(8, 0, 2), (20, 0, 7)])).arg 16 0 32) else started ((fl [(cm 0x80 [(8, 0, 2), (20, 0, 7)])] (car { active := true }))) ((cm 0x80 [(8, 0, 2), (20, 0, 7)]))))),
     (if (2).testBit 2 then ((if (2).testBit 1 then ((if (2).testBit 0 then (started ((fl [(cm 0x80 [(8, 0, 2), (20, 0, 7)])] (car { active := true }))) ((cm 0x80 [(8, 0, 2), (20, 0, 7)]))).regWrite 0 0x1830 (((cm 0x80 [(8, 0, 2), (20, 0, 7)])).arg 16 0 32) else started ((fl [(cm 0x80 [(8, 0, 2), (20, 0, 7)])] (car { active := true }))) ((cm 0x80 [(8, 0, 2), (20, 0, 7)])))).regWrite 0 0x1834 (((cm 0x80 [(8, 0, 2), (20, 0, 7)])).arg 20 0 32) else ((if (2).testBit 0 then (started ((fl [(cm 0x80 [(8, 0, 2), (20, 0, 7)])] (car { active := true }))) ((cm 0x80 [(8, 0, 2), (20, 0, 7)]))).regWrite 0 0x1830 (((cm 0x80 [(8, 0, 2), (20, 0, 7)])).arg 16 0 32) else started ((fl [(cm 0x80 [(8, 0, 2), (20, 0, 7)])] (car { active := true }))) ((cm 0x80 [(8, 0, 2), (20, 0, 7)])))))).regWrite 0 0x1838 (((cm 0x80 [(8, 0, 2), (20, 0, 7)])).arg 24 0 32) else ((if (2).testBit 1 then ((if (2).testBit 0 then (started ((fl [(cm 0x80 [(8, 0, 2), (20, 0, 7)])] (car { active := true }))) ((cm 0x80 [(8, 0, 2), (20, 0, 7)]))).regWrite 0 0x1830 (((cm 0x80 [(8, 0, 2), (20, 0, 7)])).arg 16 0 32) else started ((fl [(cm 0x80 [(8, 0, 2), (20, 0, 7)])] (car { active := true }))) ((cm 0x80 [(8, 0, 2), (20, 0, 7)])))).regWrite 0 0x1834 (((cm 0x80 [(8, 0, 2), (20, 0, 7)])).arg 20 0 32) else ((if (2).testBit 0 then (started ((fl [(cm 0x80 [(8, 0, 2), (20, 0, 7)])] (car { active := true }))) ((cm 0x80 [(8, 0, 2), (20, 0, 7)]))).regWrite 0 0x1830 (((cm 0x80 [(8, 0, 2), (20, 0, 7)])).arg 16 0 32) else started ((fl [(cm 0x80 [(8, 0, 2), (20, 0, 7)])] (car { active := true }))) ((cm 0x80 [(8, 0, 2), (20, 0, 7)]))))))),
     (if (2).testBit 3 then ((if (2).testBit 2 then ((if (2).testBit 1 then ((if (2).testBit 0 then (started ((fl [(cm 0x80 [(8, 0, 2), (20, 0, 7)])] (car { active := true }))) ((cm 0x80 [(8, 0, 2), (20, 0, 7)]))).regWrite 0 0x1830 (((cm 0x80 [(8, 0, 2), (20, 0, 7)])).arg 16 0 32) else started ((fl [(cm 0x80 [(8, 0, 2), (20, 0, 7)])] (car { active := true }))) ((cm 0x80 [(8, 0, 2), (20, 0, 7)])))).regWrite 0 0x1834 (((cm 0x80 [(8, 0, 2), (20, 0, 7)])).arg 20 0 32) else ((if (2).testBit 0 then (started ((fl [(cm 0x80 [(8, 0, 2), (20, 0, 7)])] (car { active := true }))) ((cm 0x80 [(8, 0, 2), (20, 0, 7)]))).regWrite 0 0x1830 (((cm 0x80 [(8, 0, 2), (20, 0, 7)])).arg 16 0 32) else started ((fl [(cm 0x80 [(8, 0, 2), (20, 0, 7)])] (car { active := true }))) ((cm 0x80 [(8, 0, 2), (20, 0, 7)])))))).regWrite 0 0x1838 (((cm 0x80 [(8, 0, 2), (20, 0, 7)])).arg 24 0 32) else ((if (2).testBit 1 then ((if (2).testBit 0 then (started ((fl [(cm 0x80 [(8, 0, 2), (20, 0, 7)])] (car { active := true }))) ((cm 0x80 [(8, 0, 2), (20, 0, 7)]))).regWrite 0 0x1830 (((cm 0x80 [(8, 0, 2), (20, 0, 7)])).arg 16 0 32) else started ((fl [(cm 0x80 [(8, 0, 2), (20, 0, 7)])] (car { active := true }))) ((cm 0x80 [(8, 0, 2), (20, 0, 7)])))).regWrite 0 0x1834 (((cm 0x80 [(8, 0, 2), (20, 0, 7)])).arg 20 0 32) else ((if (2).testBit 0 then (started ((fl [(cm 0x80 [(8, 0, 2), (20, 0, 7)])] (car { active := true }))) ((cm 0x80 [(8, 0, 2), (20, 0, 7)]))).regWrite 0 0x1830 (((cm 0x80 [(8, 0, 2), (20, 0, 7)])).arg 16 0 32) else started ((fl [(cm 0x80 [(8, 0, 2), (20, 0, 7)])] (car { active := true }))) ((cm 0x80 [(8, 0, 2), (20, 0, 7)])))))))).regWrite 0 0x183C (((cm 0x80 [(8, 0, 2), (20, 0, 7)])).arg 28 0 32) else ((if (2).testBit 2 then ((if (2).testBit 1 then ((if (2).testBit 0 then (started ((fl [(cm 0x80 [(8, 0, 2), (20, 0, 7)])] (car { active := true }))) ((cm 0x80 [(8, 0, 2), (20, 0, 7)]))).regWrite 0 0x1830 (((cm 0x80 [(8, 0, 2), (20, 0, 7)])).arg 16 0 32) else started ((fl [(cm 0x80 [(8, 0, 2), (20, 0, 7)])] (car { active := true }))) ((cm 0x80 [(8, 0, 2), (20, 0, 7)])))).regWrite 0 0x1834 (((cm 0x80 [(8, 0, 2), (20, 0, 7)])).arg 20 0 32) else ((if (2).testBit 0 then (started ((fl [(cm 0x80 [(8, 0, 2), (20, 0, 7)])] (car { active := true }))) ((cm 0x80 [(8, 0, 2), (20, 0, 7)]))).regWrite 0 0x1830 (((cm 0x80 [(8, 0, 2), (20, 0, 7)])).arg 16 0 32) else started ((fl [(cm 0x80 [(8, 0, 2), (20, 0, 7)])] (car { active := true }))) ((cm 0x80 [(8, 0, 2), (20, 0, 7)])))))).regWrite 0 0x1838 (((cm 0x80 [(8, 0, 2), (20, 0, 7)])).arg 24 0 32) else ((if (2).testBit 1 then ((if (2).testBit 0 then (started ((fl [(cm 0x80 [(8, 0, 2), (20, 0, 7)])] (car { active := true }))) ((cm 0x80 [(8, 0, 2), (20, 0, 7)]))).regWrite 0 0x1830 (((cm 0x80 [(8, 0, 2), (20, 0, 7)])).arg 16 0 32) else started ((fl [(cm 0x80 [(8, 0, 2), (20, 0, 7)])] (car { active := true }))) ((cm 0x80 [(8, 0, 2), (20, 0, 7)])))).regWrite 0 0x1834 (((cm 0x80 [(8, 0, 2), (20, 0, 7)])).arg 20 0 32) else ((if (2).testBit 0 then (started ((fl [(cm 0x80 [(8, 0, 2), (20, 0, 7)])] (car { active := true }))) ((cm 0x80 [(8, 0, 2), (20, 0, 7)]))).regWrite 0 0x1830 (((cm 0x80 [(8, 0, 2), (20, 0, 7)])).arg 16 0 32) else started ((fl [(cm 0x80 [(8, 0, 2), (20, 0, 7)])] (car { active := true }))) ((cm 0x80 [(8, 0, 2), (20, 0, 7)]))))))))),
     (if (2).testBit 4 then ((if (2).testBit 3 then ((if (2).testBit 2 then ((if (2).testBit 1 then ((if (2).testBit 0 then (started ((fl [(cm 0x80 [(8, 0, 2), (20, 0, 7)])] (car { active := true }))) ((cm 0x80 [(8, 0, 2), (20, 0, 7)]))).regWrite 0 0x1830 (((cm 0x80 [(8, 0, 2), (20, 0, 7)])).arg 16 0 32) else started ((fl [(cm 0x80 [(8, 0, 2), (20, 0, 7)])] (car { active := true }))) ((cm 0x80 [(8, 0, 2), (20, 0, 7)])))).regWrite 0 0x1834 (((cm 0x80 [(8, 0, 2), (20, 0, 7)])).arg 20 0 32) else ((if (2).testBit 0 then (started ((fl [(cm 0x80 [(8, 0, 2), (20, 0, 7)])] (car { active := true }))) ((cm 0x80 [(8, 0, 2), (20, 0, 7)]))).regWrite 0 0x1830 (((cm 0x80 [(8, 0, 2), (20, 0, 7)])).arg 16 0 32) else started ((fl [(cm 0x80 [(8, 0, 2), (20, 0, 7)])] (car { active := true }))) ((cm 0x80 [(8, 0, 2), (20, 0, 7)])))))).regWrite 0 0x1838 (((cm 0x80 [(8, 0, 2), (20, 0, 7)])).arg 24 0 32) else ((if (2).testBit 1 then ((if (2).testBit 0 then (started ((fl [(cm 0x80 [(8, 0, 2), (20, 0, 7)])] (car { active := true }))) ((cm 0x80 [(8, 0, 2), (20, 0, 7)]))).regWrite 0 0x1830 (((cm 0x80 [(8, 0, 2), (20, 0, 7)])).arg 16 0 32) else started ((fl [(cm 0x80 [(8, 0, 2), (20, 0, 7)])] (car { active := true }))) ((cm 0x80 [(8, 0, 2), (20, 0, 7)])))).regWrite 0 0x1834 (((cm 0x80 [(8, 0, 2), (20, 0, 7)])).arg 20 0 32) else ((if (2).testBit 0 then (started ((fl [(cm 0x80 [(8, 0, 2), (20, 0, 7)])] (car { active := true }))) ((cm 0x80 [(8, 0, 2), (20, 0, 7)]))).regWrite 0 0x1830 (((cm 0x80 [(8, 0, 2), (20, 0, 7)])).arg 16 0 32) else started ((fl [(cm 0x80 [(8, 0, 2), (20, 0, 7)])] (car { active := true }))) ((cm 0x80 [(8, 0, 2), (20, 0, 7)])))))))).regWrite 0 0x183C (((cm 0x80 [(8, 0, 2), (20, 0, 7)])).arg 28 0 32) else ((if (2).testBit 2 then ((if (2).testBit 1 then ((if (2).testBit 0 then (started ((fl [(cm 0x80 [(8, 0, 2), (20, 0, 7)])] (car { active := true }))) ((cm 0x80 [(8, 0, 2), (20, 0, 7)]))).regWrite 0 0x1830 (((cm 0x80 [(8, 0, 2), (20, 0, 7)])).arg 16 0 32) else started ((fl [(cm 0x80 [(8, 0, 2), (20, 0, 7)])] (car { active := true }))) ((cm 0x80 [(8, 0, 2), (20, 0, 7)])))).regWrite 0 0x1834 (((cm 0x80 [(8, 0, 2), (20, 0, 7)])).arg 20 0 32) else ((if (2).testBit 0 then (started ((fl [(cm 0x80 [(8, 0, 2), (20, 0, 7)])] (car { active := true }))) ((cm 0x80 [(8, 0, 2), (20, 0, 7)]))).regWrite 0 0x1830 (((cm 0x80 [(8, 0, 2), (20, 0, 7)])).arg 16 0 32) else started ((fl [(cm 0x80 [(8, 0, 2), (20, 0, 7)])] (car { active := true }))) ((cm 0x80 [(8, 0, 2), (20, 0, 7)])))))).regWrite 0 0x1838 (((cm 0x80 [(8, 0, 2), (20, 0, 7)])).arg 24 0 32) else ((if (2).testBit 1 then ((if (2).testBit 0 then (started ((fl [(cm 0x80 [(8, 0, 2), (20, 0, 7)])] (car { active := true }))) ((cm 0x80 [(8, 0, 2), (20, 0, 7)]))).regWrite 0 0x1830 (((cm 0x80 [(8, 0, 2), (20, 0, 7)])).arg 16 0 32) else started ((fl [(cm 0x80 [(8, 0, 2), (20, 0, 7)])] (car { active := true }))) ((cm 0x80 [(8, 0, 2), (20, 0, 7)])))).regWrite 0 0x1834 (((cm 0x80 [(8, 0, 2), (20, 0, 7)])).arg 20 0 32) else ((if (2).testBit 0 then (started ((fl [(cm 0x80 [(8, 0, 2), (20, 0, 7)])] (car { active := true }))) ((cm 0x80 [(8, 0, 2), (20, 0, 7)]))).regWrite 0 0x1830 (((cm 0x80 [(8, 0, 2), (20, 0, 7)])).arg 16 0 32) else started ((fl [(cm 0x80 [(8, 0, 2), (20, 0, 7)])] (car { active := true }))) ((cm 0x80 [(8, 0, 2), (20, 0, 7)])))))))))).regWrite 0 0x1820 (((cm 0x80 [(8, 0, 2), (20, 0, 7)])).arg 32 0 64) else ((if (2).testBit 3 then ((if (2).testBit 2 then ((if (2).testBit 1 then ((if (2).testBit 0 then (started ((fl [(cm 0x80 [(8, 0, 2), (20, 0, 7)])] (car { active := true }))) ((cm 0x80 [(8, 0, 2), (20, 0, 7)]))).regWrite 0 0x1830 (((cm 0x80 [(8, 0, 2), (20, 0, 7)])).arg 16 0 32) else started ((fl [(cm 0x80 [(8, 0, 2), (20, 0, 7)])] (car { active := true }))) ((cm 0x80 [(8, 0, 2), (20, 0, 7)])))).regWrite 0 0x1834 (((cm 0x80 [(8, 0, 2), (20, 0, 7)])).arg 20 0 32) else ((if (2).testBit 0 then (started ((fl [(cm 0x80 [(8, 0, 2), (20, 0, 7)])] (car { active := true }))) ((cm 0x80 [(8, 0, 2), (20, 0, 7)]))).regWrite 0 0x1830 (((cm 0x80 [(8, 0, 2), (20, 0, 7)])).arg 16 0 32) else started ((fl [(cm 0x80 [(8, 0, 2), (20, 0, 7)])] (car { active := true }))) ((cm 0x80 [(8, 0, 2), (20, 0, 7)])))))).regWrite 0 0x1838 (((cm 0x80 [(8, 0, 2), (20, 0, 7)])).arg 24 0 32) else ((if (2).testBit 1 then ((if (2).testBit 0 then (started ((fl [(cm 0x80 [(8, 0, 2), (20, 0, 7)])] (car { active := true }))) ((cm 0x80 [(8, 0, 2), (20, 0, 7)]))).regWrite 0 0x1830 (((cm 0x80 [(8, 0, 2), (20, 0, 7)])).arg 16 0 32) else started ((fl [(cm 0x80 [(8, 0, 2), (20, 0, 7)])] (car { active := true }))) ((cm 0x80 [(8, 0, 2), (20, 0, 7)])))).regWrite 0 0x1834 (((cm 0x80 [(8, 0, 2), (20, 0, 7)])).arg 20 0 32) else ((if (2).testBit 0 then (started ((fl [(cm 0x80 [(8, 0, 2), (20, 0, 7)])] (car { active := true }))) ((cm 0x80 [(8, 0, 2), (20, 0, 7)]))).regWrite 0 0x1830 (((cm 0x80 [(8, 0, 2), (20, 0, 7)])).arg 16 0 32) else started ((fl [(cm 0x80 [(8, 0, 2), (20, 0, 7)])] (car { active := true }))) ((cm 0x80 [(8, 0, 2), (20, 0, 7)])))))))).regWrite 0 0x183C (((cm 0x80 [(8, 0, 2), (20, 0, 7)])).arg 28 0 32) else ((if (2).testBit 2 then ((if (2).testBit 1 then ((if (2).testBit 0 then (started ((fl [(cm 0x80 [(8, 0, 2), (20, 0, 7)])] (car { active := true }))) ((cm 0x80 [(8, 0, 2), (20, 0, 7)]))).regWrite 0 0x1830 (((cm 0x80 [(8, 0, 2), (20, 0, 7)])).arg 16 0 32) else started ((fl [(cm 0x80 [(8, 0, 2), (20, 0, 7)])] (car { active := true }))) ((cm 0x80 [(8, 0, 2), (20, 0, 7)])))).regWrite 0 0x1834 (((cm 0x80 [(8, 0, 2), (20, 0, 7)])).arg 20 0 32) else ((if (2).testBit 0 then (started ((fl [(cm 0x80 [(8, 0, 2), (20, 0, 7)])] (car { active := true }))) ((cm 0x80 [(8, 0, 2), (20, 0, 7)]))).regWrite 0 0x1830 (((cm 0x80 [(8, 0, 2), (20, 0, 7)])).arg 16 0 32) else started ((fl [(cm 0x80 [(8, 0, 2), (20, 0, 7)])] (car { active := true }))) ((cm 0x80 [(8, 0, 2), (20, 0, 7)])))))).regWrite 0 0x1838 (((cm 0x80 [(8, 0, 2), (20, 0, 7)])).arg 24 0 32) else ((if (2).testBit 1 then ((if (2).testBit 0 then (started ((fl [(cm 0x80 [(8, 0, 2), (20, 0, 7)])] (car { active := true }))) ((cm 0x80 [(8, 0, 2), (20, 0, 7)]))).regWrite 0 0x1830 (((cm 0x80 [(8, 0, 2), (20, 0, 7)])).arg 16 0 32) else started ((fl [(cm 0x80 [(8, 0, 2), (20, 0, 7)])] (car { active := true }))) ((cm 0x80 [(8, 0, 2), (20, 0, 7)])))).regWrite 0 0x1834 (((cm 0x80 [(8, 0, 2), (20, 0, 7)])).arg 20 0 32) else ((if (2).testBit 0 then (started ((fl [(cm 0x80 [(8, 0, 2), (20, 0, 7)])] (car { active := true }))) ((cm 0x80 [(8, 0, 2), (20, 0, 7)]))).regWrite 0 0x1830 (((cm 0x80 [(8, 0, 2), (20, 0, 7)])).arg 16 0 32) else started ((fl [(cm 0x80 [(8, 0, 2), (20, 0, 7)])] (car { active := true }))) ((cm 0x80 [(8, 0, 2), (20, 0, 7)]))))))))))),
     inv_of (by decide +kernel) (by decide +kernel),
     ⟨by decide +kernel, by decide +kernel, by decide +kernel, by decide +kernel, rfl, rfl, rfl, rfl, rfl, by decide +kernel, by decide +kernel, by decide +kernel, by decide +kernel, by decide +kernel⟩⟩,
   ⟨fl [(cm 0x81 [(32, 0, 1000000000)])], 0, 7, (cm 0x81 [(32, 0, 1000000000)]), 0, by decide +kernel⟩,
   ⟨fl [(cm 0x81 [(32, 0, 999999999)] 1)], 0, 7, (cm 0x81 [(32, 0, 999999999)] 1), 0, by decide +kernel⟩,
   ⟨fl [(cm 0x81 [(32, 0, 999999999)])], 0, 7, (cm 0x81 [(32, 0, 999999999)]), 0, by decide +kernel⟩,
   ⟨fl [(cm 0x81 [(16, 0, 5)])] ((pt { latches := [(5, 6)], defects := vset (Vector.replicate 8 {}) 4 { st := .declared } })), 0, 7, (cm 0x81 [(16,
     0, 5)]), 0, (5, 6), by decide +kernel⟩,
   ⟨fl [(cm 0x81 [(16, 0, 5)])] ((pt { latches := [(5, 6)] })), 0, 7, (cm 0x81 [(16, 0, 5)]), 0, (5, 6), by decide +kernel⟩,
   ⟨fl [(cm 0x81 [(16, 0, 5)])] ((rgs [(R.TK_STAT_SRC, 0, 1)] (pt { latches := [(5, 6)] }))), 0, 7, (cm 0x81 [(16, 0, 5)]), 0, (5, 6),
     (rec32 ((fl [(cm 0x81 [(16, 0, 5)])] ((rgs [(R.TK_STAT_SRC, 0, 1)] (pt { latches := [(5, 6)] })))).port (0)).rec_ 12 : Int) - ((fl [(cm 0x81 [(16, 0, 5)])] ((rgs [(R.TK_STAT_SRC, 0, 1)] (pt { latches := [(5, 6)] })))).rg R.PON_EQD_EQD (0) * 1000000 / ((fl [(cm 0x81 [(16, 0, 5)])] ((rgs [(R.TK_STAT_SRC, 0, 1)] (pt { latches := [(5, 6)] })))).port (0)).upKbps : Nat),
     (((cm 0x81 [(16, 0, 5)])).arg 24 0 48 * 1000000000 + ((cm 0x81 [(16, 0, 5)])).arg 32 0 32 : Nat) + ((rec32 ((fl [(cm 0x81 [(16, 0, 5)])] ((rgs [(R.TK_STAT_SRC, 0, 1)] (pt { latches := [(5, 6)] })))).port (0)).rec_ 12 : Int) - ((fl [(cm 0x81 [(16, 0, 5)])] ((rgs [(R.TK_STAT_SRC, 0, 1)] (pt { latches := [(5, 6)] })))).rg R.PON_EQD_EQD (0) * 1000000 / ((fl [(cm 0x81 [(16, 0, 5)])] ((rgs [(R.TK_STAT_SRC, 0, 1)] (pt { latches := [(5, 6)] })))).port (0)).upKbps : Nat)) * (rec16 ((fl [(cm 0x81 [(16, 0, 5)])] ((rgs [(R.TK_STAT_SRC, 0, 1)] (pt { latches := [(5, 6)] })))).port (0)).rec_ 6 : Int) / 65536 + (((fl [(cm 0x81 [(16, 0, 5)])] ((rgs [(R.TK_STAT_SRC, 0, 1)] (pt { latches := [(5, 6)] })))).tk.ns : Int) - ((5, 6)).2),
     ⟨by decide +kernel, by decide +kernel, by decide +kernel, by decide +kernel, by decide +kernel, by decide +kernel, by decide +kernel, by decide +kernel, rfl, rfl⟩⟩,
   ⟨fl [(cm 0x82 [(8, 0, 1), (16, 0, 4096)])], 0, 7, (cm 0x82 [(8, 0, 1), (16, 0, 4096)]), by decide +kernel⟩,
   ⟨fl [(cm 0x89 [(8, 0, 79)])], 0, 7, (cm 0x89 [(8, 0, 79)]), by decide +kernel⟩,
   ⟨fl [(cm 0x89 [(8, 0, 341)])], 0, 7, (cm 0x89 [(8, 0, 341)]), by decide +kernel⟩,
   ⟨fl [(cm 0x89 [(8, 0, 80)] 1)], 0, 7, (cm 0x89 [(8, 0, 80)] 1), by decide +kernel⟩,
   ⟨fl [(cm 0x89 [(8, 0, 340)])], 0, 7, (cm 0x89 [(8, 0, 340)]), by decide +kernel⟩,
   ⟨fl [(cm 0x8A [(8, 0, 1), (16, 0, 4096)])], 0, 7, (cm 0x8A [(8, 0, 1), (16, 0, 4096)]), by decide +kernel⟩,
   ⟨fl [(cm 0x90 [(16, 0, 1)])], 0, 7, (cm 0x90 [(16, 0, 1)]), 0, by decide +kernel⟩⟩

/-- Every hypothesis of OpticTimePowerAndDiagnosticCommands is met. -/
theorem hyps_met_OpticTimePowerAndDiagnosticCommands_3 :
  (∃ (s : State) (ring : Fin 64) (cid : Fin 65536) (c : Cmd) (n : Nat), Ready s ring cid 0x90 c ∧ c.arg 16 0 1 = 1 ∧ c.arg 24 0 16 = n ∧ c.only [(8,
    0, 64), (16, 0, 1), (20, 0, 32), (24, 0, 16)] = true ∧ (n = 0 ∨ 1024 < n)) ∧
  (∃ (s : State) (ring : Fin 64) (cid : Fin 65536) (c : Cmd) (n : Nat), Ready s ring cid 0x90 c ∧ c.arg 16 0 1 = 1 ∧ c.arg 24 0 16 = n ∧ c.only [(8,
    0, 64), (16, 0, 1), (20, 0, 32), (24, 0, 16)] = true ∧ 1 ≤ n ∧ n ≤ 1024 ∧ c.user ≠ 0) ∧
  (∃ (s : State) (ring : Fin 64) (cid : Fin 65536) (c : Cmd) (n : Nat), Ready s ring cid 0x90 c ∧ c.arg 16 0 1 = 1 ∧ c.arg 24 0 16 = n ∧ c.only [(8,
    0, 64), (16, 0, 1), (20, 0, 32), (24, 0, 16)] = true ∧ 1 ≤ n ∧ n ≤ 1024 ∧ c.user = 0 ∧ s.log.recs = []) ∧
  (∃ (s : State) (ring : Fin 64) (cid : Fin 65536) (c : Cmd) (n : Nat) (r : LogRec) (rest : List LogRec) (d : Nat), Ready s ring cid 0x90 c ∧ c.arg
    16 0 1 = 1 ∧ c.arg 24 0 16 = n ∧ c.only [(8, 0, 64), (16, 0, 1), (20, 0, 32), (24, 0, 16)] = true ∧ 1 ≤ n ∧ n ≤ 1024 ∧ c.user = 0 ∧ s.log.recs =
    r :: rest ∧ s.log.recs.length ≤ 2 ^ 31 ∧ d = (c.arg 20 0 32 + 2 ^ 32 - r.num) % 2 ^ 32 ∧ s.log.recs.length ≤ d ∧ d < 2 ^ 31) ∧
  (∃ (s : State) (ring : Fin 64) (cid : Fin 65536) (c : Cmd) (n : Nat) (r : LogRec) (rest : List LogRec) (d : Nat) (rs : List LogRec), Ready s ring
    cid 0x90 c ∧ c.arg 16 0 1 = 1 ∧ c.arg 24 0 16 = n ∧ c.only [(8, 0, 64), (16, 0, 1), (20, 0, 32), (24, 0, 16)] = true ∧ 1 ≤ n ∧ n ≤ 1024 ∧ c.user
    = 0 ∧ s.log.recs = r :: rest ∧ s.log.recs.length ≤ 2 ^ 31 ∧ d = (c.arg 20 0 32 + 2 ^ 32 - r.num) % 2 ^ 32 ∧ rs = (s.log.recs.drop (if 2 ^ 31 ≤ d
    then 0 else d)).take n ∧ (∀ x ∈ rs, x.args.length = 5) ∧ (d < s.log.recs.length ∨ 2 ^ 31 ≤ d)) ∧
  (∃ (s : State) (ring : Fin 64) (cid : Fin 65536) (c : Cmd) (n : Nat) (r : LogRec) (rest : List LogRec) (d : Nat) (rs : List LogRec), Ready s ring
    cid 0x90 c ∧ c.arg 16 0 1 = 1 ∧ c.arg 24 0 16 = n ∧ c.only [(8, 0, 64), (16, 0, 1), (20, 0, 32), (24, 0, 16)] = true ∧ 1 ≤ n ∧ n ≤ 1024 ∧ c.user
    = 0 ∧ s.log.recs = r :: rest ∧ s.log.recs.length ≤ 2 ^ 31 ∧ d = (c.arg 20 0 32 + 2 ^ 32 - r.num) % 2 ^ 32 ∧ rs = (s.log.recs.drop (if 2 ^ 31 ≤ d
    then 0 else d)).take n ∧ (∀ x ∈ rs, x.args.length = 5) ∧ (d < s.log.recs.length ∨ 2 ^ 31 ≤ d)) ∧
  (∃ (s : State) (ring : Fin 64) (cid : Fin 65536) (c : Cmd) (act : Nat) (n : Nat) (a : Nat), Ready s ring cid 0x91 c ∧ c.arg 8 0 8 = act ∧ c.arg 16
    0 64 = a ∧ c.arg 24 0 32 = n ∧ c.only [(8, 0, 8), (9, 0, 1), (16, 0, 64), (24, 0, 32)] = true ∧ (3 < act ∨ (act = 0 ∧ (c.arg 9 0 1 = 0 ∨ a % 4096
    ≠ 0 ∨ n % 4096 ≠ 0 ∨ n < 2 ^ 20)))) ∧
  (∃ (s : State) (ring : Fin 64) (cid : Fin 65536) (c : Cmd) (act : Nat) (n : Nat) (a : Nat), Ready s ring cid 0x91 c ∧ c.arg 8 0 8 = act ∧ c.arg 16
    0 64 = a ∧ c.arg 24 0 32 = n ∧ c.only [(8, 0, 8), (9, 0, 1), (16, 0, 64), (24, 0, 32)] = true ∧ (3 < act ∨ (act = 0 ∧ (c.arg 9 0 1 = 0 ∨ a % 4096
    ≠ 0 ∨ n % 4096 ≠ 0 ∨ n < 2 ^ 20)))) ∧
  (∃ (s : State) (ring : Fin 64) (cid : Fin 65536) (c : Cmd) (act : Nat) (n : Nat) (a : Nat), Ready s ring cid 0x91 c ∧ c.arg 8 0 8 = act ∧ c.arg 16
    0 64 = a ∧ c.arg 24 0 32 = n ∧ c.only [(8, 0, 8), (9, 0, 1), (16, 0, 64), (24, 0, 32)] = true ∧ act ≤ 3 ∧ (act = 0 → a % 4096 = 0 ∧ n % 4096 = 0
    ∧ 2 ^ 20 ≤ n) ∧ c.arg 9 0 1 = 1 ∧ c.user ≠ 0) ∧
  (∃ (s : State) (ring : Fin 64) (cid : Fin 65536) (c : Cmd) (act : Nat) (n : Nat) (a : Nat), Ready s ring cid 0x91 c ∧ c.arg 8 0 8 = act ∧ c.arg 16
    0 64 = a ∧ c.arg 24 0 32 = n ∧ c.only [(8, 0, 8), (9, 0, 1), (16, 0, 64), (24, 0, 32)] = true ∧ act = 0 ∧ c.arg 9 0 1 = 1 ∧ a % 4096 = 0 ∧ n %
    4096 = 0 ∧ 2 ^ 20 ≤ n ∧ c.user = 0) ∧
  (∃ (s : State) (ring : Fin 64) (cid : Fin 65536) (c : Cmd) (act : Nat) (n : Nat) (a : Nat), Ready s ring cid 0x91 c ∧ c.arg 8 0 8 = act ∧ c.arg 16
    0 64 = a ∧ c.arg 24 0 32 = n ∧ c.only [(8, 0, 8), (9, 0, 1), (16, 0, 64), (24, 0, 32)] = true ∧ act = 1 ∧ c.user = 0) ∧
  (∃ (s : State) (ring : Fin 64) (cid : Fin 65536) (c : Cmd) (act : Nat) (n : Nat) (a : Nat), Ready s ring cid 0x91 c ∧ c.arg 8 0 8 = act ∧ c.arg 16
    0 64 = a ∧ c.arg 24 0 32 = n ∧ c.only [(8, 0, 8), (9, 0, 1), (16, 0, 64), (24, 0, 32)] = true ∧ act = 2 ∧ c.user = 0 ∧ c.arg 9 0 1 = 1 ∧
    s.flash.dump = []) ∧
  (∃ (s : State) (ring : Fin 64) (cid : Fin 65536) (c : Cmd) (act : Nat) (n : Nat) (a : Nat), Ready s ring cid 0x91 c ∧ c.arg 8 0 8 = act ∧ c.arg 16
    0 64 = a ∧ c.arg 24 0 32 = n ∧ c.only [(8, 0, 8), (9, 0, 1), (16, 0, 64), (24, 0, 32)] = true ∧ act = 2 ∧ c.user = 0 ∧ c.arg 9 0 1 = 1 ∧
    s.flash.dump ≠ [] ∧ 1 ≤ n) ∧
  (∃ (s : State) (ring : Fin 64) (cid : Fin 65536) (c : Cmd) (act : Nat) (n : Nat) (a : Nat), Ready s ring cid 0x91 c ∧ c.arg 8 0 8 = act ∧ c.arg 16
    0 64 = a ∧ c.arg 24 0 32 = n ∧ c.only [(8, 0, 8), (9, 0, 1), (16, 0, 64), (24, 0, 32)] = true ∧ act = 3 ∧ c.user = 0) ∧
  (∃ (s : State) (ring : Fin 64) (cid : Fin 65536) (c : Cmd), Ready s ring cid 0x92 c ∧ s.rg R.PST_STAT_STATE ≠ 2 ∧ c.only [(8, 0, 6)] = false) ∧
  (∃ (s : State) (ring : Fin 64) (cid : Fin 65536) (c : Cmd), Ready s ring cid 0x92 c ∧ s.rg R.PST_STAT_STATE ≠ 2 ∧ c.only [(8, 0, 6)] = true ∧
    c.user ≠ 0) ∧
  (∃ (s : State) (ring : Fin 64) (cid : Fin 65536) (c : Cmd), Ready s ring cid 0x92 c ∧ s.rg R.PST_STAT_STATE ≠ 2 ∧ c.only [(8, 0, 6)] = true ∧
    c.user = 0) ∧
  (∃ (s : State) (ring : Fin 64) (cid : Fin 65536) (c : Cmd) (failed : BitVec 6) (skip : Nat), s.cmd? ring cid = some c ∧ c.opcode = 0x92 ∧ c.started
    = true ∧ skip = c.aux.headD 0 ∧ (∀ i, i < 6 → (c.arg 8 0 6).testBit i = true → skip.testBit i = false → failed.getLsbD i = false)) ∧
  (∃ (s : State) (ring : Fin 64) (cid : Fin 65536) (c : Cmd) (failed : BitVec 6) (skip : Nat), s.cmd? ring cid = some c ∧ c.opcode = 0x92 ∧ c.started
    = true ∧ skip = c.aux.headD 0 ∧ (∃ i, i < 6 ∧ (c.arg 8 0 6).testBit i = true ∧ skip.testBit i = false ∧ failed.getLsbD i = true)) :=
  ⟨⟨fl [(cm 0x90 [(16, 0, 1), (24, 0, 1025)])], 0, 7, (cm 0x90 [(16, 0, 1), (24, 0, 1025)]), 1025, by decide +kernel⟩,
   ⟨fl [(cm 0x90 [(16, 0, 1), (24, 0, 1024)] 1)], 0, 7, (cm 0x90 [(16, 0, 1), (24, 0, 1024)] 1), 1024, by decide +kernel⟩,
   ⟨fl [(cm 0x90 [(16, 0, 1), (24, 0, 1)])], 0, 7, (cm 0x90 [(16, 0, 1), (24, 0, 1)]), 1, by decide +kernel⟩,
   ⟨fl [(cm 0x90 [(16, 0, 1), (24, 0, 1), (20, 0, 0)])] (({ log := { recs := [lr 0xFFFFFFFF] } })), 0, 7, (cm 0x90 [(16, 0, 1), (24, 0, 1), (20, 0,
     0)]), 1, lr 0xFFFFFFFF, [], 1, by decide +kernel⟩,
   ⟨fl [(cm 0x90 [(16, 0, 1), (24, 0, 1), (20, 0, 5)])] (({ log := { recs := [lr 4, lr 5] } })), 0, 7, (cm 0x90 [(16, 0, 1), (24, 0, 1), (20, 0,
     5)]), 1, lr 4, [lr 5], 1, [lr 5], by decide +kernel⟩,
   ⟨fl [(cm 0x90 [(16, 0, 1), (24, 0, 1024)])] (({ log := { recs := [lr 4, lr 5] } })), 0, 7, (cm 0x90 [(16, 0, 1), (24, 0, 1024)]), 1024, lr 4, [lr
     5], 0xFFFFFFFC, [lr 4, lr 5], by decide +kernel⟩,
   ⟨fl [(cm 0x91 [(8, 0, 4)])], 0, 7, (cm 0x91 [(8, 0, 4)]), 4, 0, 0, by decide +kernel⟩,
   ⟨fl [(cm 0x91 [(9, 0, 1), (16, 0, 4096), (24, 0, 0xFF000)])], 0, 7, (cm 0x91 [(9, 0, 1), (16, 0, 4096), (24, 0, 0xFF000)]), 0, 0xFF000, 4096,
     by decide +kernel⟩,
   ⟨fl [(cm 0x91 [(8, 0, 3), (9, 0, 1)] 1)], 0, 7, (cm 0x91 [(8, 0, 3), (9, 0, 1)] 1), 3, 0, 0, by decide +kernel⟩,
   ⟨fl [(cm 0x91 [(9, 0, 1), (16, 0, 4096), (24, 0, 0x100000)])], 0, 7, (cm 0x91 [(9, 0, 1), (16, 0, 4096), (24, 0, 0x100000)]), 0, 0x100000, 4096,
     by decide +kernel⟩,
   ⟨fl [(cm 0x91 [(8, 0, 1)])], 0, 7, (cm 0x91 [(8, 0, 1)]), 1, 0, 0, by decide +kernel⟩,
   ⟨fl [(cm 0x91 [(8, 0, 2), (9, 0, 1)])], 0, 7, (cm 0x91 [(8, 0, 2), (9, 0, 1)]), 2, 0, 0, by decide +kernel⟩,
   ⟨fl [(cm 0x91 [(8, 0, 2), (9, 0, 1), (24, 0, 1)])] (({ flash := { dump := [1] } })), 0, 7, (cm 0x91 [(8, 0, 2), (9, 0, 1), (24, 0, 1)]), 2, 1, 0,
     by decide +kernel⟩,
   ⟨fl [(cm 0x91 [(8, 0, 3)])], 0, 7, (cm 0x91 [(8, 0, 3)]), 3, 0, 0, by decide +kernel⟩,
   ⟨fl [(cm 0x92 [(8, 6, 1)])], 0, 7, (cm 0x92 [(8, 6, 1)]), by decide +kernel⟩,
   ⟨fl [(cm 0x92 [(8, 0, 63)] 1)], 0, 7, (cm 0x92 [(8, 0, 63)] 1), by decide +kernel⟩,
   ⟨fl [(cm 0x92 [(8, 0, 63)])], 0, 7, (cm 0x92 [(8, 0, 63)]), by decide +kernel⟩,
   ⟨fl [{ cm 0x92 [(8, 0, 3)] with started := true, aux := [2] }], 0, 7, { cm 0x92 [(8, 0, 3)] with started := true, aux := [2] }, 0x3E, 2,
     by decide +kernel⟩,
   ⟨fl [{ cm 0x92 [(8, 0, 3)] with started := true, aux := [2] }], 0, 7, { cm 0x92 [(8, 0, 3)] with started := true, aux := [2] }, 1, 2,
     by decide +kernel⟩⟩

/-- Every hypothesis of ProgramHeatAndStreamCommands is met. -/
theorem hyps_met_ProgramHeatAndStreamCommands_1 :
  (∃ (s : State) (ring : Fin 64) (cid : Fin 65536) (c : Cmd) (img : List Byte) (lanes : List Nat), Ready s ring cid 0x0C c ∧ c.only [(8, 0, 64), (16,
    0, 32), (20, 0, 8), (21, 0, 1), (24, 0, 24), (32, 0, 64)] = true ∧ c.arg 24 0 24 % 64 = 0 ∧ c.arg 32 0 64 % 64 = 0 ∧ c.arg 21 0 1 = 1 ∧
    img.length = c.arg 16 0 32 ∧ s.host.linkUp = true ∧ ((vget s.host.fns c.user).bme = true) ∧ lanes = (s.lanesFor (c.arg 20 0 8)).take (progLanes
    img) ∧ imageOk img img.length = true ∧ s.residentsOk img (lanes.map (fun n => n * 0x0100_0000 + c.arg 24 0 24)) (c.arg 24 0 24) (c.arg 32 0 64) =
    true ∧ ((s.lanesFor (c.arg 20 0 8)).length < progLanes img)) ∧
  (∃ (s : State) (ring : Fin 64) (cid : Fin 65536) (c : Cmd) (img : List Byte) (lanes : List Nat), Ready s ring cid 0x0C c ∧ c.only [(8, 0, 64), (16,
    0, 32), (20, 0, 8), (21, 0, 1), (24, 0, 24), (32, 0, 64)] = true ∧ c.arg 24 0 24 % 64 = 0 ∧ c.arg 32 0 64 % 64 = 0 ∧ c.arg 21 0 1 = 1 ∧
    img.length = c.arg 16 0 32 ∧ s.host.linkUp = true ∧ ((vget s.host.fns c.user).bme = true) ∧ lanes = (s.lanesFor (c.arg 20 0 8)).take (progLanes
    img) ∧ imageOk img img.length = true ∧ s.residentsOk img (lanes.map (fun n => n * 0x0100_0000 + c.arg 24 0 24)) (c.arg 24 0 24) (c.arg 32 0 64) =
    true ∧ progLanes img ≤ (s.lanesFor (c.arg 20 0 8)).length ∧ s.tablesBound img lanes = false ∧ s.progs.length < 64 ∧ ((s.progs.map (fun p =>
    tableBytes p.image)).sum + tableBytes img ≤ 2 ^ 23)) ∧
  (∃ (s : State) (ring : Fin 64) (cid : Fin 65536) (c : Cmd) (img : List Byte) (lanes : List Nat), Ready s ring cid 0x0C c ∧ c.only [(8, 0, 64), (16,
    0, 32), (20, 0, 8), (21, 0, 1), (24, 0, 24), (32, 0, 64)] = true ∧ c.arg 24 0 24 % 64 = 0 ∧ c.arg 32 0 64 % 64 = 0 ∧ c.arg 21 0 1 = 1 ∧
    img.length = c.arg 16 0 32 ∧ s.host.linkUp = true ∧ ((vget s.host.fns c.user).bme = true) ∧ lanes = (s.lanesFor (c.arg 20 0 8)).take (progLanes
    img) ∧ imageOk img img.length = true ∧ s.residentsOk img (lanes.map (fun n => n * 0x0100_0000 + c.arg 24 0 24)) (c.arg 24 0 24) (c.arg 32 0 64) =
    true ∧ progLanes img ≤ (s.lanesFor (c.arg 20 0 8)).length ∧ s.tablesBound img lanes = false ∧ s.progs.length < 64 ∧ ((s.progs.map (fun p =>
    tableBytes p.image)).sum + tableBytes img ≤ 2 ^ 23)) ∧
  (∃ (s : State) (ring : Fin 64) (cid : Fin 65536) (c : Cmd) (img : List Byte) (lanes : List Nat), Ready s ring cid 0x0C c ∧ c.only [(8, 0, 64), (16,
    0, 32), (20, 0, 8), (21, 0, 1), (24, 0, 24), (32, 0, 64)] = true ∧ c.arg 24 0 24 % 64 = 0 ∧ c.arg 32 0 64 % 64 = 0 ∧ c.arg 21 0 1 = 1 ∧
    img.length = c.arg 16 0 32 ∧ s.host.linkUp = true ∧ ((vget s.host.fns c.user).bme = true) ∧ lanes = (s.lanesFor (c.arg 20 0 8)).take (progLanes
    img) ∧ imageOk img img.length = false) :=
  ⟨⟨fl [(cm 0x0C (pl 0))], 0, 7, (cm 0x0C (pl 0)), im, ((fl [(cm 0x0C (pl 0))]).lanesFor (((cm 0x0C (pl 0))).arg 20 0 8)).take (progLanes (im)),
     ⟨by decide +kernel, by decide +kernel, by decide +kernel, by decide +kernel, by decide +kernel, by decide +kernel, by decide +kernel, by decide +kernel, rfl, by decide +kernel, by decide +kernel, by decide +kernel⟩⟩,
   ⟨fl [(cm 0x0C (pl 1))], 0, 7, (cm 0x0C (pl 1)), im, ((fl [(cm 0x0C (pl 1))]).lanesFor (((cm 0x0C (pl 1))).arg 20 0 8)).take (progLanes (im)),
     ⟨by decide +kernel, by decide +kernel, by decide +kernel, by decide +kernel, by decide +kernel, by decide +kernel, by decide +kernel, by decide +kernel, rfl, by decide +kernel, by decide +kernel, by decide +kernel, by decide +kernel, by decide +kernel, by decide +kernel⟩⟩,
   ⟨fl [(cm 0x0C (pl 255))] (({ progs := List.replicate 63 (pg true) })), 0, 7, (cm 0x0C (pl 255)), im,
     ((fl [(cm 0x0C (pl 255))] (({ progs := List.replicate 63 (pg true) }))).lanesFor (((cm 0x0C (pl 255))).arg 20 0 8)).take (progLanes (im)),
     ⟨by decide +kernel, by decide +kernel, by decide +kernel, by decide +kernel, by decide +kernel, by decide +kernel, by decide +kernel, by decide +kernel, rfl, by decide +kernel, by decide +kernel, by decide +kernel, by decide +kernel, by decide +kernel, by decide +kernel⟩⟩,
   ⟨fl [(cm 0x0C [(8, 0, 4096), (16, 0, 1), (20, 0, 1), (21, 0, 1)])], 0, 7, (cm 0x0C [(8, 0, 4096), (16, 0, 1), (20, 0, 1), (21, 0, 1)]), [0], ((fl
     [(cm 0x0C [(8, 0, 4096), (16, 0, 1), (20, 0, 1), (21, 0, 1)])]).lanesFor (((cm 0x0C [(8, 0, 4096), (16, 0, 1), (20, 0, 1), (21, 0, 1)])).arg 20
     0 8)).take (progLanes ([0])),
     ⟨by decide +kernel, by decide +kernel, by decide +kernel, by decide +kernel, by decide +kernel, by decide +kernel, by decide +kernel, by decide +kernel, rfl, by decide +kernel⟩⟩⟩

/-- Every hypothesis of ProgramHeatAndStreamCommands is met. -/
theorem hyps_met_ProgramHeatAndStreamCommands_2 :
  (∃ (s : State) (ring : Fin 64) (cid : Fin 65536) (c : Cmd) (p : Prog), Ready s ring cid 0x0D c ∧ c.only [(8, 0, 32)] = true ∧ s.prog? (c.arg 8 0
    32) = some p ∧ s.tagOk p = false) ∧
  (∃ (s : State) (ring : Fin 64) (cid : Fin 65536) (c : Cmd) (p : Prog), Ready s ring cid 0x0D c ∧ c.only [(8, 0, 32)] = true ∧ s.prog? (c.arg 8 0
    32) = some p ∧ s.tagOk p = true ∧ c.user ≠ p.user) ∧
  (∃ (s : State) (ring : Fin 64) (cid : Fin 65536) (c : Cmd) (p : Prog), Ready s ring cid 0x0D c ∧ c.only [(8, 0, 32)] = true ∧ s.prog? (c.arg 8 0
    32) = some p ∧ s.tagOk p = true ∧ c.user = p.user) ∧
  (∃ (s : State) (ring : Fin 64) (cid : Fin 65536) (c : Cmd) (p : Prog), Ready s ring cid 0x0E c ∧ c.only [(8, 0, 32)] = true ∧ s.prog? (c.arg 8 0
    32) = some p ∧ s.progBusy p.handle = true) :=
  ⟨⟨fl [(cm 0x0D [(8, 0, 9)])] (({ progs := [pg false] })), 0, 7, (cm 0x0D [(8, 0, 9)]), pg false, by decide +kernel⟩,
   ⟨fl [(cm 0x0D [(8, 0, 9)] 1)] ((tgs)), 0, 7, (cm 0x0D [(8, 0, 9)] 1), tg,
     ⟨by decide +kernel, by decide +kernel, by decide +kernel, tag_ok _, by decide +kernel⟩⟩,
   ⟨fl [(cm 0x0D [(8, 0, 9)])] ((tgs)), 0, 7, (cm 0x0D [(8, 0, 9)]), tg,
     ⟨by decide +kernel, by decide +kernel, by decide +kernel, tag_ok _, by decide +kernel⟩⟩,
   ⟨fl [(cm 0x0E [(8, 0, 9)])] ((at0 (en 1))), 0, 7, (cm 0x0E [(8, 0, 9)]), ⟨9, 0, true, img [(1, en 1)], [0], [], 0⟩, by decide +kernel⟩⟩

/-- Every hypothesis of ProgramHeatAndStreamCommands is met. -/
theorem hyps_met_ProgramHeatAndStreamCommands_3 :
  (∃ (s : State) (ring : Fin 64) (cid : Fin 65536) (c : Cmd) (p : Prog), Ready s ring cid 0x0E c ∧ c.only [(8, 0, 32)] = true ∧ s.prog? (c.arg 8 0
    32) = some p ∧ s.progBusy p.handle = false ∧ c.user ≠ p.user ∧ c.user ≠ 0) ∧
  (∃ (s : State) (ring : Fin 64) (cid : Fin 65536) (c : Cmd) (p : Prog), Ready s ring cid 0x0E c ∧ c.only [(8, 0, 32)] = true ∧ s.prog? (c.arg 8 0
    32) = some p ∧ s.progBusy p.handle = false ∧ (c.user = p.user ∨ c.user = 0)) ∧
  (∃ (s : State) (ring : Fin 64) (cid : Fin 65536) (c : Cmd) (p : Prog), Ready s ring cid 0x0E c ∧ c.only [(8, 0, 32)] = true ∧ s.prog? (c.arg 8 0
    32) = some p ∧ s.progBusy p.handle = false ∧ (c.user = p.user ∨ c.user = 0)) ∧
  (∃ (s : State) (ring : Fin 64) (cid : Fin 65536) (c : Cmd), s.prog? (c.arg 8 0 32) = none ∧ Ready s ring cid 0x0D c) :=
  ⟨⟨fl [(cm 0x0E [(8, 0, 9)] 1)] (({ progs := [{ pg false with user := 2 }] })), 0, 7, (cm 0x0E [(8, 0, 9)] 1), { pg false with user := 2 },
     by decide +kernel⟩,
   ⟨fl [(cm 0x0E [(8, 0, 9)])] (({ progs := [{ pg false with user := 2 }] })), 0, 7, (cm 0x0E [(8, 0, 9)]), { pg false with user := 2 },
     by decide +kernel⟩,
   ⟨fl [(cm 0x0E [(8, 0, 9)] 2)] (({ progs := [{ pg false with user := 2 }] })), 0, 7, (cm 0x0E [(8, 0, 9)] 2), { pg false with user := 2 },
     by decide +kernel⟩,
   ⟨fl [(cm 0x0D [(8, 0, 9)])], 0, 7, (cm 0x0D [(8, 0, 9)]), by decide +kernel⟩⟩

/-- Every hypothesis of ProgramHeatAndStreamCommands is met. -/
theorem hyps_met_ProgramHeatAndStreamCommands_4 :
  (∃ (s : State) (ring : Fin 64) (cid : Fin 65536) (c : Cmd), s.prog? (c.arg 8 0 32) = none ∧ Ready s ring cid 0x0E c) ∧
  (∃ (s : State) (ring : Fin 64) (cid : Fin 65536) (c : Cmd) (b : List Byte) (p : Prog) (h : Heat), Ready s ring cid 0x0F c ∧ s.rg R.PST_STAT_STATE ≠
    2 ∧ s.noHeats = false ∧ c.only [(8, 0, 64), (16, 0, 1)] = true ∧ c.arg 16 0 1 = 1 ∧ c.rdata = none ∧ s.host.linkUp = true ∧ ((vget s.host.fns
    c.user).bme = true) ∧ b.length = 64 + 16 * rec16 b 6 ∧ rec16 b 6 ≤ 64 ∧ s.prog? (rec32 b 0) = some p ∧ h = (started s c).heatOf c p (b.take 64)
    (recordsOf 16 (b.drop 64)) ∧ h.radio = false ∧ s.submitOk c p h (some []) = false) ∧
  (∃ (s : State) (ring : Fin 64) (cid : Fin 65536) (c : Cmd) (b : List Byte) (p : Prog) (h : Heat), Ready s ring cid 0x0F c ∧ s.rg R.PST_STAT_STATE ≠
    2 ∧ s.noHeats = false ∧ c.only [(8, 0, 64), (16, 0, 1)] = true ∧ c.arg 16 0 1 = 1 ∧ c.rdata = none ∧ s.host.linkUp = true ∧ ((vget s.host.fns
    c.user).bme = true) ∧ b.length = 64 + 16 * rec16 b 6 ∧ rec16 b 6 ≤ 64 ∧ s.prog? (rec32 b 0) = some p ∧ h = (started s c).heatOf c p (b.take 64)
    (recordsOf 16 (b.drop 64)) ∧ h.radio = false ∧ s.submitOk c p h (some []) = true ∧ p.ready = false) ∧
  (∃ (s : State) (ring : Fin 64) (cid : Fin 65536) (c : Cmd) (b : List Byte) (p : Prog) (h : Heat) (slot : Fin 32), Ready s ring cid 0x0F c ∧ s.rg
    R.PST_STAT_STATE ≠ 2 ∧ s.noHeats = false ∧ c.only [(8, 0, 64), (16, 0, 1)] = true ∧ c.arg 16 0 1 = 1 ∧ c.rdata = none ∧ s.host.linkUp = true ∧
    ((vget s.host.fns c.user).bme = true) ∧ b.length = 64 + 16 * rec16 b 6 ∧ rec16 b 6 ≤ 64 ∧ s.prog? (rec32 b 0) = some p ∧ h = (started s c).heatOf
    c p (b.take 64) (recordsOf 16 (b.drop 64)) ∧ h.radio = false ∧ s.submitOk c p h (some []) = true ∧ p.ready = true ∧ s.freeSlot false = some
    slot.val ∧ p.user ≠ c.user) :=
  ⟨⟨fl [(cm 0x0E [(8, 0, 9)])], 0, 7, (cm 0x0E [(8, 0, 9)]), by decide +kernel⟩,
   ⟨fl [(cm 0x0F hs)] (({ progs := [pg false] })), 0, 7, (cm 0x0F hs), dsc.set 51 8, pg false,
     (started (fl [(cm 0x0F hs)] (({ progs := [pg false] }))) ((cm 0x0F hs))).heatOf ((cm 0x0F hs)) (pg false) ((dsc.set 51 8).take 64) (recordsOf 16 ((dsc.set 51 8).drop 64)),
     ⟨by decide +kernel, by decide +kernel, by decide +kernel, by decide +kernel, by decide +kernel, by decide +kernel, by decide +kernel, by decide +kernel, by decide +kernel, by decide +kernel, by decide +kernel, rfl, by decide +kernel, by decide +kernel⟩⟩,
   ⟨fl [(cm 0x0F hs)] (({ progs := [pg false] })), 0, 7, (cm 0x0F hs), dsc, pg false,
     (started (fl [(cm 0x0F hs)] (({ progs := [pg false] }))) ((cm 0x0F hs))).heatOf ((cm 0x0F hs)) (pg false) ((dsc).take 64) (recordsOf 16 ((dsc).drop 64)),
     ⟨by decide +kernel, by decide +kernel, by decide +kernel, by decide +kernel, by decide +kernel, by decide +kernel, by decide +kernel, by decide +kernel, by decide +kernel, by decide +kernel, by decide +kernel, rfl, by decide +kernel, by decide +kernel, by decide +kernel⟩⟩,
   ⟨fl [(cm 0x0F hs)] (({ progs := [{ pg true with user := 1 }] })), 0, 7, (cm 0x0F hs), dsc, { pg true with user := 1 },
     (started (fl [(cm 0x0F hs)] (({ progs := [{ pg true with user := 1 }] }))) ((cm 0x0F hs))).heatOf ((cm 0x0F hs)) ({ pg true with user := 1 }) ((dsc).take 64) (recordsOf 16 ((dsc).drop 64)),
     0,
     ⟨by decide +kernel, by decide +kernel, by decide +kernel, by decide +kernel, by decide +kernel, by decide +kernel, by decide +kernel, by decide +kernel, by decide +kernel, by decide +kernel, by decide +kernel, rfl, by decide +kernel, by decide +kernel, by decide +kernel, by decide +kernel, by decide +kernel⟩⟩⟩

/-- Every hypothesis of ProgramHeatAndStreamCommands is met. -/
theorem hyps_met_ProgramHeatAndStreamCommands_5 :
  (∃ (s : State) (ring : Fin 64) (cid : Fin 65536) (c : Cmd) (b : List Byte) (p : Prog) (h : Heat) (slot : Fin 32), Ready s ring cid 0x0F c ∧ s.rg
    R.PST_STAT_STATE ≠ 2 ∧ s.noHeats = false ∧ c.only [(8, 0, 64), (16, 0, 1)] = true ∧ c.arg 16 0 1 = 1 ∧ c.rdata = none ∧ s.host.linkUp = true ∧
    ((vget s.host.fns c.user).bme = true) ∧ b.length = 64 + 16 * rec16 b 6 ∧ rec16 b 6 ≤ 64 ∧ s.prog? (rec32 b 0) = some p ∧ h = (started s c).heatOf
    c p (b.take 64) (recordsOf 16 (b.drop 64)) ∧ h.radio = false ∧ s.submitOk c p h (some []) = true ∧ p.ready = true ∧ s.freeSlot false = some
    slot.val ∧ p.user = c.user ∧ (∀ v, v < progLanes p.image → fenceBreak h p.image s.dev v = none) ∧ s.barred p = [] ∧ (((started s c).takeActs slot
    h.desc (activations p.image) []).1 = Sc.ok)) ∧
  (∃ (s : State) (ring : Fin 64) (cid : Fin 65536) (c : Cmd), Ready s ring cid 0x10 c ∧ c.only [(8, 0, 6), (10, 0, 16)] = true ∧ ((s.ring (c.arg 8 0
    6)).st ≠ .absent) ∧ ((s.ring (c.arg 8 0 6)).owner ≠ c.user)) ∧
  (∃ (s : State) (ring : Fin 64) (cid : Fin 65536) (c : Cmd), Ready s ring cid 0x10 c ∧ c.only [(8, 0, 6), (10, 0, 16)] = true ∧ ((s.ring (c.arg 8 0
    6)).st = .absent ∨ (s.ring (c.arg 8 0 6)).owner = c.user) ∧ ((started s c).cmd? (c.arg 8 0 6) (c.arg 10 0 16) = none)) ∧
  (∃ (s : State) (ring : Fin 64) (cid : Fin 65536) (c : Cmd) (d : Cmd), Ready s ring cid 0x10 c ∧ c.only [(8, 0, 6), (10, 0, 16)] = true ∧ ((s.ring
    (c.arg 8 0 6)).st = .absent ∨ (s.ring (c.arg 8 0 6)).owner = c.user) ∧ ((started s c).cmd? (c.arg 8 0 6) (c.arg 10 0 16) = some d) ∧ d.opcode ≠
    0x0F ∧ d.opcode ≠ 0x11 ∧ d.opcode ≠ 0x12) :=
  ⟨⟨fl [(cm 0x0F hs)] (({ progs := [pg true] })), 0, 7, (cm 0x0F hs), dsc, pg true,
     (started (fl [(cm 0x0F hs)] (({ progs := [pg true] }))) ((cm 0x0F hs))).heatOf ((cm 0x0F hs)) (pg true) ((dsc).take 64) (recordsOf 16 ((dsc).drop 64)),
     0,
     ⟨by decide +kernel, by decide +kernel, by decide +kernel, by decide +kernel, by decide +kernel, by decide +kernel, by decide +kernel, by decide +kernel, by decide +kernel, by decide +kernel, by decide +kernel, rfl, by decide +kernel, by decide +kernel, by decide +kernel, by decide +kernel, by decide +kernel, fun v h => (by decide +kernel : ∀ v : Fin 1, fenceBreak ((started (fl [(cm 0x0F hs)] (({ progs := [pg true] }))) ((cm 0x0F hs))).heatOf ((cm 0x0F hs)) (pg true) ((dsc).take 64) (recordsOf 16 ((dsc).drop 64))) im (0) v.val = none) ⟨v, h⟩, by decide +kernel, by decide +kernel⟩⟩,
   ⟨fl [(cm 0x10 [(8, 0, 5)] 2)] ((r5)), 0, 7, (cm 0x10 [(8, 0, 5)] 2), by decide +kernel⟩,
   ⟨fl [(cm 0x10 [(8, 0, 5), (10, 0, 8)])], 0, 7, (cm 0x10 [(8, 0, 5), (10, 0, 8)]), by decide +kernel⟩,
   ⟨c2 (cm 0x10 [(10, 0, 8)]) 1, 0, 7, cm 0x10 [(10, 0, 8)], { cm 1 with cid := 8 }, by decide +kernel⟩⟩

/-- Every hypothesis of ProgramHeatAndStreamCommands is met. -/
theorem hyps_met_ProgramHeatAndStreamCommands_6 :
  (∃ (s : State) (ring : Fin 64) (cid : Fin 65536) (c : Cmd) (d : Cmd), Ready s ring cid 0x10 c ∧ c.only [(8, 0, 6), (10, 0, 16)] = true ∧ ((s.ring
    (c.arg 8 0 6)).st = .absent ∨ (s.ring (c.arg 8 0 6)).owner = c.user) ∧ ((started s c).cmd? (c.arg 8 0 6) (c.arg 10 0 16) = some d) ∧ d.opcode =
    0x0F ∧ s.heatList = []) ∧
  (∃ (s : State) (ring : Fin 64) (cid : Fin 65536) (c : Cmd) (d : Cmd) (slot : Fin 32) (h : Heat), Ready s ring cid 0x10 c ∧ c.only [(8, 0, 6), (10,
    0, 16)] = true ∧ ((s.ring (c.arg 8 0 6)).st = .absent ∨ (s.ring (c.arg 8 0 6)).owner = c.user) ∧ ((started s c).cmd? (c.arg 8 0 6) (c.arg 10 0
    16) = some d) ∧ d.opcode = 0x0F ∧ s.heatList = [(slot.val, h)] ∧ h.ring = d.ring ∧ h.cid = d.cid ∧ h.silent = false ∧ h.live = true ∧ h.radio =
    true ∧ h.firstSample = true) ∧
  (∃ (s : State) (ring : Fin 64) (cid : Fin 65536) (c : Cmd) (d : Cmd), Ready s ring cid 0x10 c ∧ c.only [(8, 0, 6), (10, 0, 16)] = true ∧ ((s.ring
    (c.arg 8 0 6)).st = .absent ∨ (s.ring (c.arg 8 0 6)).owner = c.user) ∧ ((started s c).cmd? (c.arg 8 0 6) (c.arg 10 0 16) = some d) ∧ (d.opcode =
    0x11 ∨ d.opcode = 0x12) ∧ s.xfers = []) ∧
  (∃ (s : State) (ring : Fin 64) (cid : Fin 65536) (c : Cmd) (d : Cmd), Ready s ring cid 0x10 c ∧ c.only [(8, 0, 6), (10, 0, 16)] = true ∧ ((s.ring
    (c.arg 8 0 6)).st = .absent ∨ (s.ring (c.arg 8 0 6)).owner = c.user) ∧ ((started s c).cmd? (c.arg 8 0 6) (c.arg 10 0 16) = some d) ∧ (d.opcode =
    0x11 ∨ d.opcode = 0x12) ∧ s.xfers = []) :=
  ⟨⟨c2 (cm 0x10 [(10, 0, 8)]) 0x0F, 0, 7, cm 0x10 [(10, 0, 8)], { cm 0x0F with cid := 8 }, by decide +kernel⟩,
   ⟨c2 (cm 0x10 [(10, 0, 8)]) 0x0F (h0 { ht [(48, 19, 1)] with cid := 8, firstSample := true }), 0, 7, cm 0x10 [(10, 0, 8)],
     { cm 0x0F with cid := 8 }, 0, { ht [(48, 19, 1)] with cid := 8, firstSample := true }, by decide +kernel⟩,
   ⟨c2 (cm 0x10 [(10, 0, 8)]) 0x11, 0, 7, cm 0x10 [(10, 0, 8)], { cm 0x11 with cid := 8 }, by decide +kernel⟩,
   ⟨c2 (cm 0x10 [(10, 0, 8)]) 0x12, 0, 7, cm 0x10 [(10, 0, 8)], { cm 0x12 with cid := 8 }, by decide +kernel⟩⟩

/-- Every hypothesis of ProgramHeatAndStreamCommands is met. -/
theorem hyps_met_ProgramHeatAndStreamCommands_7 :
  (∃ (s : State) (ring : Fin 64) (cid : Fin 65536) (c : Cmd) (b : List Byte) (tok : Option (Bool × Nat)), Ready s ring cid 0x11 c ∧ s.rg
    R.PST_STAT_STATE ≠ 2 ∧ c.only [(8, 0, 64), (16, 0, 64), (24, 0, 2)] = true ∧ c.arg 24 0 1 = 1 ∧ b.length = 64 ∧ s.host.linkUp = true ∧ ((vget
    s.host.fns c.user).bme = true) ∧ dKind b = 0 ∧ (dPair b = true → c.arg 16 0 64 ≠ 0) ∧ c.arg 24 1 1 = 1 ∧ tok = (if c.arg 16 0 64 = 0 then none
    else some (true, c.arg 16 0 64)) ∧ (dSrcGlobal b = true ∨ dDstGlobal b = true) ∧ c.user ≠ 0) ∧
  (∃ (s : State) (ring : Fin 64) (cid : Fin 65536) (c : Cmd) (b : List Byte) (tok : Option (Bool × Nat)), Ready s ring cid 0x11 c ∧ s.rg
    R.PST_STAT_STATE ≠ 2 ∧ c.only [(8, 0, 64), (16, 0, 64), (24, 0, 2)] = true ∧ c.arg 24 0 1 = 1 ∧ b.length = 64 ∧ s.host.linkUp = true ∧ ((vget
    s.host.fns c.user).bme = true) ∧ dKind b = 0 ∧ (dPair b = true → c.arg 16 0 64 ≠ 0) ∧ c.arg 24 1 1 = 1 ∧ tok = (if c.arg 16 0 64 = 0 then none
    else some (true, c.arg 16 0 64)) ∧ (dSrcGlobal b = true ∨ dDstGlobal b = true) ∧ c.user ≠ 0) ∧
  (∃ (s : State) (ring : Fin 64) (cid : Fin 65536) (c : Cmd) (b : List Byte) (tok : Option (Bool × Nat)), Ready s ring cid 0x11 c ∧ s.rg
    R.PST_STAT_STATE ≠ 2 ∧ c.only [(8, 0, 64), (16, 0, 64), (24, 0, 2)] = true ∧ c.arg 24 0 1 = 1 ∧ b.length = 64 ∧ s.host.linkUp = true ∧ ((vget
    s.host.fns c.user).bme = true) ∧ dKind b = 0 ∧ (dPair b = true → c.arg 16 0 64 ≠ 0) ∧ c.arg 24 1 1 = 1 ∧ tok = (if c.arg 16 0 64 = 0 then none
    else some (true, c.arg 16 0 64)) ∧ ((dSrcGlobal b = false ∧ dDstGlobal b = false) ∨ c.user = 0) ∧ s.xfers.any (fun y => y.st = .queued && y.id !=
    s.xferNext) = true) ∧
  (∃ (s : State) (ring : Fin 64) (cid : Fin 65536) (c : Cmd) (b : List Byte) (tok : Option (Bool × Nat)) (x : Xfer), Ready s ring cid 0x11 c ∧ s.rg
    R.PST_STAT_STATE ≠ 2 ∧ c.only [(8, 0, 64), (16, 0, 64), (24, 0, 2)] = true ∧ c.arg 24 0 1 = 1 ∧ b.length = 64 ∧ s.host.linkUp = true ∧ ((vget
    s.host.fns c.user).bme = true) ∧ dKind b = 0 ∧ (dPair b = true → c.arg 16 0 64 ≠ 0) ∧ c.arg 24 1 1 = 1 ∧ tok = (if c.arg 16 0 64 = 0 then none
    else some (true, c.arg 16 0 64)) ∧ ((dSrcGlobal b = false ∧ dDstGlobal b = false) ∨ c.user = 0) ∧ s.xfers = [] ∧ x =
    { id := s.xferNext, engine := 8, issuer := .cmd c.ring c.cid, user := c.user, desc := b, st := .queued, reserved := false, tokenAddr := tok } ∧
    s.entryFree false = true ∧ (({ started s c with xfers := [x], xferNext := s.xferNext + 1 } : State).xferOk { x with st := .admitted } = true)) :=
  ⟨⟨fl [(cm 0x11 sd 1)], 0, 7, (cm 0x11 sd 1), rb 64 [(0, 52, 1)], none, by decide +kernel⟩,
   ⟨fl [(cm 0x11 sd 1)], 0, 7, (cm 0x11 sd 1), rb 64 [(8, 52, 1)], none, by decide +kernel⟩,
   ⟨fl [(cm 0x11 sd)] (({ xfers := [xf de .queued], xferNext := 1 })), 0, 7, (cm 0x11 sd), rb 64 [(8, 52, 1)], none, by decide +kernel⟩,
   ⟨fl [(cm 0x11 [(8, 0, 4096), (16, 0, 8192), (24, 0, 3)])], 0, 7, (cm 0x11 [(8, 0, 4096), (16, 0, 8192), (24, 0, 3)]), de [(56, 2, 1)], some (true,
     8192),
     { id := (fl [(cm 0x11 [(8, 0, 4096), (16, 0, 8192), (24, 0, 3)])]).xferNext, engine := 8, issuer := .cmd ((cm 0x11 [(8, 0, 4096), (16, 0, 8192), (24, 0, 3)])).ring ((cm 0x11 [(8, 0, 4096), (16, 0, 8192), (24, 0, 3)])).cid, user := ((cm 0x11 [(8, 0, 4096), (16, 0, 8192), (24, 0, 3)])).user, desc := (de [(56, 2, 1)]), st := .queued, reserved := false, tokenAddr := (some (true, 8192)) },
     ⟨by decide +kernel, by decide +kernel, by decide +kernel, by decide +kernel, by decide +kernel, by decide +kernel, by decide +kernel, by decide +kernel, by decide +kernel, by decide +kernel, by decide +kernel, by decide +kernel, by decide +kernel, rfl, by decide +kernel, by decide +kernel⟩⟩⟩

/-- Every hypothesis of ProgramHeatAndStreamCommands is met. -/
theorem hyps_met_ProgramHeatAndStreamCommands_8 :
  (∃ (s : State) (ring : Fin 64) (cid : Fin 65536) (c : Cmd) (b : List Byte) (tok : Option (Bool × Nat)) (x : Xfer), Ready s ring cid 0x11 c ∧ s.rg
    R.PST_STAT_STATE ≠ 2 ∧ c.only [(8, 0, 64), (16, 0, 64), (24, 0, 2)] = true ∧ c.arg 24 0 1 = 1 ∧ b.length = 64 ∧ s.host.linkUp = true ∧ ((vget
    s.host.fns c.user).bme = true) ∧ dKind b = 0 ∧ (dPair b = true → c.arg 16 0 64 ≠ 0) ∧ c.arg 24 1 1 = 1 ∧ tok = (if c.arg 16 0 64 = 0 then none
    else some (true, c.arg 16 0 64)) ∧ ((dSrcGlobal b = false ∧ dDstGlobal b = false) ∨ c.user = 0) ∧ s.xfers = [] ∧ x =
    { id := s.xferNext, engine := 8, issuer := .cmd c.ring c.cid, user := c.user, desc := b, st := .queued, reserved := false, tokenAddr := tok } ∧
    s.entryFree false = true ∧ (({ started s c with xfers := [x], xferNext := s.xferNext + 1 } : State).xferOk { x with st := .admitted } = true)) ∧
  (∃ (s : State) (ring : Fin 64) (cid : Fin 65536) (c : Cmd), Ready s ring cid 0x12 c ∧ s.rg R.PST_STAT_STATE ≠ 2 ∧ c.only [(8, 0, 64), (16, 0, 32),
    (20, 0, 8), (24, 0, 64)] = true ∧ c.arg 20 0 8 ∈ [1, 2, 4, 8] ∧ c.arg 16 0 32 ≠ 0 ∧ c.arg 16 0 32 % c.arg 20 0 8 = 0 ∧ c.arg 8 0 64 % c.arg 20 0
    8 = 0 ∧ c.arg 8 0 64 < 2 ^ 46 ∧ s.canReach c.user (c.arg 8 0 64) (c.arg 16 0 32) true = true ∧ s.inMem (c.arg 8 0 64) (c.arg 16 0 32) = true) ∧
  (∃ (s : State) (ring : Fin 64) (cid : Fin 65536) (c : Cmd), Ready s ring cid 0x12 c ∧ s.rg R.PST_STAT_STATE ≠ 2 ∧ c.only [(8, 0, 64), (16, 0, 32),
    (20, 0, 8), (24, 0, 64)] = true ∧ (c.arg 20 0 8 ∉ [1, 2, 4, 8] ∨ c.arg 16 0 32 = 0 ∨ c.arg 16 0 32 % c.arg 20 0 8 ≠ 0 ∨ c.arg 8 0 64 % c.arg 20 0
    8 ≠ 0)) ∧
  (∃ (s : State) (ring : Fin 64) (cid : Fin 65536) (c : Cmd), Ready s ring cid 0x12 c ∧ s.rg R.PST_STAT_STATE ≠ 2 ∧ c.only [(8, 0, 64), (16, 0, 32),
    (20, 0, 8), (24, 0, 64)] = true ∧ (c.arg 20 0 8 ∉ [1, 2, 4, 8] ∨ c.arg 16 0 32 = 0 ∨ c.arg 16 0 32 % c.arg 20 0 8 ≠ 0 ∨ c.arg 8 0 64 % c.arg 20 0
    8 ≠ 0)) :=
  ⟨⟨fl [(cm 0x11 sd)], 0, 7, (cm 0x11 sd), de [(56, 2, 1)], none,
     { id := (fl [(cm 0x11 sd)]).xferNext, engine := 8, issuer := .cmd ((cm 0x11 sd)).ring ((cm 0x11 sd)).cid, user := ((cm 0x11 sd)).user, desc := (de [(56, 2, 1)]), st := .queued, reserved := false, tokenAddr := (none) },
     ⟨by decide +kernel, by decide +kernel, by decide +kernel, by decide +kernel, by decide +kernel, by decide +kernel, by decide +kernel, by decide +kernel, by decide +kernel, by decide +kernel, by decide +kernel, by decide +kernel, by decide +kernel, rfl, by decide +kernel, by decide +kernel⟩⟩,
   ⟨fl [(cm 0x12 [(8, 0, 0x8000000), (16, 0, 8), (20, 0, 8)])], 0, 7, (cm 0x12 [(8, 0, 0x8000000), (16, 0, 8), (20, 0, 8)]), by decide +kernel⟩,
   ⟨fl [(cm 0x12 [(8, 0, 0x8000000), (16, 0, 8), (20, 0, 3)])], 0, 7, (cm 0x12 [(8, 0, 0x8000000), (16, 0, 8), (20, 0, 3)]), by decide +kernel⟩,
   ⟨fl [(cm 0x12 [(8, 0, 0x8000000), (20, 0, 1)])], 0, 7, (cm 0x12 [(8, 0, 0x8000000), (20, 0, 1)]), by decide +kernel⟩⟩

/-- Every hypothesis of ProgramHeatAndStreamCommands is met. -/
theorem hyps_met_ProgramHeatAndStreamCommands_9 :
  (∃ (s : State) (ring : Fin 64) (cid : Fin 65536) (c : Cmd), Ready s ring cid 0x12 c ∧ s.rg R.PST_STAT_STATE ≠ 2 ∧ c.only [(8, 0, 64), (16, 0, 32),
    (20, 0, 8), (24, 0, 64)] = true ∧ (c.arg 20 0 8 ∉ [1, 2, 4, 8] ∨ c.arg 16 0 32 = 0 ∨ c.arg 16 0 32 % c.arg 20 0 8 ≠ 0 ∨ c.arg 8 0 64 % c.arg 20 0
    8 ≠ 0)) ∧
  (∃ (s : State) (ring : Fin 64) (cid : Fin 65536) (c : Cmd), Ready s ring cid 0x13 c ∧ c.only [(8, 0, 6), (10, 0, 16), (12, 0, 1)] = true ∧ ((s.ring
    (c.arg 8 0 6)).st = .absent ∨ (s.ring (c.arg 8 0 6)).owner = c.user) ∧ ((started s c).cmd? (c.arg 8 0 6) (c.arg 10 0 16) = none)) ∧
  (∃ (s : State) (ring : Fin 64) (cid : Fin 65536) (c : Cmd) (d : Cmd) (x : Xfer), Ready s ring cid 0x13 c ∧ c.only [(8, 0, 6), (10, 0, 16), (12, 0,
    1)] = true ∧ ((s.ring (c.arg 8 0 6)).st = .absent ∨ (s.ring (c.arg 8 0 6)).owner = c.user) ∧ ((started s c).cmd? (c.arg 8 0 6) (c.arg 10 0 16) =
    some d) ∧ s.xfers = [x] ∧ x.issuer = .cmd d.ring d.cid ∧ dPair x.desc = true ∧ x.free.length = 2 ∧ x.free.getD (c.arg 12 0 1) true = false) :=
  ⟨⟨fl [(cm 0x12 [(8, 0, 0x8000001), (16, 0, 8), (20, 0, 8)])], 0, 7, (cm 0x12 [(8, 0, 0x8000001), (16, 0, 8), (20, 0, 8)]), by decide +kernel⟩,
   ⟨fl [(cm 0x13 [(8, 0, 5), (10, 0, 8), (12, 0, 1)])], 0, 7, (cm 0x13 [(8, 0, 5), (10, 0, 8), (12, 0, 1)]), by decide +kernel⟩,
   ⟨c2 (cm 0x13 [(10, 0, 8), (12, 0, 1)]) 0x11 { xfers := [{ xf (de [(56, 11, 1)]) .moving (.cmd 0 8) with free := [true, false] }] }, 0, 7, cm 0x13
     [(10, 0, 8), (12, 0, 1)], { cm 0x11 with cid := 8 }, { xf (de [(56, 11, 1)]) .moving (.cmd 0 8) with free := [true, false] }, by decide +kernel⟩⟩

end Sys2Proof.Tests
end

section
/-! PROOFS. The entries of a vector after a change of one of them, the start of a command that is ready, and POOL_CLASS_DELETE
(R157, R484). -/

namespace Sys2Proof.Machine

/-! ## Entries of a vector -/

theorem vget_eq_getElem {α : Type} [Inhabited α] {n : Nat} (v : Vector α n) (i : Nat) (h : i < n) : vget v i = v[i] := by
  simp [vget, h]

theorem vget_vmod_self {α : Type} [Inhabited α] {n : Nat} (v : Vector α n) (i : Nat) (f : α → α) (h : i < n) :
    vget (vmod v i f) i = f (vget v i) := by
  simp [vmod, vget_eq_getElem, h]

theorem vget_vmod_ne {α : Type} [Inhabited α] {n : Nat} (v : Vector α n) (i j : Nat) (f : α → α) (h : j ≠ i) :
    vget (vmod v i f) j = vget v j := by
  unfold vmod
  split
  · simp [vget, Vector.getElem?_set_ne _ h.symm]
  · rfl

/-! ## The start of a command -/

/-- The command of a ring and CID is the one found in flight, and bears them. -/
theorem cmd?_of_theCmd {s : State} {ring cid : Nat} {c : Cmd} (h : TheCmd s ring cid c) :
    s.cmd? ring cid = some c ∧ c.ring = ring ∧ c.cid = cid := by
  have hfind : s.cmd? ring cid = some c := by
    rw [State.cmd?, ← List.head?_filter, h]
    rfl
  have hmatch := List.find?_some hfind
  simp only [Bool.and_eq_true, beq_iff_eq] at hmatch
  obtain ⟨⟨hring, hcid⟩, -⟩ := hmatch
  exact ⟨hfind, hring, hcid⟩

/-- A ready command takes effect where it needs no block that Rest gates and is not HEAT_SUBMIT. -/
theorem start_of_ready {s : State} {ring cid opcode : Nat} {c : Cmd} (h : Ready s ring cid opcode c) (hgated : c.gated = false)
    (hheat : opcode ≠ 0x0F) (f : Cmd → State → State) : s.start ring cid opcode f = f c (started s c) := by
  obtain ⟨hthe, hop, hstarted, hmay, hstop, hwarm⟩ := h
  obtain ⟨hfind, hring, hcid⟩ := cmd?_of_theCmd hthe
  simp [State.start, started, hfind, hop, hstarted, hmay, hstop, hwarm, hgated, hheat, hring, hcid]

@[simp] theorem pclass_started (s : State) (c : Cmd) (k : Nat) : (started s c).pclass k = s.pclass k := rfl
@[simp] theorem classUsed_started (s : State) (c : Cmd) (k : Nat) : (started s c).classUsed k = s.classUsed k := rfl
@[simp] theorem started_mem (s : State) (c : Cmd) : (started s c).mem = s.mem := rfl

/-! ## A class deleted -/

theorem pclass_modClass_self (s : State) (k : Nat) (f : PoolClass → PoolClass) (h : k < 32) :
    (s.modClass k f).pclass k = f (s.pclass k) := vget_vmod_self _ _ _ h

theorem pclass_modClass_ne (s : State) (k j : Nat) (f : PoolClass → PoolClass) (h : j ≠ k) :
    (s.modClass k f).pclass j = s.pclass j := vget_vmod_ne _ _ _ _ h

/-- Generations set one after another, each from the state before it, leave the classes and memory alone. -/
theorem foldl_setGen_classes_mem {α : Type} (i g : State → α → Nat) (l : List α) (s : State) :
    (l.foldl (fun t x => t.setGen (i t x) (g t x)) s).pool.classes = s.pool.classes ∧
      (l.foldl (fun t x => t.setGen (i t x) (g t x)) s).mem = s.mem := by
  induction l generalizing s with
  | nil => exact ⟨rfl, rfl⟩
  | cons x l ih => exact ih (s.setGen (i s x) (g s x))

theorem pclass_classGone_self (s : State) (k : Nat) (h : k < 32) : (s.classGone k).pclass k = {} :=
  pclass_modClass_self _ k _ h

theorem pclass_classGone_ne (s : State) (k j : Nat) (h : j ≠ k) : (s.classGone k).pclass j = s.pclass j :=
  (pclass_modClass_ne _ k j _ h).trans (congrArg (vget · j) (foldl_setGen_classes_mem _ _ _ s).1)

theorem classGone_mem (s : State) (k : Nat) : (s.classGone k).mem = s.mem :=
  (foldl_setGen_classes_mem _ _ _ s).2

theorem rg_useNow_classGone (s : State) (k : Nat) : (s.classGone k).rg R.POOL_USE_NOW k = 0 := by
  simp [State.classGone]

/-! ## POOL_CLASS_DELETE -/

theorem exec_poolClassDelete (ring : Fin 64) (cid : Fin 65536) (s : State) :
    exec (.poolClassDelete ring cid) s = execPoolClassDelete ring cid s := rfl

/-- The four answers of POOL_CLASS_DELETE, in the order of its checks (R484, and R482 for another user). -/
theorem exec_poolClassDelete_of_ready {s : State} {ring : Fin 64} {cid : Fin 65536} {c : Cmd} {k : Fin 32}
    (h : Ready s ring cid 0x0A c) (honly : c.only [(8, 0, 8)] = true) (hk : c.arg 8 0 8 = k) :
    exec (.poolClassDelete ring cid) s = .next (
      if (s.pclass k).conf = false then (started s c).fin c Sc.ok 1
      else if s.classUsed k = true then (started s c).fin c Sc.cfgBusy
      else if c.user ≠ 0 ∧ c.user ≠ (s.pclass k).user then (started s c).fin c 0x0100
      else ((started s c).classGone k).fin c Sc.ok) := by
  have hgated : c.gated = false := by
    obtain ⟨-, hop, -⟩ := h
    simp [Cmd.gated, hop]
  rw [exec_poolClassDelete, execPoolClassDelete, start_of_ready h hgated (by decide)]
  simp [State.check, honly, hk]

/-- Settles O59: the answer for each of its cases, and what a deleted class leaves (`State.classGone`). -/
theorem poolClassDelete : Obligations.PoolClassDelete := by
  intro s ring cid c k hready honly hk
  have hexec := exec_poolClassDelete_of_ready hready honly hk
  refine ⟨fun hconf => ?unconfigured, fun hconf hused => ?inUse, fun hconf hunused huser => ?deleted⟩
  case unconfigured => simp [hexec, hconf]
  case inUse => simp [hexec, hconf, hused]
  case deleted =>
    have hpermitted : ¬ (c.user ≠ 0 ∧ c.user ≠ (s.pclass k).user) := fun ⟨hne, hother⟩ => huser.elim hne hother
    refine ⟨(started s c).classGone k, ?_, ?_, rg_useNow_classGone _ _, fun j hj => ?_, classGone_mem _ _⟩
    · simp [hexec, hconf, hunused, hpermitted]
    · rw [pclass_classGone_self _ _ k.isLt]
    · exact pclass_classGone_ne _ _ _ (fun e => hj (Fin.ext e))

end Sys2Proof.Machine
end

section
/-! PROOFS. Little-endian words of a record, a PON port after a stimulus (Table PON-7), and PON_WAKE and PON_STATUS (R514). -/

namespace Sys2Proof.Machine

/-! ## Little-endian words of a record -/

@[simp] theorem length_leBytes (n v : Nat) : (leBytes n v).length = n := by
  induction n generalizing v with
  | zero => rfl
  | succ n ih => simp [leBytes, ih]

theorem leNat_leBytes (n v : Nat) : leNat (leBytes n v) = v % 256 ^ n := by
  induction n generalizing v with
  | zero => simp [leBytes, leNat, Nat.mod_one]
  | succ n ih => simp [leBytes, leNat, ih, Nat.pow_succ', Nat.mod_mul]

theorem length_flatMap_mul {α : Type} (f : α → List Byte) (m : Nat) (hf : ∀ x, (f x).length = m) (l : List α) :
    (l.flatMap f).length = m * l.length := by
  induction l with
  | nil => rfl
  | cons x l ih => rw [List.flatMap_cons, List.length_append, hf, ih, List.length_cons, Nat.mul_succ, Nat.add_comm]

/-- Piece `k` of pieces of one size laid end to end. -/
theorem slice_flatMap_mul {α : Type} (f : α → List Byte) (m : Nat) (hf : ∀ x, (f x).length = m) (l : List α) (k : Nat)
    (hk : k < l.length) : slice (l.flatMap f) (m * k) m = f l[k] := by
  induction l generalizing k with
  | nil => simp at hk
  | cons x l ih =>
    cases k with
    | zero => simp [slice, ← hf x]
    | succ k =>
      have hdrop : (f x ++ l.flatMap f).drop (m * (k + 1)) = (l.flatMap f).drop (m * k) := by
        rw [Nat.mul_succ, Nat.add_comm, ← hf x, List.drop_length_add_append]
      simpa [slice, hdrop] using ih k (Nat.lt_of_succ_lt_succ hk)

theorem length_regBytes (s : State) (off words : Nat) : (s.regBytes off words).length = 4 * words := by
  rw [State.regBytes, length_flatMap_mul _ 4 (fun _ => length_leBytes _ _), List.length_range]

/-- Word `k` of register bytes is the register word at its offset. -/
theorem rec32_regBytes (s : State) (off words k : Nat) (hk : k < words) :
    rec32 (s.regBytes off words) (4 * k) = s.regWord 0 (off + 4 * k) % 2 ^ 32 := by
  rw [rec32, State.regBytes, slice_flatMap_mul _ 4 (fun _ => length_leBytes _ _) _ k (by simpa using hk), leNat_leBytes]
  simp

/-! ## A port after a stimulus -/

theorem port_modPort_self (s : State) (p : Nat) (f : Port → Port) (h : p < 2) : (s.modPort p f).port p = f (s.port p) :=
  vget_vmod_self _ _ _ h

@[simp] theorem rg_modPort (s : State) (p : Nat) (f : Port → Port) (g : Fld) (j w : Nat) : (s.modPort p f).rg g j w = s.rg g j w := rfl

@[simp] theorem port_laserUpdate (s : State) (p q : Nat) : (s.laserUpdate p).port q = s.port q := rfl

/-- The LASER bit is a field of its own: setting it leaves the power-saving state alone. -/
@[simp] theorem rg_pm_laserUpdate (s : State) (p : Nat) : (s.laserUpdate p).rg R.PON_STAT_PM p = s.rg R.PON_STAT_PM p := by
  refine State.rg_setRg_ne s _ _ _ _ _ _ _ ?_
  simp [Fld.key, R.PON_STAT_PM, R.PON_STAT_LASER]

theorem ponStimulus_of_pm_eq_zero {s : State} {p : Nat} (hpm : s.rg R.PON_STAT_PM p = 0) : s.ponStimulus p = s := if_pos hpm

theorem rg_pm_ponStimulus (s : State) (p : Nat) : (s.ponStimulus p).rg R.PON_STAT_PM p = 0 := by
  by_cases hpm : s.rg R.PON_STAT_PM p = 0
  · rw [ponStimulus_of_pm_eq_zero hpm, hpm]
  · simp only [State.ponStimulus, if_neg hpm]
    split <;> simp

/-- Power saving that ends queues Sleep_Request (Awake) and counts no defect as frozen. -/
theorem port_ponStimulus {s : State} {p : Nat} (hp : p < 2) (hpm : s.rg R.PON_STAT_PM p ≠ 0) :
    ((s.ponStimulus p).port p).sleepQ = some 0 ∧ ((s.ponStimulus p).port p).frozen = false := by
  simp only [State.ponStimulus, if_neg hpm]
  split
  case isTrue hfrozen => simp [port_modPort_self _ _ _ hp]
  case isFalse hfrozen => exact ⟨by simp [port_modPort_self _ _ _ hp], by simpa using hfrozen⟩

/-- A stimulus changes ports and registers alone. -/
theorem ponStimulus_frame (s : State) (p : Nat) : { s.ponStimulus p with ports := s.ports, regs := s.regs } = s := by
  unfold State.ponStimulus
  dsimp only
  split
  · rfl
  · split <;> rfl

/-! ## PON_WAKE and PON_STATUS -/

/-- A ready command takes effect where its OPCODE is none of those that Rest can gate (R619). -/
theorem start_of_ready_ungated {s : State} {ring cid opcode : Nat} {c : Cmd} (h : Ready s ring cid opcode c)
    (hopcode : opcode ∉ [0x0F, 0x11, 0x12, 0x41, 0x45, 0x70, 0x92]) (f : Cmd → State → State) :
    s.start ring cid opcode f = f c (started s c) := by
  have hgated : c.gated = false := by
    obtain ⟨-, rfl, -⟩ := h
    simp_all [Cmd.gated]
  exact start_of_ready h hgated (fun e => hopcode (by simp [e])) f

@[simp] theorem rg_started (s : State) (c : Cmd) (f : Fld) (i u : Nat) : (started s c).rg f i u = s.rg f i u := rfl
@[simp] theorem regBytes_started (s : State) (c : Cmd) (off words : Nat) : (started s c).regBytes off words = s.regBytes off words := rfl

theorem exec_ponWake (ring : Fin 64) (cid : Fin 65536) (s : State) :
    exec (.ponWake ring cid) s = execPonWake ring cid s := rfl

theorem exec_ponStatus (ring : Fin 64) (cid : Fin 65536) (s : State) :
    exec (.ponStatus ring cid) s = execPonStatus ring cid s := rfl

/-- PON_WAKE is a stimulus of its port, answered with the state before it; user 0 alone may issue it (R501). -/
theorem exec_ponWake_of_ready {s : State} {ring : Fin 64} {cid : Fin 65536} {c : Cmd} {p : Fin 2}
    (h : Ready s ring cid 0x53 c) (hp : c.arg 8 0 1 = p) (honly : c.only [(8, 0, 1)] = true) :
    exec (.ponWake ring cid) s = .next (
      if c.user = 0 then ((started s c).ponStimulus p).fin c Sc.ok (s.rg R.PON_STAT_PM p)
      else (started s c).fin c 0x0100) := by
  rw [exec_ponWake, execPonWake, start_of_ready_ungated h (by decide)]
  simp [State.check, State.user0, honly, hp]

/-- PON_STATUS with H set writes the words of its port's registers to the host; user 0 alone may issue it (R501). -/
theorem exec_ponStatus_of_ready {s : State} {ring : Fin 64} {cid : Fin 65536} {c : Cmd} {p : Fin 2}
    (h : Ready s ring cid 0x54 c) (hp : c.arg 8 0 1 = p) (hhost : c.arg 9 0 1 = 1)
    (honly : c.only [(8, 0, 1), (9, 0, 1), (16, 0, 64)] = true) :
    exec (.ponStatus ring cid) s = .next (
      if c.user = 0 then
        ((started s c).post 0 (.hostWrite 0 (c.arg 16 0 64) (s.regBytes (0x3700 + 0x40 * p) 16))).fin c Sc.ok 64
      else (started s c).fin c 0x0100) := by
  have hlen : (s.regBytes (0x3700 + 0x40 * p) 16).length = 64 := length_regBytes _ _ _
  have hnonempty : (s.regBytes (0x3700 + 0x40 * p) 16).isEmpty = false := by
    rw [List.isEmpty_eq_false_iff, ← List.length_pos_iff, hlen]
    decide
  rw [exec_ponStatus, execPonStatus, start_of_ready_ungated h (by decide)]
  by_cases huser : c.user = 0
  · simp [State.check, State.reply, State.fieldOk, State.user0, State.writeField, honly, hp, hhost, hlen, hnonempty, huser]
  · simp [State.check, State.reply, State.fieldOk, State.user0, honly, hp, hhost, huser]

/-- Settles O60: PON_WAKE by what a stimulus does to its port, PON_STATUS by the words of the register bytes. -/
theorem ponWakeAndStatus : Obligations.PonWakeAndStatus := by
  refine ⟨fun s ring cid c p hready hp honly => ?wake, fun s ring cid c p hready hp hhost honly => ?status⟩
  case wake =>
    have hexec := exec_ponWake_of_ready hready hp honly
    refine ⟨fun huser => ?refused, fun huser hpm => ?awake, fun huser hpm => ?saving⟩
    case refused => rw [hexec, if_neg huser]
    case awake => rw [hexec, if_pos huser, ponStimulus_of_pm_eq_zero (s := started s c) hpm, hpm]
    case saving =>
      obtain ⟨hsleep, hfrozen⟩ := port_ponStimulus (s := started s c) p.isLt hpm
      exact ⟨_, by rw [hexec, if_pos huser], rg_pm_ponStimulus _ _, hsleep, hfrozen, ponStimulus_frame _ _⟩
  case status =>
    have hexec := exec_ponStatus_of_ready hready hp hhost honly
    refine ⟨fun huser => ?refused, fun huser => ?written⟩
    case refused => rw [hexec, if_neg huser]
    case written =>
      exact ⟨_, by rw [hexec, if_pos huser], length_regBytes _ _ _, fun k hk => rec32_regBytes s _ 16 k hk⟩

end Sys2Proof.Machine
end
